-- ==== Sys2Proof/Word.lean ====
section
/-! DEFINITION. The plain words of the GH410's two serial interfaces: bytes, tier sets and Host Link frames. -/

namespace Sys2Proof

/-- One byte of the Host Link or of a plant packet. -/
abbrev Byte := BitVec 8

/-- A tier set in the form R196 gives it: bit t is 1 exactly when tier t is a member. -/
abbrev TierSet := BitVec 16

/-- What a checked Host Link frame carries (Table 12-6): its kind, its tag and its payload. -/
structure Frame where
  kind : Byte
  tag : Byte
  payload : List Byte
  deriving DecidableEq, Repr

end Sys2Proof
end

