-- ==== Sys2Proof/Config.lean ====
section
/-! DEFINITION. What the spec leaves open as a value: constants without a body, so that no proof can see them. -/

namespace Sys2Proof

/-- A fresh natural number that nothing constrains; applied to `State.freeCount` (log entry 5). -/
opaque Config.freeNat : Nat → Nat

/-- A fresh truth value that nothing constrains; applied to `State.freeCount` (log entries 5 and 6). -/
opaque Config.freeBool : Nat → Bool

/-- Whether a presence byte that is neither 0 nor 1 counts its value as present in the length check
of R190, which is made before the check of the presence byte itself (log entry 7). -/
opaque Config.badPresenceHasValue : Byte → Bool

/-- The code of the status OUT_OF_RANGE, which Table 12-5 does not list (log entry 11). -/
opaque Config.outOfRangeCode : Byte

end Sys2Proof
end

