-- ==== Sys2Proof/Syntax.lean ====
section
/-! DEFINITION. The commands of the GH410: one constructor for each row of spec/opcode_table.json. -/

namespace Sys2Proof

/-- The steps of the part. The first group are events of the supplies, the clock, the plant and the Host
Link; the second group are the host's requests, each with its tag and the fields its rule lists.
Numbers that a rule ranges are natural numbers (a delta an integer), so that a value outside its range can
be written; a field that R196 calls an enumeration is its code. -/
inductive Instr where
  | firstPower
  | mainPowerLoss
  | backupBelowRetention
  | mainPowerReturn
  | resetPin
  | restartUp
  | restartEventStep
  | gapRecord
  | secondTick
  | monitorMinuteEnd
  | meterTallyTake
  | eventMinuteEnd
  | switchoverTake
  /-- Source-presence input `input` changes to the level `high`. -/
  | sourceLevelChange (input : Nat) (high : Bool)
  | sourceDebounceVerdict (input : Nat)
  | restoreHoldExpiry (node : Nat)
  | slotOpen
  /-- The demodulator's delivery for the window that closes: whether energy was detected, and the bytes
  of the message received, its CRC included, if there was one. -/
  | replyWindowClose (energy : Bool) (message : Option (List Byte))
  | purchaseDecide
  /-- A complete frame with the check it arrived with. -/
  | frameArrival (frame : Frame) (check : BitVec 16)
  | receiveGapTimeout
  | outboundFrameDone
  | frameRefused
  | status (tag : Byte)
  | restart (tag : Byte)
  | setTime (tag : Byte) (time : Nat)
  | timeTrim (tag : Byte) (delta : Int)
  | lineupPut (tag : Byte) (channel slot source kind : Nat) (tier : Option Nat) (label : List Byte)
  | lineupDrop (tag : Byte) (channel : Nat)
  | tierRateSet (tag : Byte) (target rate : Nat)
  | lineupRead (tag : Byte) (bank low high : Nat)
  | switchoverSchedule (tag : Byte) (time : Nat)
  | switchoverCancel (tag : Byte)
  | tapAdd (tag : Byte) (address node model : Nat)
  | tapRemove (tag : Byte) (address : Nat)
  | transponderSet (tag : Byte) (node : Nat) (address : Option Nat)
  | tapRead (tag : Byte) (address : Nat)
  | pollOrder (tag : Byte) (order : Nat)
  | pollStart (tag : Byte)
  | pollSuspend (tag : Byte)
  | pollRead (tag : Byte) (list start : Nat)
  | nodeConfig (tag : Byte) (node missLimit degradedPercent outagePercent restoreHold powerThreshold
      powerHysteresis levelStep : Nat)
  | nodeRead (tag : Byte) (node : Nat)
  | sourceRead (tag : Byte) (low high : Nat)
  | accountOpen (tag : Byte) (account address port : Nat) (tiers : TierSet) (state : Nat)
  | accountTiers (tag : Byte) (account : Nat) (tiers : TierSet)
  | accountHold (tag : Byte) (account : Nat)
  | accountResume (tag : Byte) (account : Nat)
  | accountCut (tag : Byte) (account : Nat)
  | accountRestore (tag : Byte) (account : Nat)
  | accountClose (tag : Byte) (account : Nat)
  | accountRead (tag : Byte) (account : Nat)
  | cycleClose (tag : Byte) (low high : Nat)
  | eventAdd (tag : Byte) (event channel start duration window price threshold : Nat)
  | eventCancel (tag : Byte) (event : Nat)
  | eventRead (tag : Byte) (event start : Nat)
  | eventList (tag : Byte)
  | purchaseEnter (tag : Byte) (account event : Nat)
  | journalRead (tag : Byte) (count : Nat)
  | journalRelease (tag : Byte) (sequence : Nat)
  | alarmSet (tag : Byte) (low high level kind : Nat)
  | compositeDefine (tag : Byte) (index operation a b hold : Nat)
  | compositeRelease (tag : Byte) (index : Nat)
  | alarmExpress (tag : Byte) (slot : Nat) (source : Option Nat)
  | alarmAck (tag : Byte) (source : Nat)
  | alarmDefer (tag : Byte) (source : Nat)
  | alarmQuery (tag : Byte) (low high : Nat)
  | hostLinkByteReceived (byte : Byte)
  deriving DecidableEq, Repr

end Sys2Proof
end

