-- ==== Sys2Proof/Decode.lean ====
section
/-! DEFINITION. The wire forms of R196 that a request uses: integers, the CRC, the fields of each request kind,
the four checks' reading of a frame (R190) and the frame of a request. Decoding is total and refuses by name. -/

namespace Sys2Proof

/-- The bytes of an unsigned integer, most significant byte first (R196). -/
def uintBytes : Nat → Nat → List Byte
  | 0, _ => []
  | k + 1, v => BitVec.ofNat 8 (v / 256 ^ k) :: uintBytes k v

/-- The unsigned integer that bytes spell, most significant first (R196). -/
def uintOf (bs : List Byte) : Nat := bs.foldl (fun acc b => acc * 256 + b.toNat) 0

/-- The two's complement bytes of a signed quantity (R196). -/
def sintBytes (size : Nat) (v : Int) : List Byte := uintBytes size (v % (256 ^ size : Int)).toNat

/-- The signed quantity that two's complement bytes spell (R196). -/
def sintOf (bs : List Byte) : Int :=
  if 2 * uintOf bs < 256 ^ bs.length then (uintOf bs : Int) else (uintOf bs : Int) - (256 ^ bs.length : Int)

/-- One bit of the CRC-16: polynomial 0x1021, most significant bit first, no reflection (R196). -/
def crcBit (crc : BitVec 16) : BitVec 16 :=
  if crc.getLsbD 15 then (crc <<< 1) ^^^ 0x1021#16 else crc <<< 1

/-- One byte of the CRC-16. -/
def crcByte (crc : BitVec 16) (b : Byte) : BitVec 16 :=
  let x := crc ^^^ ((b.zeroExtend 16) <<< 8)
  crcBit (crcBit (crcBit (crcBit (crcBit (crcBit (crcBit (crcBit x)))))))

/-- The CRC-16 of frames and plant packets: initial value 0xFFFF, no final inversion (R196). -/
def crc16 (bs : List Byte) : BitVec 16 := bs.foldl crcByte 0xFFFF#16

/-- The CRC as it is sent, high byte first (R196). -/
def crcBytes (bs : List Byte) : List Byte := uintBytes 2 (crc16 bs).toNat

/-- The bytes a frame's check is taken over: length, kind, tag and payload (Table 12-6). -/
def frameBody (f : Frame) : List Byte := uintBytes 2 (f.payload.length + 2) ++ f.kind :: f.tag :: f.payload

/-- A whole frame on the line: start byte 0xA5, length, kind, tag, payload and check (Table 12-6). -/
def frameBytes (f : Frame) : List Byte := 0xA5#8 :: (frameBody f ++ crcBytes (frameBody f))

/-- The form of one field of a request's payload (R196). -/
inductive FieldForm where
  | uint (size : Nat)
  | sint (size : Nat)
  /-- A presence byte, then an unsigned value of `size` bytes when present. -/
  | optional (size : Nat)
  /-- A count byte, then that many characters. -/
  | label
  deriving DecidableEq, Repr

/-- The value of one field of a request's payload. -/
inductive FieldValue where
  | nat (v : Nat)
  | int (v : Int)
  | option (v : Option Nat)
  | text (bs : List Byte)
  deriving DecidableEq, Repr

/-- The first three checks of R190 on a frame that fails them, and the fourth. -/
inductive FrameError where
  | malformed
  | unknownKind
  | badLength
  deriving DecidableEq, Repr

/-- The fields of each request kind of Table 12-4, in the order its rule lists them, with their sizes by R196.
The address of TRANSPONDER_SET and the source of ALARM_EXPRESS, each given "or none", take the form of an optional field
(log entry 29). `none`: not a request kind. -/
def requestForms (kind : Nat) : Option (List FieldForm) :=
  match kind with
  | 0x01 => some []
  | 0x02 => some []
  | 0x03 => some [.uint 4]
  | 0x04 => some [.sint 4]
  | 0x08 => some [.uint 2, .uint 1, .uint 1, .uint 1, .optional 1, .label]
  | 0x09 => some [.uint 2]
  | 0x0A => some [.uint 1, .uint 4]
  | 0x0B => some [.uint 1, .uint 2, .uint 2]
  | 0x0C => some [.uint 4]
  | 0x0D => some []
  | 0x10 => some [.uint 3, .uint 1, .uint 1]
  | 0x11 => some [.uint 3]
  | 0x12 => some [.uint 1, .optional 3]
  | 0x13 => some [.uint 3]
  | 0x14 => some [.uint 1]
  | 0x15 => some []
  | 0x16 => some []
  | 0x17 => some [.uint 1, .uint 2]
  | 0x18 => some [.uint 1, .uint 1, .uint 1, .uint 1, .uint 2, .uint 2, .uint 2, .uint 2]
  | 0x19 => some [.uint 1]
  | 0x1A => some [.uint 1, .uint 1]
  | 0x20 => some [.uint 4, .uint 3, .uint 1, .uint 2, .uint 1]
  | 0x21 => some [.uint 4, .uint 2]
  | 0x22 => some [.uint 4]
  | 0x23 => some [.uint 4]
  | 0x24 => some [.uint 4]
  | 0x25 => some [.uint 4]
  | 0x26 => some [.uint 4]
  | 0x27 => some [.uint 4]
  | 0x28 => some [.uint 4, .uint 4]
  | 0x30 => some [.uint 1, .uint 2, .uint 4, .uint 2, .uint 1, .uint 4, .uint 2]
  | 0x31 => some [.uint 1]
  | 0x32 => some [.uint 1, .uint 2]
  | 0x33 => some []
  | 0x34 => some [.uint 4, .uint 1]
  | 0x38 => some [.uint 1]
  | 0x39 => some [.uint 4]
  | 0x40 => some [.uint 1, .uint 1, .uint 1, .uint 1]
  | 0x41 => some [.uint 1, .uint 1, .uint 1, .uint 1, .uint 1]
  | 0x42 => some [.uint 1]
  | 0x43 => some [.uint 1, .optional 1]
  | 0x44 => some [.uint 1]
  | 0x45 => some [.uint 1]
  | 0x46 => some [.uint 1, .uint 1]
  | _ => none

/-- The first `size` bytes and the rest, or `none` when there are fewer. -/
def splitBytes (size : Nat) (bs : List Byte) : Option (List Byte × List Byte) :=
  if size ≤ bs.length then some (bs.take size, bs.drop size) else none

/-- What the payload check of R190 makes of one field: its value, whether its presence byte is neither 0 nor 1,
and the bytes behind it. `none`: the payload ends before the field does. -/
def readField (form : FieldForm) (bs : List Byte) : Option (FieldValue × Bool × List Byte) :=
  match form with
  | .uint size => (splitBytes size bs).map fun (h, t) => (.nat (uintOf h), false, t)
  | .sint size => (splitBytes size bs).map fun (h, t) => (.int (sintOf h), false, t)
  | .optional size =>
    match bs with
    | [] => none
    | p :: rest =>
      if p = 0#8 then some (.option none, false, rest)
      else if p = 1#8 then (splitBytes size rest).map fun (h, t) => (.option (some (uintOf h)), false, t)
      else if Config.badPresenceHasValue p then (splitBytes size rest).map fun (_, t) => (.option none, true, t)
      else some (.option none, true, rest)
  | .label =>
    match bs with
    | [] => none
    | n :: rest => (splitBytes n.toNat rest).map fun (h, t) => (.text h, false, t)

/-- The fields of a payload, and whether a presence byte among them is neither 0 nor 1. `none`: the payload's
length is not the length its fields require (R190, check 3). -/
def readFields : List FieldForm → List Byte → Option (List FieldValue × Bool)
  | [], [] => some ([], false)
  | [], _ :: _ => none
  | form :: forms, bs =>
    match readField form bs with
    | none => none
    | some (v, bad, rest) => (readFields forms rest).map fun (vs, bad') => (v :: vs, bad || bad')

/-- The request that a kind, a tag and the payload's field values make. -/
def buildRequest (kind : Nat) (tag : Byte) (values : List FieldValue) : Option Instr :=
  match kind, values with
  | 0x01, [] => some (.status tag)
  | 0x02, [] => some (.restart tag)
  | 0x03, [.nat time] => some (.setTime tag time)
  | 0x04, [.int delta] => some (.timeTrim tag delta)
  | 0x08, [.nat channel, .nat slot, .nat source, .nat kind, .option tier, .text label] =>
      some (.lineupPut tag channel slot source kind tier label)
  | 0x09, [.nat channel] => some (.lineupDrop tag channel)
  | 0x0A, [.nat target, .nat rate] => some (.tierRateSet tag target rate)
  | 0x0B, [.nat bank, .nat low, .nat high] => some (.lineupRead tag bank low high)
  | 0x0C, [.nat time] => some (.switchoverSchedule tag time)
  | 0x0D, [] => some (.switchoverCancel tag)
  | 0x10, [.nat address, .nat node, .nat model] => some (.tapAdd tag address node model)
  | 0x11, [.nat address] => some (.tapRemove tag address)
  | 0x12, [.nat node, .option address] => some (.transponderSet tag node address)
  | 0x13, [.nat address] => some (.tapRead tag address)
  | 0x14, [.nat order] => some (.pollOrder tag order)
  | 0x15, [] => some (.pollStart tag)
  | 0x16, [] => some (.pollSuspend tag)
  | 0x17, [.nat list, .nat start] => some (.pollRead tag list start)
  | 0x18, [.nat node, .nat miss, .nat deg, .nat out, .nat hold, .nat power, .nat hyst, .nat step] =>
      some (.nodeConfig tag node miss deg out hold power hyst step)
  | 0x19, [.nat node] => some (.nodeRead tag node)
  | 0x1A, [.nat low, .nat high] => some (.sourceRead tag low high)
  | 0x20, [.nat account, .nat address, .nat port, .nat tiers, .nat state] =>
      some (.accountOpen tag account address port (BitVec.ofNat 16 tiers) state)
  | 0x21, [.nat account, .nat tiers] => some (.accountTiers tag account (BitVec.ofNat 16 tiers))
  | 0x22, [.nat account] => some (.accountHold tag account)
  | 0x23, [.nat account] => some (.accountResume tag account)
  | 0x24, [.nat account] => some (.accountCut tag account)
  | 0x25, [.nat account] => some (.accountRestore tag account)
  | 0x26, [.nat account] => some (.accountClose tag account)
  | 0x27, [.nat account] => some (.accountRead tag account)
  | 0x28, [.nat low, .nat high] => some (.cycleClose tag low high)
  | 0x30, [.nat event, .nat channel, .nat start, .nat duration, .nat window, .nat price, .nat threshold] =>
      some (.eventAdd tag event channel start duration window price threshold)
  | 0x31, [.nat event] => some (.eventCancel tag event)
  | 0x32, [.nat event, .nat start] => some (.eventRead tag event start)
  | 0x33, [] => some (.eventList tag)
  | 0x34, [.nat account, .nat event] => some (.purchaseEnter tag account event)
  | 0x38, [.nat count] => some (.journalRead tag count)
  | 0x39, [.nat sequence] => some (.journalRelease tag sequence)
  | 0x40, [.nat low, .nat high, .nat level, .nat kind] => some (.alarmSet tag low high level kind)
  | 0x41, [.nat index, .nat operation, .nat a, .nat b, .nat hold] =>
      some (.compositeDefine tag index operation a b hold)
  | 0x42, [.nat index] => some (.compositeRelease tag index)
  | 0x43, [.nat slot, .option source] => some (.alarmExpress tag slot source)
  | 0x44, [.nat source] => some (.alarmAck tag source)
  | 0x45, [.nat source] => some (.alarmDefer tag source)
  | 0x46, [.nat low, .nat high] => some (.alarmQuery tag low high)
  | _, _ => none

/-- The four checks of R190 on a queued frame, in their order, and the request it is if it passes them. -/
def decodeRequest (f : Frame) : Except FrameError Instr :=
  if f.tag = 0#8 then .error .malformed
  else
    match requestForms f.kind.toNat with
    | none => .error .unknownKind
    | some forms =>
      match readFields forms f.payload with
      | none => .error .badLength
      | some (values, bad) =>
        if bad then .error .malformed
        else
          match buildRequest f.kind.toNat f.tag values with
          | none => .error .badLength
          | some request => .ok request

/-- The kind, tag and field values of a request; `none` for a command that is no request. -/
def requestParts : Instr → Option (Nat × Byte × List FieldValue)
  | .status tag => some (0x01, tag, [])
  | .restart tag => some (0x02, tag, [])
  | .setTime tag time => some (0x03, tag, [.nat time])
  | .timeTrim tag delta => some (0x04, tag, [.int delta])
  | .lineupPut tag channel slot source kind tier label =>
      some (0x08, tag, [.nat channel, .nat slot, .nat source, .nat kind, .option tier, .text label])
  | .lineupDrop tag channel => some (0x09, tag, [.nat channel])
  | .tierRateSet tag target rate => some (0x0A, tag, [.nat target, .nat rate])
  | .lineupRead tag bank low high => some (0x0B, tag, [.nat bank, .nat low, .nat high])
  | .switchoverSchedule tag time => some (0x0C, tag, [.nat time])
  | .switchoverCancel tag => some (0x0D, tag, [])
  | .tapAdd tag address node model => some (0x10, tag, [.nat address, .nat node, .nat model])
  | .tapRemove tag address => some (0x11, tag, [.nat address])
  | .transponderSet tag node address => some (0x12, tag, [.nat node, .option address])
  | .tapRead tag address => some (0x13, tag, [.nat address])
  | .pollOrder tag order => some (0x14, tag, [.nat order])
  | .pollStart tag => some (0x15, tag, [])
  | .pollSuspend tag => some (0x16, tag, [])
  | .pollRead tag list start => some (0x17, tag, [.nat list, .nat start])
  | .nodeConfig tag node miss deg out hold power hyst step =>
      some (0x18, tag, [.nat node, .nat miss, .nat deg, .nat out, .nat hold, .nat power, .nat hyst, .nat step])
  | .nodeRead tag node => some (0x19, tag, [.nat node])
  | .sourceRead tag low high => some (0x1A, tag, [.nat low, .nat high])
  | .accountOpen tag account address port tiers state =>
      some (0x20, tag, [.nat account, .nat address, .nat port, .nat tiers.toNat, .nat state])
  | .accountTiers tag account tiers => some (0x21, tag, [.nat account, .nat tiers.toNat])
  | .accountHold tag account => some (0x22, tag, [.nat account])
  | .accountResume tag account => some (0x23, tag, [.nat account])
  | .accountCut tag account => some (0x24, tag, [.nat account])
  | .accountRestore tag account => some (0x25, tag, [.nat account])
  | .accountClose tag account => some (0x26, tag, [.nat account])
  | .accountRead tag account => some (0x27, tag, [.nat account])
  | .cycleClose tag low high => some (0x28, tag, [.nat low, .nat high])
  | .eventAdd tag event channel start duration window price threshold =>
      some (0x30, tag, [.nat event, .nat channel, .nat start, .nat duration, .nat window, .nat price, .nat threshold])
  | .eventCancel tag event => some (0x31, tag, [.nat event])
  | .eventRead tag event start => some (0x32, tag, [.nat event, .nat start])
  | .eventList tag => some (0x33, tag, [])
  | .purchaseEnter tag account event => some (0x34, tag, [.nat account, .nat event])
  | .journalRead tag count => some (0x38, tag, [.nat count])
  | .journalRelease tag sequence => some (0x39, tag, [.nat sequence])
  | .alarmSet tag low high level kind => some (0x40, tag, [.nat low, .nat high, .nat level, .nat kind])
  | .compositeDefine tag index operation a b hold =>
      some (0x41, tag, [.nat index, .nat operation, .nat a, .nat b, .nat hold])
  | .compositeRelease tag index => some (0x42, tag, [.nat index])
  | .alarmExpress tag slot source => some (0x43, tag, [.nat slot, .option source])
  | .alarmAck tag source => some (0x44, tag, [.nat source])
  | .alarmDefer tag source => some (0x45, tag, [.nat source])
  | .alarmQuery tag low high => some (0x46, tag, [.nat low, .nat high])
  | .firstPower => none
  | .mainPowerLoss => none
  | .backupBelowRetention => none
  | .mainPowerReturn => none
  | .resetPin => none
  | .restartUp => none
  | .restartEventStep => none
  | .gapRecord => none
  | .secondTick => none
  | .monitorMinuteEnd => none
  | .meterTallyTake => none
  | .eventMinuteEnd => none
  | .switchoverTake => none
  | .sourceLevelChange _ _ => none
  | .sourceDebounceVerdict _ => none
  | .restoreHoldExpiry _ => none
  | .slotOpen => none
  | .replyWindowClose _ _ => none
  | .purchaseDecide => none
  | .frameArrival _ _ => none
  | .receiveGapTimeout => none
  | .outboundFrameDone => none
  | .frameRefused => none
  | .hostLinkByteReceived _ => none

/-- The bytes of one field (R196). -/
def fieldBytes : FieldForm → FieldValue → List Byte
  | .uint size, .nat v => uintBytes size v
  | .sint size, .int v => sintBytes size v
  | .optional _, .option none => [0#8]
  | .optional size, .option (some v) => 1#8 :: uintBytes size v
  | .label, .text bs => BitVec.ofNat 8 bs.length :: bs
  | _, _ => []

/-- The bytes of a payload, field by field (R196). -/
def payloadBytes : List FieldForm → List FieldValue → List Byte
  | form :: forms, v :: vs => fieldBytes form v ++ payloadBytes forms vs
  | _, _ => []

/-- The frame in which the host sends a request. A command that is no request has the frame of tag 0, which
no request executes from (R190, check 1). -/
def requestFrame (c : Instr) : Frame :=
  match requestParts c with
  | none => ⟨0#8, 0#8, []⟩
  | some (kind, tag, values) =>
    ⟨BitVec.ofNat 8 kind, tag, payloadBytes ((requestForms kind).getD []) values⟩

/-- The command that a word spells by the opcode table's bits. The table of this hardware gives no row any bits
(its commands are steps and framed messages), so no word spells a command. -/
def decodeTableWord (_nbits _w : Nat) : Option Instr := none

end Sys2Proof
end

