-- ==== Sys2Proof/Machine/State.lean ====
section
/-! DEFINITION. The state of the GH410, block by block, as plain data, and its value after a cold reset. -/

namespace Sys2Proof.Machine

/-! ### The part as a whole -/

/-- Whether the part runs (R10, R193). `comingUp`: a retained reset has been taken and working state has not come
up again. `mainLost`: main power is absent. -/
inductive Phase where
  | running
  | mainLost
  | comingUp
  deriving DecidableEq, Repr

/-- The reset kinds of R193. -/
inductive ResetKind where
  | cold
  | pin
  | power
  | restart
  deriving DecidableEq, Repr

/-! ### Service Clock (section 1.1) -/

inductive ClockState where
  | unset
  | set
  deriving DecidableEq, Repr

/-- The five fields of the Service Clock. -/
structure Clock where
  state : ClockState
  time : Nat
  lastBoundary : Option Nat
  resetTime : Option Nat
  restartTime : Option Nat
  deriving DecidableEq, Repr

/-! ### Line-Up Store (Tables 2-1 and 2-2) -/

inductive ChannelKind where
  | tiered
  | ppv
  deriving DecidableEq, Repr

structure LineupEntry where
  channel : Nat
  slot : Nat
  source : Nat
  kind : ChannelKind
  tier : Option Nat
  label : List Byte
  deriving DecidableEq, Repr

/-- A tier table with its hold rate: what billing reads of a bank. -/
structure Tariff where
  tiers : Vector Nat 16
  holdRate : Nat
  deriving DecidableEq, Repr

/-- A bank; its entries stand in ascending order of channel (R13). -/
structure Bank where
  version : Nat
  entries : List LineupEntry
  tariff : Tariff
  deriving DecidableEq, Repr

structure PreviousTariff where
  tariff : Tariff
  endTime : Nat
  deriving DecidableEq, Repr

/-- The Line-Up Store. `effective` is the effective time of ACTIVE. -/
structure Lineup where
  active : Bank
  staged : Bank
  effective : Nat
  scheduled : Option Nat
  previous : Option PreviousTariff
  sourcesInUse : List Nat
  deriving DecidableEq, Repr

/-! ### Plant packets and messages (R38 to R43) -/

structure Grant where
  event : Nat
  slot : Nat
  deriving DecidableEq, Repr

structure PortSetting where
  on : Bool
  tiers : TierSet
  grants : List Grant
  deriving DecidableEq, Repr

/-- A tap setting: the settings of ports 1 to 4, in that order. -/
abbrev TapSetting := Vector PortSetting 4

/-- STATUS, tap form (Table 3-4). -/
structure TapStatus where
  address : Nat
  ports : TapSetting
  version : Nat
  serial : Nat
  level : Int
  deriving DecidableEq, Repr

/-- A transponder's reading: supply voltage in 0.1 V and forward level in 0.1 dBmV. -/
structure Reading where
  voltage : Nat
  level : Int
  deriving DecidableEq, Repr

structure PlantPurchase where
  address : Nat
  port : Nat
  event : Nat
  counter : Nat
  deriving DecidableEq, Repr

/-- The upstream messages of Table 3-4. -/
inductive UpMessage where
  | tapStatus (status : TapStatus)
  | transponderStatus (address : Nat) (reading : Reading)
  | ack (address serial : Nat) (ports : TapSetting)
  | purchase (purchase : PlantPurchase)
  deriving DecidableEq, Repr

/-- The refusal reasons of an ANSWER (R41). -/
inductive AnswerReason where
  | notActive
  | closed
  | notCapable
  | limit
  deriving DecidableEq, Repr

/-- The verdict of an ANSWER; the reason is present exactly when it is REFUSED (R41). -/
inductive Verdict where
  | accepted
  | refused (reason : AnswerReason)
  | deferred
  deriving DecidableEq, Repr

structure Answer where
  address : Nat
  port : Nat
  event : Nat
  verdict : Verdict
  deriving DecidableEq, Repr

/-- A carousel slice (R28). -/
inductive Slice where
  | header (version count effective : Nat)
  | entries (version number : Nat) (entries : List LineupEntry)
  deriving DecidableEq, Repr

/-- The five downstream packets (section 3.4). -/
inductive Packet where
  | poll (address : Nat)
  | tapSet (address serial : Nat) (setting : TapSetting)
  | slice (slice : Slice)
  | answer (answer : Answer)
  | idle (contentionOpen : Bool)
  deriving DecidableEq, Repr

/-! ### Control Carrier (Table 3-2) -/

inductive WindowOwner where
  | pollScheduler
  | switchingEngine
  | eventTable
  deriving DecidableEq, Repr

inductive UpKind where
  | tapStatus
  | transponderStatus
  | ack
  | purchase
  deriving DecidableEq, Repr

structure Expectation where
  owner : WindowOwner
  address : Option Nat
  kind : UpKind
  deriving DecidableEq, Repr

/-- The Control Carrier. `slotIndex` is `none` until the first slot after a reset opens; `modulator` holds the
packet handed to the modulator interface for the slot now open, as its bytes (Table 12-9). -/
structure Carrier where
  slotIndex : Option Nat
  frameTapSets : Nat
  cursor : Nat
  answers : List Answer
  reserved : Nat
  expectation : Option Expectation
  modulator : List Byte
  deriving DecidableEq, Repr

/-! ### Tap Directory, Switching Engine and Poll Scheduler (Tables 4-1 to 4-3 and 6-2) -/

inductive TapModel where
  | onoff
  | tiered
  | event
  deriving DecidableEq, Repr

inductive UnitState where
  | unknown
  | online
  | missing
  | silent
  | removing
  deriving DecidableEq, Repr

inductive Classification where
  | good
  | garbled
  | none
  deriving DecidableEq, Repr

/-- The switching record of a tap (Table 6-2). Whether the tap is queued is its membership of the command queue. -/
structure SwitchRec where
  desired : TapSetting
  confirmed : Option TapSetting
  serial : Nat
  inFlight : Bool
  sent : Option TapSetting
  attempts : Nat
  fault : Bool
  deriving DecidableEq, Repr

/-- A tap record (Table 4-1), with the tap's switching record, which lives as long as it does (R92). -/
structure TapRec where
  address : Nat
  node : Nat
  model : TapModel
  ports : Vector (Option Nat) 4
  state : UnitState
  miss : Nat
  last : Option Classification
  current : Option TapStatus
  previous : Option TapStatus
  version : Option Nat
  stale : Bool
  switching : SwitchRec
  deriving DecidableEq, Repr

/-- A transponder record (Table 4-2); record n stands at index n - 1. -/
structure TransponderRec where
  address : Option Nat
  state : UnitState
  miss : Nat
  last : Option Classification
  current : Option Reading
  previous : Option Reading
  deriving DecidableEq, Repr

inductive UnitKind where
  | tap
  | transponder
  deriving DecidableEq, Repr

/-- An entry of a pass list (section 4.3). -/
structure PassEntry where
  kind : UnitKind
  address : Nat
  node : Nat
  deriving DecidableEq, Repr

inductive SchedulerState where
  | stopped
  | running
  | suspending
  deriving DecidableEq, Repr

inductive PollOrder where
  | linear
  | spread
  deriving DecidableEq, Repr

structure PollInFlight where
  entry : PassEntry
  probe : Bool
  deriving DecidableEq, Repr

/-- The Poll Scheduler (Table 4-3); node n's probe mark stands at index n - 1. -/
structure Scheduler where
  next : List PassEntry
  current : List PassEntry
  state : SchedulerState
  orderSelected : PollOrder
  orderInForce : PollOrder
  cursor : Nat
  passCount : Nat
  probeMarks : Vector Bool 32
  inFlight : Option PollInFlight
  deriving DecidableEq, Repr

/-! ### Account Store (Tables 5-1 and 5-2) -/

inductive AccountState where
  | active
  | hold
  | cut
  deriving DecidableEq, Repr

inductive Origin where
  | plant
  | host
  deriving DecidableEq, Repr

structure OpenPurchase where
  event : Nat
  price : Nat
  time : Nat
  origin : Origin
  counter : Option Nat
  deriving DecidableEq, Repr

/-- The latched billed state with its rate sum, which is present for ACTIVE and HOLD (Table 5-1). -/
inductive Latch where
  | none
  | active (rate : Nat)
  | hold (rate : Nat)
  | cut
  deriving DecidableEq, Repr

/-- An account record. -/
structure Account where
  number : Nat
  address : Nat
  port : Nat
  state : AccountState
  tiers : TierSet
  purchases : List OpenPurchase
  balance : Int
  residue : Nat
  credited : Nat
  overflow : Bool
  latch : Latch
  deriving DecidableEq, Repr

/-! ### Outage Monitor (Tables 7-1 and 7-2, R117) -/

inductive NodeState where
  | unknown
  | normal
  | degraded
  | outage
  | restoring
  deriving DecidableEq, Repr

/-- The seven thresholds of a node, kept through a retained reset. -/
structure Thresholds where
  missLimit : Nat
  degradedPercent : Nat
  outagePercent : Nat
  restoreHold : Nat
  powerThreshold : Nat
  powerHysteresis : Nat
  levelStep : Nat
  deriving DecidableEq, Repr

/-- A node record; node n stands at index n - 1. NODE_OUTAGE and NODE_DEGRADED are read from `state` (R115).
In RESTORING an absent timer means that the hold has run out and its expiry is still to be taken. -/
structure NodeRec where
  state : NodeState
  thresholds : Thresholds
  restoreTimer : Option Nat
  tally : Nat
  current : Option Reading
  previous : Option Reading
  power : Bool
  levelStep : Bool
  deriving DecidableEq, Repr

inductive Debounced where
  | unknown
  | present
  | lost
  deriving DecidableEq, Repr

/-- A source input; input s stands at index s - 1. `verdictDue` is the model's own: the level whose third whole
second has been counted and whose verdict is still to be taken (log entry 4). -/
structure InputRec where
  high : Bool
  debounced : Debounced
  steady : Nat
  partialMark : Bool
  lost : Bool
  verdictDue : Option Bool
  deriving DecidableEq, Repr

/-- The minute sample (R117): the nodes in OUTAGE and the inputs LOST, each in ascending order. -/
structure MinuteSample where
  minute : Option Nat
  nodes : List Nat
  inputs : List Nat
  deriving DecidableEq, Repr

/-! ### Meter (R128) -/

structure BoundaryTariff where
  start : Nat
  tariff : Tariff
  deriving DecidableEq, Repr

structure Meter where
  balanceOverflow : Bool
  boundaryTariff : Option BoundaryTariff
  deriving DecidableEq, Repr

/-! ### Event Table (Table 9-1) -/

inductive EventState where
  | onSale
  | runningOpen
  | runningClosed
  deriving DecidableEq, Repr

/-- An event record; node n's outage counter stands at index n - 1. -/
structure EventRec where
  id : Nat
  channel : Nat
  start : Nat
  duration : Nat
  window : Nat
  price : Nat
  threshold : Nat
  state : EventState
  counters : Vector Nat 32
  holders : List Nat
  deriving DecidableEq, Repr

/-! ### Billing Journal (Tables 10-1 and 10-2) -/

inductive RefundCause where
  | settled
  | cancelled
  deriving DecidableEq, Repr

/-- The fields of a record's kind (Table 10-2). -/
inductive RecordBody where
  | purchase (account event price : Nat) (origin : Origin)
  | refund (account event amount : Nat) (cause : RefundCause)
  | cycleClose (account : Nat) (balance : Int) (credited : Nat) (overflow : Bool)
  | overflow (account : Nat)
  | gap (resetTime restartTime : Nat)
  | switchover (version : Nat)
  deriving DecidableEq, Repr

structure JournalRec where
  sequence : Nat
  time : Nat
  body : RecordBody
  deriving DecidableEq, Repr

structure Journal where
  records : List JournalRec
  reserved : Nat
  nextSequence : Nat
  high : Bool
  deriving DecidableEq, Repr

/-! ### Alarm Controller (Table 11-2, R175 to R180) -/

inductive AlarmKind where
  | latching
  | following
  deriving DecidableEq, Repr

inductive AlarmState where
  | idle
  | pending
  | opened
  | deferred
  | latched
  deriving DecidableEq, Repr

structure AlarmRec where
  level : Nat
  kind : AlarmKind
  condition : Bool
  state : AlarmState
  reported : Option Nat
  transient : Bool
  clearOwed : Bool
  deriving DecidableEq, Repr

inductive CompositeOp where
  | and
  | or
  | xor
  | andNot
  deriving DecidableEq, Repr

structure CompositeDef where
  op : CompositeOp
  a : Nat
  b : Nat
  hold : Bool
  deriving DecidableEq, Repr

/-- The reports of the Alarm Controller (R180). -/
inductive AlarmReport where
  | raised (source level : Nat) (condition transient express : Bool) (time : Nat)
  | cleared (source time : Nat)
  deriving DecidableEq, Repr

/-- The Alarm Controller; source i stands at index i. -/
structure Alarms where
  sources : Vector AlarmRec 234
  express : Vector (Option Nat) 2
  composites : Vector (Option CompositeDef) 8
  latches : Vector Bool 8
  queue : List AlarmReport
  deriving DecidableEq, Repr

/-! ### Host Link (Table 12-1) -/

/-- The statuses of Table 12-5, in the order of their codes. -/
inductive Status where
  | ok
  | busy
  | malformed
  | unknownKind
  | badLength
  | outOfRange
  | notFound
  | existing
  | wrongState
  | notCapable
  | journalFull
  | tableFull
  | conflict
  | scheduled
  | timeUnset
  deriving DecidableEq, Repr

/-- One integer of a reply's payload with its size in bytes (R196). Enumerations, flags, presence bytes and count
bytes are integers of one byte. -/
inductive Field where
  | uint (size value : Nat)
  | sint (size : Nat) (value : Int)
  deriving DecidableEq, Repr

/-- A reply: its status, then the reply fields or the refusal detail. -/
structure Reply where
  status : Status
  fields : List Field
  deriving DecidableEq, Repr

/-- A reply formed for a frame: the reply kind and the frame's tag. -/
structure TaggedReply where
  kind : Byte
  tag : Byte
  reply : Reply
  deriving DecidableEq, Repr

/-- The RESTARTED report (R195). -/
structure RestartNotice where
  kind : ResetKind
  clockState : ClockState
  resetTime : Option Nat
  restartTime : Option Nat
  deriving DecidableEq, Repr

/-- What the outbound line can carry (R191). -/
inductive OutFrame where
  | reply (reply : TaggedReply)
  | restarted (notice : RestartNotice)
  | alarm (report : AlarmReport)
  deriving DecidableEq, Repr

/-- The frame on the line, with the bytes transmitted for it (Table 12-6). -/
structure LineFrame where
  frame : OutFrame
  bytes : List Byte
  deriving DecidableEq, Repr

/-- The receiver: RECEIVING holds the bytes that followed the start byte. -/
inductive Receiver where
  | hunting
  | receiving (bytes : List Byte)
  deriving DecidableEq, Repr

/-- The Host Link. `busyAhead` is the model's own: how many replies of the BUSY list were formed before the
waiting reply (R191 sends the reply formed earliest). -/
structure Link where
  receiver : Receiver
  linkError : Bool
  inbound : List Frame
  waiting : Option TaggedReply
  busy : List TaggedReply
  busyAhead : Nat
  notice : Option RestartNotice
  line : Option LineFrame
  restartOwed : Bool
  deriving DecidableEq, Repr

/-! ### Deliveries between blocks -/

/-- A minute end and whether it carries the interval-end mark (section 1.3). -/
structure MinuteEnd where
  time : Nat
  marked : Bool
  deriving DecidableEq, Repr

/-- A tally message (R119). -/
structure TallyMessage where
  node : Nat
  start : Nat
  tally : Nat
  deriving DecidableEq, Repr

/-- What one block has handed another that the other takes as a step of its own: minute ends (R5), interval
boundaries (R7), tally messages (R119), purchases (R46), and the two steps owed at a restart (R142, R160).
Each list is oldest first (log entry 3). -/
structure Deliveries where
  monitorEnds : List MinuteEnd
  eventEnds : List MinuteEnd
  boundaries : List Nat
  tallies : List TallyMessage
  purchases : List PlantPurchase
  restartStep : Bool
  gapRecord : Bool
  deriving DecidableEq, Repr

/-! ### The whole state -/

/-- The state of the part. `backupLow` is the backup supply monitor's reading: the backup voltage has fallen below
retention level (R2; log entry 24). `freeCount` numbers the uses of free values (log entries 5 and 6), and `pending`
is the queue of commands that wait, oldest first. -/
structure State where
  phase : Phase
  storeValid : Bool
  backupLow : Bool
  lastReset : ResetKind
  clock : Clock
  lineup : Lineup
  carrier : Carrier
  taps : List TapRec
  transponders : Vector TransponderRec 32
  sched : Scheduler
  accounts : List Account
  commandQueue : List Nat
  nodes : Vector NodeRec 32
  inputs : Vector InputRec 64
  sample : MinuteSample
  meter : Meter
  events : List EventRec
  journal : Journal
  alarms : Alarms
  link : Link
  due : Deliveries
  freeCount : Nat
  pending : List Instr
  deriving DecidableEq, Repr

/-- Why a step can stop with a fault. Both are raised only for an ill-formed command (`Instr.wf` refuses it), and
both are safe: the part has no such unit, so no such command can come. -/
inductive Fault where
  /-- Raised by `execSourceLevelChange` and `execSourceDebounceVerdict`: the input lies outside 1..64. Safe. -/
  | noSuchInput
  /-- Raised by `execRestoreHoldExpiry`: the node lies outside 1..32. Safe. -/
  | noSuchNode
  deriving DecidableEq, Repr

/-- Why a step can be refused. -/
inductive Refusal where
  /-- A command without a meaning in this model. No arm raises it: every command has its meaning. Safe. -/
  | notModelled (mnemonic : String)
  deriving DecidableEq, Repr

/-! ### Reset values -/

/-- R9. -/
def coldClock : Clock :=
  { state := .unset, time := 0, lastBoundary := none, resetTime := none, restartTime := none }

def coldTariff : Tariff := { tiers := Vector.replicate 16 0, holdRate := 0 }

def coldBank : Bank := { version := 0, entries := [], tariff := coldTariff }

/-- R31. -/
def coldLineup : Lineup :=
  { active := coldBank, staged := coldBank, effective := 0, scheduled := none, previous := none, sourcesInUse := [] }

/-- R48: the same after either kind of reset. -/
def resetCarrier : Carrier :=
  { slotIndex := none, frameTapSets := 0, cursor := 0, answers := [], reserved := 0, expectation := none,
    modulator := [] }

/-- A transponder record whose address is absent (R51). -/
def absentTransponder : TransponderRec :=
  { address := none, state := .unknown, miss := 0, last := none, current := none, previous := none }

/-- R69. -/
def coldScheduler : Scheduler :=
  { next := [], current := [], state := .stopped, orderSelected := .linear, orderInForce := .linear, cursor := 0,
    passCount := 0, probeMarks := Vector.replicate 32 false, inFlight := none }

/-- The default thresholds of Table 7-1. -/
def defaultThresholds : Thresholds :=
  { missLimit := 3, degradedPercent := 25, outagePercent := 60, restoreHold := 120, powerThreshold := 500,
    powerHysteresis := 10, levelStep := 30 }

/-- A node's record after a reset, with the thresholds given (R126, R127). -/
def resetNode (t : Thresholds) : NodeRec :=
  { state := .unknown, thresholds := t, restoreTimer := none, tally := 0, current := none, previous := none,
    power := false, levelStep := false }

/-- An input's record after a reset, at the level its pin has (R126, R127). -/
def resetInput (high : Bool) : InputRec :=
  { high := high, debounced := .unknown, steady := 0, partialMark := true, lost := false, verdictDue := none }

/-- The minute sample after a reset belongs to no minute (R126, R127). -/
def resetSample : MinuteSample := { minute := none, nodes := [], inputs := [] }

/-- R140. -/
def coldMeter : Meter := { balanceOverflow := false, boundaryTariff := none }

/-- R171. -/
def coldJournal : Journal := { records := [], reserved := 0, nextSequence := 1, high := false }

/-- R186. -/
def coldAlarm : AlarmRec :=
  { level := 0, kind := .following, condition := false, state := .idle, reported := none, transient := false,
    clearOwed := false }

/-- R186. -/
def coldAlarms : Alarms :=
  { sources := Vector.replicate 234 coldAlarm, express := Vector.replicate 2 none,
    composites := Vector.replicate 8 none, latches := Vector.replicate 8 false, queue := [] }

/-- R195, with the RESTARTED report the reset queues. -/
def resetLink (notice : RestartNotice) : Link :=
  { receiver := .hunting, linkError := false, inbound := [], waiting := none, busy := [], busyAhead := 0,
    notice := some notice, line := none, restartOwed := false }

/-- Nothing handed and not yet taken. -/
def noDeliveries : Deliveries :=
  { monitorEnds := [], eventEnds := [], boundaries := [], tallies := [], purchases := [], restartStep := false,
    gapRecord := false }

/-- The part right after a cold reset (R9, R31, R48, R69, R86, R105, R126, R140, R159, R171, R186, R195), running,
with every source-presence input low (log entry 2) and the
backup voltage not below retention level (log entry 24). -/
def State.reset : State :=
  { phase := .running, storeValid := true, backupLow := false, lastReset := .cold, clock := coldClock,
    lineup := coldLineup, carrier := resetCarrier, taps := [], transponders := Vector.replicate 32 absentTransponder,
    sched := coldScheduler, accounts := [], commandQueue := [],
    nodes := Vector.replicate 32 (resetNode defaultThresholds), inputs := Vector.replicate 64 (resetInput false),
    sample := resetSample, meter := coldMeter, events := [], journal := coldJournal, alarms := coldAlarms,
    link := resetLink { kind := .cold, clockState := .unset, resetTime := none, restartTime := none },
    due := noDeliveries, freeCount := 0, pending := [] }

end Sys2Proof.Machine
end

