-- ==== Sys2Proof/Machine/Ops.lean ====
section
/-! DEFINITION. Named operations over the parts of the state: fixed tables, keyed records, and the Host Link's way
of taking a request (R189, R190). -/

namespace Sys2Proof.Machine

/-! ### Constants of the part -/

/-- The last second of the clock (R1). -/
def maxTime : Nat := 4294967295

/-- The last minute boundary (R1). -/
def lastMinute : Nat := 4294967280

/-- The broadcast address; also one above the highest tap address (Table 6). -/
def broadcastAddress : Nat := 16777215

/-- A tap or transponder address, 1..16,777,214. -/
def addressInRange (a : Nat) : Bool := 1 ≤ a && a < broadcastAddress

/-- An account number, 1..99,999,999. -/
def accountInRange (a : Nat) : Bool := 1 ≤ a && a ≤ 99999999

/-- A value within low..high. -/
def within (low high v : Nat) : Bool := low ≤ v && v ≤ high

/-- `v` clamped into low..high (5.6). -/
def clampNat (low high v : Nat) : Nat := max low (min high v)

/-- The minute boundary at or below t (R3). -/
def minuteBelow (t : Nat) : Nat := t / 60 * 60

/-- The start of the interval that contains t (section 1.1). -/
def intervalStart (t : Nat) : Nat := t / 900 * 900

/-- Member t of a tier set. -/
def hasTier (set : TierSet) (t : Nat) : Bool := set.getLsbD t

/-! ### Tables of fixed length -/

/-- The entry of a table at an index; `d` beyond its end. -/
def vecGet {α : Type} {n : Nat} (v : Vector α n) (i : Nat) (d : α) : α := v.toList.getD i d

/-- A table with the entry at an index changed by `f`; unchanged beyond its end. -/
def vecModify {α : Type} {n : Nat} (v : Vector α n) (i : Nat) (f : α → α) : Vector α n :=
  ⟨⟨v.toList.modify i f⟩, by simp⟩

/-- A table with every entry changed by `f`. -/
def vecMap {α β : Type} {n : Nat} (f : α → β) (v : Vector α n) : Vector β n :=
  ⟨⟨v.toList.map f⟩, by simp⟩

/-- A table with every entry changed by `f`, which is given the entry's index. -/
def vecMapIdx {α β : Type} {n : Nat} (f : Nat → α → β) (v : Vector α n) : Vector β n :=
  ⟨⟨v.toList.zipIdx.map fun x => f x.2 x.1⟩, by simp⟩

/-- The numbers 1..n, ascending. -/
def upTo (n : Nat) : List Nat := (List.range n).map (· + 1)

/-! ### Keyed records -/

/-- The tap record with address `a`. -/
def findTap (a : Nat) (taps : List TapRec) : Option TapRec := taps.find? (·.address = a)

/-- The tap records with the one of address `a` changed by `f`. -/
def modifyTap (a : Nat) (f : TapRec → TapRec) (taps : List TapRec) : List TapRec :=
  taps.map fun t => if t.address = a then f t else t

/-- A tap record put at its place in ascending order of address. -/
def insertTap (t : TapRec) : List TapRec → List TapRec
  | [] => [t]
  | u :: us => if t.address < u.address then t :: u :: us else u :: insertTap t us

/-- The account record with number `k` (R71). -/
def findAccount (k : Nat) (accounts : List Account) : Option Account := accounts.find? (·.number = k)

/-- The account records with the one of number `k` changed by `f`. -/
def modifyAccount (k : Nat) (f : Account → Account) (accounts : List Account) : List Account :=
  accounts.map fun a => if a.number = k then f a else a

/-- An account record put at its place in ascending order of number (R71). -/
def insertAccount (a : Account) : List Account → List Account
  | [] => [a]
  | b :: bs => if a.number < b.number then a :: b :: bs else b :: insertAccount a bs

/-- The event record with id `e`. -/
def findEvent (e : Nat) (events : List EventRec) : Option EventRec := events.find? (·.id = e)

/-- The event records with the one of id `e` changed by `f`. -/
def modifyEvent (e : Nat) (f : EventRec → EventRec) (events : List EventRec) : List EventRec :=
  events.map fun r => if r.id = e then f r else r

/-- An event record put at its place in ascending order of id (R147). -/
def insertEvent (r : EventRec) : List EventRec → List EventRec
  | [] => [r]
  | q :: qs => if r.id < q.id then r :: q :: qs else q :: insertEvent r qs

/-- The node record of node `n` (1..32). -/
def nodeOf (s : State) (n : Nat) : NodeRec := vecGet s.nodes (n - 1) (resetNode defaultThresholds)

/-- The state with node n's record changed by `f`. -/
def modifyNode (n : Nat) (f : NodeRec → NodeRec) (s : State) : State :=
  { s with nodes := vecModify s.nodes (n - 1) f }

/-- The record of source input `i` (1..64). -/
def inputOf (s : State) (i : Nat) : InputRec := vecGet s.inputs (i - 1) (resetInput false)

/-- The state with input i's record changed by `f`. -/
def modifyInput (i : Nat) (f : InputRec → InputRec) (s : State) : State :=
  { s with inputs := vecModify s.inputs (i - 1) f }

/-- The transponder record of node `n` (1..32). -/
def transponderOf (s : State) (n : Nat) : TransponderRec := vecGet s.transponders (n - 1) absentTransponder

/-- The state with node n's transponder record changed by `f`. -/
def modifyTransponder (n : Nat) (f : TransponderRec → TransponderRec) (s : State) : State :=
  { s with transponders := vecModify s.transponders (n - 1) f }

/-- The node whose transponder record holds address `a`. -/
def transponderNode (a : Nat) (s : State) : Option Nat :=
  (upTo 32).find? fun n => (transponderOf s n).address = some a

/-- The node of an account: the node of its tap record (R72). -/
def accountNode (s : State) (a : Account) : Option Nat := (findTap a.address s.taps).map (·.node)

/-- The account bound to port `p` of the tap with address `a`, if any (R85). -/
def boundAccount (s : State) (a p : Nat) : Option Nat :=
  match findTap a s.taps with
  | none => none
  | some t => if within 1 4 p then vecGet t.ports (p - 1) none else none

/-! ### Steps -/

/-- Outside a running part (R10) a step of its blocks does not come about: the state stands (log entry 8). -/
def whenRunning (f : State → State) (s : State) : State := if s.phase = .running then f s else s

/-- A reply of OK with its fields. -/
def replyOk (fields : List Field) : Reply := { status := .ok, fields := fields }

/-- A refusal without a detail. -/
def refusal (status : Status) : Reply := { status := status, fields := [] }

/-- The reply kind of a frame's kind: its most significant bit inverted (R196). -/
def replyKind (kind : Byte) : Byte := kind ^^^ 0x80#8

/-- R189: a frame that passed its check joins the inbound queue, is answered BUSY, or is discarded. -/
def arrive (f : Frame) (s : State) : State :=
  { s with link :=
      if s.link.inbound.length < 4 then { s.link with inbound := s.link.inbound ++ [f] }
      else if s.link.busy.length < 4 then
        { s.link with busy := s.link.busy ++ [{ kind := replyKind f.kind, tag := f.tag, reply := refusal .busy }] }
      else { s.link with linkError := true } }

/-- The Host Link may execute: the part runs, no reply is waiting and restart is not owed (R190). -/
def mayExecute (s : State) : Bool :=
  s.phase = .running && s.link.waiting.isNone && !s.link.restartOwed

/-- R190: the state in which the request with frame `f` is executed, if it comes to execution now. It does when the
Host Link may execute and `f` is the oldest frame of the inbound queue, which it leaves, or comes while that queue
is empty. A frame with tag 0 never comes to execution. -/
def claimRequest (f : Frame) (s : State) : Option State :=
  if mayExecute s && f.tag != 0#8 then
    match s.link.inbound with
    | [] => some s
    | g :: rest => if g = f then some { s with link := { s.link with inbound := rest } } else none
  else none

/-- R190: the reply to frame `f` becomes the waiting reply. -/
def answerFrame (f : Frame) (reply : Reply) (s : State) : State :=
  { s with link :=
      { s.link with
        waiting := some { kind := replyKind f.kind, tag := f.tag, reply := reply },
        busyAhead := s.link.busy.length } }

/-- A request row: executed by its owner's rule when it comes to execution (R190), and otherwise an arrival (R189).
`owner` is the owner's step: the state after it and the reply it forms (log entry 9). -/
def serve (request : Instr) (owner : State → State × Reply) (s : State) : State :=
  match claimRequest (requestFrame request) s with
  | some u => answerFrame (requestFrame request) (owner u).2 (owner u).1
  | none => whenRunning (arrive (requestFrame request)) s

end Sys2Proof.Machine
end

