-- ==== Sys2Proof/Machine/Flags.lean ====
section
/-! DEFINITION. The conditions of the part and how the Alarm Controller takes a change of one: the source state
machine, the composites and the report queue (R173, R176, R179 to R182). -/

namespace Sys2Proof.Machine

/-! ### Alarm source numbers (Table 11-1) -/

def nodeOutageSource (n : Nat) : Nat := n - 1
def nodeDegradedSource (n : Nat) : Nat := 31 + n
def nodePowerSource (n : Nat) : Nat := 63 + n
def nodeLevelStepSource (n : Nat) : Nat := 95 + n
def switchFaultSource (n : Nat) : Nat := 127 + n
def sourceLostSource (i : Nat) : Nat := 159 + i
def journalHighSource : Nat := 224
def balanceOverflowSource : Nat := 225
def compositeSource (k : Nat) : Nat := 226 + k

/-- The record of alarm source `i`. -/
def alarmOf (a : Alarms) (i : Nat) : AlarmRec := vecGet a.sources i coldAlarm

/-- The alarms with source i's record changed by `f`. -/
def modifyAlarm (i : Nat) (f : AlarmRec → AlarmRec) (a : Alarms) : Alarms :=
  { a with sources := vecModify a.sources i f }

/-- The service level: the highest reported level among OPEN sources, or 0 (R179). -/
def serviceLevel (a : Alarms) : Nat :=
  a.sources.toList.foldl
    (fun m r => if r.state = .opened then max m (r.reported.getD 0) else m) 0

/-- Whether source `i` stands in an express slot. -/
def inExpress (a : Alarms) (i : Nat) : Bool := a.express.toList.contains (some i)

/-- Whether a source is eligible for a raise at a service level (R179). -/
def eligible (a : Alarms) (level : Nat) (i : Nat) : Bool :=
  let r := alarmOf a i
  r.state = .pending && !r.clearOwed && (level < r.level || inExpress a i)

/-- The source in express slot `k`, if it is eligible (R180, cases 1 and 2). -/
def expressChoice (a : Alarms) (level k : Nat) : Option Nat :=
  match vecGet a.express k none with
  | some i => if eligible a level i then some i else none
  | none => none

/-- The sources whose records satisfy `p`, in ascending order. -/
def sourcesWith (a : Alarms) (p : AlarmRec → Bool) : List Nat :=
  (a.sources.toList.zipIdx.filter fun x => p x.1).map (·.2)

/-- The eligible source of the highest level and, among those, of the lowest number (R180, case 3). -/
def raiseChoice (a : Alarms) (level : Nat) : Option Nat :=
  let waiting := (sourcesWith a fun r => r.state = .pending).filter (eligible a level)
  [3, 2, 1].findSome? fun l => waiting.find? fun i => (alarmOf a i).level = l

/-- The source whose raise is taken next (R180, cases 1 to 3). -/
def nextRaise (a : Alarms) : Option Nat :=
  let level := serviceLevel a
  (expressChoice a level 0).or ((expressChoice a level 1).or (raiseChoice a level))

/-- The raise of source `i` joins the report queue and the source becomes OPEN (R180). -/
def takeRaise (now i : Nat) (a : Alarms) : Alarms :=
  let r := alarmOf a i
  { modifyAlarm i (fun r => { r with state := .opened, reported := some r.level, transient := false }) a with
    queue := a.queue ++ [.raised i r.level r.condition r.transient (inExpress a i) now] }

/-- The clear owed by source `i` joins the report queue (R180, case 4). -/
def takeClear (now i : Nat) (a : Alarms) : Alarms :=
  { modifyAlarm i (fun r => { r with clearOwed := false }) a with queue := a.queue ++ [.cleared i now] }

/-- One take into the report queue, or `none` when nothing remains to be taken (R180). -/
def takeReport (now : Nat) (a : Alarms) : Option Alarms :=
  match nextRaise a with
  | some i => some (takeRaise now i a)
  | none => (sourcesWith a (·.clearOwed)).head?.map fun i => takeClear now i a

/-- R180: reports are taken one at a time until the queue holds 16 or nothing remains. `fuel` bounds the takes;
16 of them fill any queue. -/
def fillQueue (now : Nat) : Nat → Alarms → Alarms
  | 0, a => a
  | fuel + 1, a =>
    if a.queue.length < 16 then
      match takeReport now a with
      | some b => fillQueue now fuel b
      | none => a
    else a

/-- R180 at the end of a step of the controller. -/
def fill (now : Nat) (a : Alarms) : Alarms := fillQueue now 16 a

/-- A source's record as a change of its condition to `present` leaves it, but for a clear report (R181).
`room`: the report queue has room for one (R182). A FOLLOWING source that leaves PENDING has its transient mark cleared
(log entry 26). -/
def conditionStep (present room : Bool) (r : AlarmRec) : AlarmRec :=
  let r' := { r with condition := present }
  match r.state, present with
  | .idle, true => if r.level = 0 then r' else { r' with state := .pending, transient := false }
  | .idle, false => r'
  | .pending, true => r'
  | .pending, false =>
    match r.kind with
    | .following => { r' with state := .idle, transient := false }
    | .latching => { r' with transient := true }
  | .opened, _ => r'
  | .deferred, _ => r'
  | .latched, true => r'
  | .latched, false => { r' with state := .idle, reported := none, clearOwed := r.clearOwed || !room }

/-- One source takes its condition (R173, R181): the record changes, and a LATCHED source whose condition ends
reports it when the queue has room. -/
def takeCondition (now i : Nat) (present : Bool) (a : Alarms) : Alarms :=
  let r := alarmOf a i
  let room := a.queue.length < 16
  { modifyAlarm i (conditionStep present room) a with
    queue := if r.state = .latched && !present && room then a.queue ++ [.cleared i now] else a.queue }

/-- The computed value of a composite (R176). -/
def compositeValue (a : Alarms) (d : CompositeDef) : Bool :=
  let x := (alarmOf a d.a).condition
  let y := (alarmOf a d.b).condition
  match d.op with
  | .and => x && y
  | .or => x || y
  | .xor => x != y
  | .andNot => x && !y

/-- Composite `k` is recomputed: its latch, and its condition, which its own record takes if it changes (R176).
An empty definition is left alone, its condition being absent (R175). -/
def recomputeComposite (now k : Nat) (a : Alarms) : Alarms :=
  match vecGet a.composites k none with
  | none => a
  | some d =>
    let value := compositeValue a d
    let latch := vecGet a.latches k false || (d.hold && value)
    let present := value || (d.hold && latch)
    let b := { a with latches := vecModify a.latches k fun _ => latch }
    if (alarmOf b (compositeSource k)).condition = present then b
    else takeCondition now (compositeSource k) present b

/-- Whether composite `k` uses one of the sources in `changed` as an operand. -/
def usesChanged (a : Alarms) (changed : List Nat) (k : Nat) : Bool :=
  match vecGet a.composites k none with
  | none => false
  | some d => changed.contains d.a || changed.contains d.b

/-- Carries changed conditions through the composites listed, in order: each one that uses a changed source is
recomputed, and a composite whose condition changes is itself a changed source (R176). A composite both of whose
operands change is recomputed once, after both (log entry 28). -/
def cascade (now : Nat) : List Nat → List Nat → Alarms → Alarms
  | [], _, a => a
  | k :: ks, changed, a =>
    if usesChanged a changed k then
      let b := recomputeComposite now k a
      let moved := (alarmOf a (compositeSource k)).condition != (alarmOf b (compositeSource k)).condition
      cascade now ks (if moved then compositeSource k :: changed else changed) b
    else cascade now ks changed a

/-- Composite `k` is recomputed after its definition or latch changed, and a change of its condition is carried
through the composites above it (R176). -/
def compositeStep (now k : Nat) (a : Alarms) : Alarms :=
  let b := recomputeComposite now k a
  if (alarmOf a (compositeSource k)).condition = (alarmOf b (compositeSource k)).condition then b
  else cascade now (List.range 8) [compositeSource k] b

/-- R173: the controller takes a change of source i's condition, as one step. A value the copy already holds
changes nothing. -/
def alarmsGive (now i : Nat) (present : Bool) (a : Alarms) : Alarms :=
  if (alarmOf a i).condition = present then a
  else fill now (cascade now (List.range 8) [i] (takeCondition now i present a))

/-- An owner gives the Alarm Controller the condition of source `i` as it now stands (R173). -/
def giveCondition (i : Nat) (present : Bool) (s : State) : State :=
  { s with alarms := alarmsGive s.clock.time i present s.alarms }

/-! ### The owners' conditions -/

/-- held, the number of journal records (section 10.1). -/
def journalHeld (j : Journal) : Nat := j.records.length

/-- free = 1024 - held - reserved (section 10.1). -/
def journalFree (j : Journal) : Nat := 1024 - journalHeld j - j.reserved

/-- R170: JOURNAL_HIGH is present while held + reserved is at least 768. -/
def journalHigh (j : Journal) : Bool := 768 ≤ journalHeld j + j.reserved

/-- The journal after a change of held or reserved, with JOURNAL_HIGH judged and given (R170). -/
def putJournal (j : Journal) (s : State) : State :=
  { s with
    journal := { j with high := journalHigh j },
    alarms := alarmsGive s.clock.time journalHighSource (journalHigh j) s.alarms }

/-- Whether any account's overflow flag is set (R85). -/
def anyOverflow (accounts : List Account) : Bool := accounts.any (·.overflow)

/-- R134: BALANCE_OVERFLOW is judged from the flags and given. -/
def judgeOverflow (s : State) : State :=
  { s with
    meter := { s.meter with balanceOverflow := anyOverflow s.accounts },
    alarms := alarmsGive s.clock.time balanceOverflowSource (anyOverflow s.accounts) s.alarms }

/-- R103: SWITCH_FAULT[n] is present while a tap of node n has its fault flag set. -/
def switchFault (s : State) (n : Nat) : Bool := s.taps.any fun t => t.node = n && t.switching.fault

/-- R103: node n's SWITCH_FAULT is given after a change of a fault flag. -/
def judgeSwitchFault (n : Nat) (s : State) : State := giveCondition (switchFaultSource n) (switchFault s n) s

/-- R115. -/
def nodeOutage (r : NodeRec) : Bool := r.state = .outage || r.state = .restoring

/-- R115. -/
def nodeDegraded (r : NodeRec) : Bool := r.state = .degraded

/-- R115: both conditions of node n's state are given, the one that ends before the one that begins. -/
def giveNodeConditions (n : Nat) (s : State) : State :=
  let r := nodeOf s n
  if nodeOutage r then
    giveCondition (nodeOutageSource n) true (giveCondition (nodeDegradedSource n) false s)
  else
    giveCondition (nodeDegradedSource n) (nodeDegraded r) (giveCondition (nodeOutageSource n) false s)

/-- R124: SOURCE_LOST[i] is judged from the input's debounced state and the sources in use, and given. -/
def judgeSourceLost (i : Nat) (s : State) : State :=
  let lost := (inputOf s i).debounced = .lost && s.lineup.sourcesInUse.contains i
  giveCondition (sourceLostSource i) lost (modifyInput i (fun r => { r with lost := lost }) s)

end Sys2Proof.Machine
end

