-- ==== Sys2Proof/Machine/Operands.lean ====
section
/-! DEFINITION. The operand forms of requests and replies: the codes of enumerations, and the fields a reply is made
of, with their sizes (R196). -/

namespace Sys2Proof.Machine

/-! ### Enumerations: from 0, in the order the manual first lists them (R196) -/

def tapModelOf : Nat → Option TapModel
  | 0 => some .onoff
  | 1 => some .tiered
  | 2 => some .event
  | _ => none

def channelKindOf : Nat → Option ChannelKind
  | 0 => some .tiered
  | 1 => some .ppv
  | _ => none

def pollOrderOf : Nat → Option PollOrder
  | 0 => some .linear
  | 1 => some .spread
  | _ => none

def accountStateOf : Nat → Option AccountState
  | 0 => some .active
  | 1 => some .hold
  | 2 => some .cut
  | _ => none

def alarmKindOf : Nat → Option AlarmKind
  | 0 => some .latching
  | 1 => some .following
  | _ => none

def compositeOpOf : Nat → Option CompositeOp
  | 0 => some .and
  | 1 => some .or
  | 2 => some .xor
  | 3 => some .andNot
  | _ => none

/-- A two-valued field the manual lists as "set or clear", "present or absent", "yes or no" or "high or low": its
first value is 0 and its second 1 (R196; log entry 10). -/
def flagCode (b : Bool) : Nat := if b then 0 else 1

/-- The flag that a code names, if any. -/
def flagOf : Nat → Option Bool
  | 0 => some true
  | 1 => some false
  | _ => none

def tapModelCode : TapModel → Nat
  | .onoff => 0
  | .tiered => 1
  | .event => 2

def channelKindCode : ChannelKind → Nat
  | .tiered => 0
  | .ppv => 1

def pollOrderCode : PollOrder → Nat
  | .linear => 0
  | .spread => 1

def accountStateCode : AccountState → Nat
  | .active => 0
  | .hold => 1
  | .cut => 2

def alarmKindCode : AlarmKind → Nat
  | .latching => 0
  | .following => 1

def compositeOpCode : CompositeOp → Nat
  | .and => 0
  | .or => 1
  | .xor => 2
  | .andNot => 3

def resetKindCode : ResetKind → Nat
  | .cold => 0
  | .pin => 1
  | .power => 2
  | .restart => 3

def clockStateCode : ClockState → Nat
  | .unset => 0
  | .set => 1

def unitStateCode : UnitState → Nat
  | .unknown => 0
  | .online => 1
  | .missing => 2
  | .silent => 3
  | .removing => 4

def classificationCode : Classification → Nat
  | .good => 0
  | .garbled => 1
  | .none => 2

def unitKindCode : UnitKind → Nat
  | .tap => 0
  | .transponder => 1

def schedulerStateCode : SchedulerState → Nat
  | .stopped => 0
  | .running => 1
  | .suspending => 2

def originCode : Origin → Nat
  | .plant => 0
  | .host => 1

def causeCode : RefundCause → Nat
  | .settled => 0
  | .cancelled => 1

def latchCode : Latch → Nat
  | .none => 0
  | .active _ => 1
  | .hold _ => 2
  | .cut => 3

def nodeStateCode : NodeState → Nat
  | .unknown => 0
  | .normal => 1
  | .degraded => 2
  | .outage => 3
  | .restoring => 4

/-- The order of R116's table, where the manual first lists the three. -/
def debouncedCode : Debounced → Nat
  | .present => 0
  | .lost => 1
  | .unknown => 2

def eventStateCode : EventState → Nat
  | .onSale => 0
  | .runningOpen => 1
  | .runningClosed => 2

def alarmStateCode : AlarmState → Nat
  | .idle => 0
  | .pending => 1
  | .opened => 2
  | .deferred => 3
  | .latched => 4

/-! ### The fields of a reply (R196) -/

/-- A field of one byte: an enumeration's code, or one of the quantities R196 gives one byte. -/
def byte1 (v : Nat) : List Field := [.uint 1 v]

/-- A count, channel, duration, position or other quantity of two bytes. -/
def byte2 (v : Nat) : List Field := [.uint 2 v]

/-- A tap address. -/
def byte3 (v : Nat) : List Field := [.uint 3 v]

/-- A time, sequence number, account number, rate or price. -/
def byte4 (v : Nat) : List Field := [.uint 4 v]

/-- A level in 0.1 dB. -/
def signed2 (v : Int) : List Field := [.sint 2 v]

/-- A balance or delta. -/
def signed4 (v : Int) : List Field := [.sint 4 v]

/-- A flag, condition or mark. -/
def flag1 (b : Bool) : List Field := byte1 (flagCode b)

/-- A tier set. -/
def tierSet2 (t : TierSet) : List Field := byte2 t.toNat

/-- An optional field: a presence byte, then the value when present. -/
def optionalField {α : Type} (f : α → List Field) : Option α → List Field
  | none => byte1 0
  | some v => byte1 1 ++ f v

/-- A list: a count byte, then its items. -/
def listField {α : Type} (f : α → List Field) (xs : List α) : List Field := byte1 xs.length ++ xs.flatMap f

/-- A fixed array: its items with no count byte. -/
def arrayField {α : Type} (f : α → List Field) (xs : List α) : List Field := xs.flatMap f

/-- A label: a count byte, then its characters. -/
def labelField (label : List Byte) : List Field := listField (fun c => byte1 c.toNat) label

/-- A port setting: port state (0 off, 1 on), tier set, grant count, and each grant's event id and slot. -/
def portField (p : PortSetting) : List Field :=
  byte1 (if p.on then 1 else 0) ++ tierSet2 p.tiers ++ listField (fun g => byte1 g.event ++ byte1 g.slot) p.grants

/-- A tap setting: four port settings. -/
def settingField (t : TapSetting) : List Field := arrayField portField t.toList

/-- A tap's STATUS as a landing shows it: the fields of Table 3-4 in their order. -/
def statusField (t : TapStatus) : List Field :=
  byte3 t.address ++ settingField t.ports ++ byte1 t.version ++ byte1 t.serial ++ signed2 t.level

/-- A transponder reading: supply voltage, forward level. -/
def readingField (r : Reading) : List Field := byte2 r.voltage ++ signed2 r.level

end Sys2Proof.Machine
end

