-- ==== Sys2Proof/Machine/Formats.lean ====
section
/-! DEFINITION. The byte layouts of everything the part sends, and its reading of what the plant sends (R196, R43). -/

namespace Sys2Proof.Machine

/-! ### Host Link: replies and reports -/

/-- Table 12-5. The table gives OUT_OF_RANGE no code (log entry 11). -/
def statusCode : Status → Nat
  | .ok => 0
  | .busy => 1
  | .malformed => 2
  | .unknownKind => 3
  | .badLength => 4
  | .notFound => 5
  | .existing => 6
  | .wrongState => 7
  | .notCapable => 8
  | .journalFull => 9
  | .tableFull => 10
  | .conflict => 11
  | .scheduled => 12
  | .timeUnset => 13
  | .outOfRange => Config.outOfRangeCode.toNat

def replyFieldBytes : Field → List Byte
  | .uint size v => uintBytes size v
  | .sint size v => sintBytes size v

/-- A reply's payload: the status, then the fields (R196). -/
def replyPayload (r : Reply) : List Byte := uintBytes 1 (statusCode r.status) ++ r.fields.flatMap replyFieldBytes

/-- The fields of the RESTARTED report (section 12.6). -/
def noticeFields (n : RestartNotice) : List Field :=
  byte1 (resetKindCode n.kind) ++ byte1 (clockStateCode n.clockState) ++ optionalField byte4 n.resetTime
    ++ optionalField byte4 n.restartTime

/-- The fields of ALARM_RAISED and ALARM_CLEARED (section 12.6). -/
def reportFields : AlarmReport → List Field
  | .raised source level condition transient express time =>
      byte1 source ++ byte1 level ++ flag1 condition ++ flag1 transient ++ flag1 express ++ byte4 time
  | .cleared source time => byte1 source ++ byte4 time

/-- The frame of each thing the outbound line carries; a report has tag 0 (Table 12-4). -/
def outFrame : OutFrame → Frame
  | .reply r => { kind := r.kind, tag := r.tag, payload := replyPayload r.reply }
  | .restarted n => { kind := 0x62#8, tag := 0#8, payload := (noticeFields n).flatMap replyFieldBytes }
  | .alarm (.raised source level condition transient express time) =>
      { kind := 0x60#8, tag := 0#8,
        payload := (reportFields (.raised source level condition transient express time)).flatMap replyFieldBytes }
  | .alarm (.cleared source time) =>
      { kind := 0x61#8, tag := 0#8, payload := (reportFields (.cleared source time)).flatMap replyFieldBytes }

/-- A frame put on the line, with the bytes transmitted for it (Table 12-6). -/
def onLine (f : OutFrame) : LineFrame := { frame := f, bytes := frameBytes (outFrame f) }

/-! ### Journal records as delivered (Table 12-8) -/

def recordFields (r : JournalRec) : List Field :=
  let common (kind : Nat) : List Field := byte4 r.sequence ++ byte1 kind ++ byte4 r.time
  match r.body with
  | .purchase account event price origin =>
      common 0 ++ byte4 account ++ byte1 event ++ byte4 price ++ byte1 (originCode origin)
  | .refund account event amount cause =>
      common 1 ++ byte4 account ++ byte1 event ++ byte4 amount ++ byte1 (causeCode cause)
  | .cycleClose account balance credited overflow =>
      common 2 ++ byte4 account ++ signed4 balance ++ byte2 credited ++ flag1 overflow
  | .overflow account => common 3 ++ byte4 account
  | .gap resetTime restartTime => common 4 ++ byte4 resetTime ++ byte4 restartTime
  | .switchover version => common 5 ++ byte1 version

/-! ### Plant packets (Table 12-9) -/

/-- A packet or message: type byte, address, fields and the CRC over all of them (R196). -/
def plantBytes (kind address : Nat) (fields : List Field) : List Byte :=
  let body := uintBytes 1 kind ++ uintBytes 3 address ++ fields.flatMap replyFieldBytes
  body ++ crcBytes body

/-- An entry of an entry slice: channel, slot, kind, tier (0xFF when absent) and label; no source (R28). -/
def sliceEntryField (e : LineupEntry) : List Field :=
  byte2 e.channel ++ byte1 e.slot ++ byte1 (channelKindCode e.kind) ++ byte1 (e.tier.getD 255) ++ labelField e.label

/-- The fields of a SLICE (Table 12-9). No rule gives the slice number a size; it is sent in 1 byte (log entry 18). -/
def sliceFields : Slice → List Field
  | .header version count effective => byte1 version ++ byte1 0 ++ byte2 count ++ byte4 effective
  | .entries version number entries => byte1 version ++ byte1 number ++ listField sliceEntryField entries

/-- The code of an ANSWER's verdict, and its refusal reason's (Table 12-9). -/
def verdictFields : Verdict → List Field
  | .accepted => byte1 0 ++ byte1 0
  | .refused .notActive => byte1 1 ++ byte1 1
  | .refused .closed => byte1 1 ++ byte1 2
  | .refused .notCapable => byte1 1 ++ byte1 3
  | .refused .limit => byte1 1 ++ byte1 4
  | .deferred => byte1 2 ++ byte1 0

/-- The bytes handed to the modulator interface for a packet (R38 to R42, Table 12-9). -/
def packetBytes : Packet → List Byte
  | .poll address => plantBytes 0x01 address []
  | .tapSet address serial setting => plantBytes 0x02 address (byte1 serial ++ settingField setting)
  | .slice slice => plantBytes 0x03 broadcastAddress (sliceFields slice)
  | .answer a => plantBytes 0x04 a.address (byte1 a.port ++ byte1 a.event ++ verdictFields a.verdict)
  | .idle contentionOpen => plantBytes 0x05 broadcastAddress (byte1 (if contentionOpen then 1 else 0))

/-! ### Upstream messages (Tables 3-4 and 12-9) -/

/-- An unsigned field of `size` bytes within low..high, and the bytes behind it. -/
def readNat (size low high : Nat) (bs : List Byte) : Option (Nat × List Byte) :=
  (splitBytes size bs).bind fun (h, t) => if within low high (uintOf h) then some (uintOf h, t) else none

/-- A level, −200..+700 in 0.1 dBmV, and the bytes behind it. -/
def readLevel (bs : List Byte) : Option (Int × List Byte) :=
  (splitBytes 2 bs).bind fun (h, t) =>
    if -200 ≤ sintOf h ∧ sintOf h ≤ 700 then some (sintOf h, t) else none

/-- `count` grants, each an event id 1..255 and a slot 1..150. -/
def readGrants : Nat → List Byte → Option (List Grant × List Byte)
  | 0, bs => some ([], bs)
  | n + 1, bs =>
    (readNat 1 1 255 bs).bind fun (event, bs) =>
      (readNat 1 1 150 bs).bind fun (slot, bs) =>
        (readGrants n bs).map fun (grants, bs) => ({ event := event, slot := slot } :: grants, bs)

/-- A port setting (R39, R196). -/
def readPort (bs : List Byte) : Option (PortSetting × List Byte) :=
  (readNat 1 0 1 bs).bind fun (on, bs) =>
    (readNat 2 0 65535 bs).bind fun (tiers, bs) =>
      (readNat 1 0 2 bs).bind fun (count, bs) =>
        (readGrants count bs).map fun (grants, bs) =>
          ({ on := on = 1, tiers := BitVec.ofNat 16 tiers, grants := grants }, bs)

/-- Four port settings. -/
def readSetting (bs : List Byte) : Option (TapSetting × List Byte) :=
  (readPort bs).bind fun (p1, bs) =>
    (readPort bs).bind fun (p2, bs) =>
      (readPort bs).bind fun (p3, bs) =>
        (readPort bs).map fun (p4, bs) => (#v[p1, p2, p3, p4], bs)

/-- The fields of an upstream message of a type, all within the ranges of Table 3-4, with nothing behind them. -/
def readUpFields (kind address : Nat) (bs : List Byte) : Option UpMessage :=
  match kind with
  | 0x11 =>
    (readSetting bs).bind fun (ports, bs) =>
      (readNat 1 0 255 bs).bind fun (version, bs) =>
        (readNat 1 0 255 bs).bind fun (serial, bs) =>
          (readLevel bs).bind fun (level, bs) =>
            if bs.isEmpty then
              some (.tapStatus { address := address, ports := ports, version := version, serial := serial, level := level })
            else none
  | 0x12 =>
    (readNat 2 0 999 bs).bind fun (voltage, bs) =>
      (readLevel bs).bind fun (level, bs) =>
        if bs.isEmpty then some (.transponderStatus address { voltage := voltage, level := level }) else none
  | 0x13 =>
    (readNat 1 0 255 bs).bind fun (serial, bs) =>
      (readSetting bs).bind fun (ports, bs) =>
        if bs.isEmpty then some (.ack address serial ports) else none
  | 0x14 =>
    (readNat 1 1 4 bs).bind fun (port, bs) =>
      (readNat 1 1 255 bs).bind fun (event, bs) =>
        (readNat 1 0 255 bs).bind fun (counter, bs) =>
          if bs.isEmpty then
            some (.purchase { address := address, port := port, event := event, counter := counter })
          else none
  | _ => none

/-- An upstream message: its check is correct, its type is one of Table 12-9, and every field lies within its
range. -/
def readUpMessage (bs : List Byte) : Option UpMessage :=
  let body := bs.take (bs.length - 2)
  if 6 ≤ bs.length ∧ crcBytes body = bs.drop (bs.length - 2) then
    readUpFields (uintOf (body.take 1)) (uintOf ((body.drop 1).take 3)) (body.drop 4)
  else none

def upKind : UpMessage → UpKind
  | .tapStatus _ => .tapStatus
  | .transponderStatus _ _ => .transponderStatus
  | .ack _ _ _ => .ack
  | .purchase _ => .purchase

def upAddress : UpMessage → Nat
  | .tapStatus t => t.address
  | .transponderStatus a _ => a
  | .ack a _ _ => a
  | .purchase p => p.address

/-- The outcome of a reply window; GOOD comes with the message that earned it (R43). -/
inductive WindowResult where
  | good (message : UpMessage)
  | garbled
  | none
  deriving DecidableEq, Repr

/-- Whether a message fits an expectation: its kind, and its address, which for a PURCHASE lies in 1..16,777,214
(R43). -/
def fitsExpectation (e : Expectation) (m : UpMessage) : Bool :=
  upKind m = e.kind &&
    match e.address with
    | some a => upAddress m = a
    | none => addressInRange (upAddress m)

/-- R43. -/
def classify (e : Expectation) (energy : Bool) (message : Option (List Byte)) : WindowResult :=
  match message with
  | none => if energy then .garbled else .none
  | some bs =>
    match readUpMessage bs with
    | some m => if fitsExpectation e m then .good m else .garbled
    | none => .garbled

end Sys2Proof.Machine
end

