-- ==== Sys2Proof/Machine/Journal.lean ====
section
/-! DEFINITION. The Billing Journal: writes, reservations, conversions and the host's draining of it (chapter 10). -/

namespace Sys2Proof.Machine

/-- The sequence number that follows (R163): 4,294,967,295 is followed by 1. -/
def nextSequence (q : Nat) : Nat := if q = 4294967295 then 1 else q + 1

/-- A record appended at the newest end with the next sequence number (R163). -/
def appendRecord (time : Nat) (body : RecordBody) (j : Journal) : Journal :=
  { j with
    records := j.records ++ [{ sequence := j.nextSequence, time := time, body := body }],
    nextSequence := nextSequence j.nextSequence }

/-- R165: a plain write, made when free is at least 1. -/
def plainWrite (time : Nat) (body : RecordBody) (s : State) : State :=
  if 1 ≤ journalFree s.journal then putJournal (appendRecord time body s.journal) s else s

/-- R166: a reservation is taken; it needs free of at least 1. -/
def takeReservation (s : State) : State :=
  if 1 ≤ journalFree s.journal then putJournal { s.journal with reserved := s.journal.reserved + 1 } s else s

/-- R166: a reservation is given back. -/
def releaseReservation (s : State) : State :=
  if 1 ≤ s.journal.reserved then putJournal { s.journal with reserved := s.journal.reserved - 1 } s else s

/-- R167: a conversion writes a record on a reservation; it needs one reservation and no free slot. -/
def convertReservation (time : Nat) (body : RecordBody) (s : State) : State :=
  if 1 ≤ s.journal.reserved then
    putJournal (appendRecord time body { s.journal with reserved := s.journal.reserved - 1 }) s
  else s

/-- JOURNAL_READ (R168). -/
def journalReadStep (count : Nat) (s : State) : State × Reply :=
  let j := s.journal
  (s, replyOk (byte2 (journalHeld j) ++ byte2 j.reserved ++ byte2 (journalFree j) ++ byte4 j.nextSequence
    ++ listField recordFields (j.records.take (clampNat 1 16 count))))

/-- The records newer than the one numbered `q`; `none` when no held record has that number (R169). -/
def recordsAfter (q : Nat) : List JournalRec → Option (List JournalRec)
  | [] => none
  | r :: rest => if r.sequence = q then some rest else recordsAfter q rest

/-- JOURNAL_RELEASE (R169). -/
def journalReleaseStep (q : Nat) (s : State) : State × Reply :=
  if q = 0 then (s, refusal .outOfRange)
  else
    match recordsAfter q s.journal.records with
    | none => (s, refusal .notFound)
    | some kept =>
      let t := putJournal { s.journal with records := kept } s
      (t, replyOk (byte2 (journalHeld s.journal - kept.length)
        ++ optionalField byte4 (kept.head?.map (·.sequence))
        ++ byte2 (journalHeld t.journal) ++ byte2 (journalFree t.journal)))

def execJournalRead (tag : Byte) (count : Nat) (s : State) : Host.Outcome State Fault Refusal :=
  .next (serve (.journalRead tag count) (journalReadStep count) s)

def execJournalRelease (tag : Byte) (sequence : Nat) (s : State) : Host.Outcome State Fault Refusal :=
  .next (serve (.journalRelease tag sequence) (journalReleaseStep sequence) s)

end Sys2Proof.Machine
end

