-- ==== Sys2Proof/Machine/Lineup.lean ====
section
/-! DEFINITION. The Line-Up Store: its banks and their editing, the scheduling of a switchover, the tariff by time,
the channel lookups and the carousel's slices (chapter 2). -/

namespace Sys2Proof.Machine

/-! ### Lookups (R27) -/

/-- The entry of a bank with a channel. -/
def findEntry (channel : Nat) (b : Bank) : Option LineupEntry := b.entries.find? (·.channel = channel)

/-- The slot of a channel, or absent. -/
def slotOf (channel : Nat) (b : Bank) : Option Nat := (findEntry channel b).map (·.slot)

/-- The source of a channel, or absent. -/
def sourceOf (channel : Nat) (b : Bank) : Option Nat := (findEntry channel b).map (·.source)

/-- Whether a channel is of kind PPV in a bank; an absent channel is not. -/
def isPpv (channel : Nat) (b : Bank) : Bool := (findEntry channel b).any (·.kind = .ppv)

/-- The sources named by at least one entry, ascending (section 2.1). -/
def sourcesOf (b : Bank) : List Nat := (upTo 64).filter fun i => b.entries.any (·.source = i)

/-! ### Editing STAGED (R15 to R18) -/

/-- An entry put at its place in channel order, replacing the entry with the same channel (R13, R16). -/
def putEntry (e : LineupEntry) : List LineupEntry → List LineupEntry
  | [] => [e]
  | x :: xs =>
    if e.channel < x.channel then e :: x :: xs
    else if e.channel = x.channel then e :: xs
    else x :: putEntry e xs

/-- A label of at most 8 printable characters of code 32..126 (Table 2-2). -/
def labelInRange (label : List Byte) : Bool :=
  label.length ≤ 8 && label.all fun c => within 32 126 c.toNat

/-- The entry a LINEUP_PUT carries, when every field is within its range (R16, check 2). -/
def entryOf (channel slot source kind : Nat) (tier : Option Nat) (label : List Byte) : Option LineupEntry :=
  if within 1 999 channel && within 1 150 slot && within 1 64 source && labelInRange label then
    match channelKindOf kind, tier with
    | some .tiered, some t =>
      if t ≤ 15 then
        some { channel := channel, slot := slot, source := source, kind := .tiered, tier := some t, label := label }
      else none
    | some .ppv, none =>
      some { channel := channel, slot := slot, source := source, kind := .ppv, tier := none, label := label }
    | _, _ => none
  else none

/-- STAGED with new entries. -/
def setStagedEntries (entries : List LineupEntry) (s : State) : State :=
  { s with lineup := { s.lineup with staged := { s.lineup.staged with entries := entries } } }

/-- LINEUP_PUT (R16). -/
def lineupPutStep (channel slot source kind : Nat) (tier : Option Nat) (label : List Byte) (s : State) :
    State × Reply :=
  let entries := s.lineup.staged.entries
  if s.lineup.scheduled.isSome then (s, refusal .scheduled)
  else
    match entryOf channel slot source kind tier label with
    | none => (s, refusal .outOfRange)
    | some e =>
      if entries.any fun x => x.slot = slot && x.channel != channel then (s, refusal .conflict)
      else if 160 ≤ entries.length && !entries.any (·.channel = channel) then (s, refusal .tableFull)
      else (setStagedEntries (putEntry e entries) s, replyOk (byte2 (putEntry e entries).length))

/-- LINEUP_DROP (R17). -/
def lineupDropStep (channel : Nat) (s : State) : State × Reply :=
  let entries := s.lineup.staged.entries
  if s.lineup.scheduled.isSome then (s, refusal .scheduled)
  else if !within 1 999 channel then (s, refusal .outOfRange)
  else if !entries.any (·.channel = channel) then (s, refusal .notFound)
  else
    let kept := entries.filter (·.channel != channel)
    (setStagedEntries kept s, replyOk (byte2 kept.length))

/-- A tariff with one target's rate changed: tier 0..15, or 16 for the hold rate (R18, R196). -/
def setRate (target rate : Nat) (t : Tariff) : Tariff :=
  if target = 16 then { t with holdRate := rate } else { t with tiers := vecModify t.tiers target fun _ => rate }

/-- TIER_RATE_SET (R18). -/
def tierRateSetStep (target rate : Nat) (s : State) : State × Reply :=
  if s.lineup.scheduled.isSome then (s, refusal .scheduled)
  else if 16 < target || 1000000 < rate then (s, refusal .outOfRange)
  else
    ({ s with lineup :=
        { s.lineup with staged := { s.lineup.staged with tariff := setRate target rate s.lineup.staged.tariff } } },
      replyOk (byte1 target ++ byte4 rate))

/-- An entry as LINEUP_READ shows it (Table 2-2). -/
def entryField (e : LineupEntry) : List Field :=
  byte2 e.channel ++ byte1 e.slot ++ byte1 e.source ++ byte1 (channelKindCode e.kind) ++ optionalField byte1 e.tier
    ++ labelField e.label

/-- A tariff as LINEUP_READ shows it: the 16 rates in tier order, then the hold rate. -/
def tariffField (t : Tariff) : List Field := arrayField byte4 t.tiers.toList ++ byte4 t.holdRate

/-- LINEUP_READ (R19). The entries are sent as a list, behind a count byte (log entry 18). -/
def lineupReadStep (bank low high : Nat) (s : State) : State × Reply :=
  if !within 1 999 low || !within 1 999 high || high < low || 1 < bank then (s, refusal .outOfRange)
  else
    let b := if bank = 0 then s.lineup.active else s.lineup.staged
    let found := b.entries.filter fun e => within low high e.channel
    (s, replyOk (byte1 b.version ++ byte2 b.entries.length
      ++ (if bank = 0 then byte4 s.lineup.effective else optionalField byte4 s.lineup.scheduled)
      ++ tariffField b.tariff
      ++ listField entryField (found.take 32)
      ++ optionalField byte2 ((found.drop 32).head?.map (·.channel))))

/-! ### Scheduling and cancelling a switchover (R20 to R22) -/

/-- The version that follows: 255 is followed by 1 (R14). -/
def nextVersion (v : Nat) : Nat := if v = 255 then 1 else v + 1

/-- The lowest event id whose channel STAGED lacks as a PPV channel (R21). -/
def inconsistentEvent (s : State) : Option Nat :=
  (s.events.find? fun e => !isPpv e.channel s.lineup.staged).map (·.id)

/-- SWITCHOVER_SCHEDULE (R20). -/
def switchoverScheduleStep (time : Nat) (s : State) : State × Reply :=
  if s.clock.state = .unset then (s, refusal .timeUnset)
  else if s.lineup.scheduled.isSome then (s, refusal .scheduled)
  else if time % 900 != 0 || time ≤ s.clock.time || maxTime < time then (s, refusal .outOfRange)
  else
    match inconsistentEvent s with
    | some e => (s, { status := .conflict, fields := byte1 e })
    | none =>
      if journalFree s.journal = 0 then (s, refusal .journalFull)
      else
        let version := nextVersion s.lineup.active.version
        (takeReservation
          { s with lineup :=
              { s.lineup with scheduled := some time, staged := { s.lineup.staged with version := version } } },
          replyOk (byte4 time ++ byte1 version))

/-- SWITCHOVER_CANCEL (R22). -/
def switchoverCancelStep (s : State) : State × Reply :=
  if s.lineup.scheduled.isSome then
    (releaseReservation
      { s with lineup :=
          { s.lineup with
            scheduled := none, staged := { s.lineup.staged with version := s.lineup.active.version } } },
      replyOk [])
  else (s, refusal .wrongState)

/-! ### Tariff by time (R25, R26) -/

/-- The tariff for the interval starting at `t` (R26). -/
def tariffFor (t : Nat) (l : Lineup) : Tariff :=
  if l.scheduled.any (· ≤ t) then l.staged.tariff
  else if l.effective ≤ t then l.active.tariff
  else
    match l.previous with
    | some p => if t < p.endTime then p.tariff else l.active.tariff
    | none => l.active.tariff

/-! ### The carousel (R28, R29) -/

/-- The number of entry slices: the entry count divided by 4 and rounded up (R28). -/
def sliceCount (l : Lineup) : Nat := (l.active.entries.length + 3) / 4

/-- The slice for a cursor, and the slice number that follows it (R29). -/
def sliceAt (cursor : Nat) (l : Lineup) : Slice × Nat :=
  if cursor = 0 ∨ sliceCount l < cursor then
    (.header l.active.version l.active.entries.length l.effective, if 1 ≤ sliceCount l then 1 else 0)
  else
    (.entries l.active.version cursor ((l.active.entries.drop (4 * cursor - 4)).take 4),
      if cursor < sliceCount l then cursor + 1 else 0)

/-! ### The requests -/

def execLineupPut (tag : Byte) (channel slot source kind : Nat) (tier : Option Nat) (label : List Byte) (s : State) :
    Host.Outcome State Fault Refusal :=
  .next (serve (.lineupPut tag channel slot source kind tier label)
    (lineupPutStep channel slot source kind tier label) s)

def execLineupDrop (tag : Byte) (channel : Nat) (s : State) : Host.Outcome State Fault Refusal :=
  .next (serve (.lineupDrop tag channel) (lineupDropStep channel) s)

def execTierRateSet (tag : Byte) (target rate : Nat) (s : State) : Host.Outcome State Fault Refusal :=
  .next (serve (.tierRateSet tag target rate) (tierRateSetStep target rate) s)

def execLineupRead (tag : Byte) (bank low high : Nat) (s : State) : Host.Outcome State Fault Refusal :=
  .next (serve (.lineupRead tag bank low high) (lineupReadStep bank low high) s)

def execSwitchoverSchedule (tag : Byte) (time : Nat) (s : State) : Host.Outcome State Fault Refusal :=
  .next (serve (.switchoverSchedule tag time) (switchoverScheduleStep time) s)

def execSwitchoverCancel (tag : Byte) (s : State) : Host.Outcome State Fault Refusal :=
  .next (serve (.switchoverCancel tag) switchoverCancelStep s)

end Sys2Proof.Machine
end

