-- ==== Sys2Proof/Machine/Switching.lean ====
section
/-! DEFINITION. The Switching Engine: derivation of port settings, recomputation and the command queue, sending and
acknowledgement, reconciliation, switchover and removal (chapter 6). -/

namespace Sys2Proof.Machine

/-! ### Settings and their equality (R89) -/

/-- A port that receives nothing. -/
def portOff : PortSetting := { on := false, tiers := 0#16, grants := [] }

/-- All four ports off (R92). -/
def settingOff : TapSetting := Vector.replicate 4 portOff

/-- Two grant lists hold the same grants, in any order. -/
def sameGrants (x y : List Grant) : Bool := x.all y.contains && y.all x.contains

/-- Two port settings are equal (R89). -/
def samePort (p q : PortSetting) : Bool := p.on = q.on && p.tiers = q.tiers && sameGrants p.grants q.grants

/-- Port p's setting (1..4) in a tap setting. -/
def portOf (t : TapSetting) (p : Nat) : PortSetting := vecGet t (p - 1) portOff

/-- Two tap settings are equal (R89). -/
def sameSetting (x y : TapSetting) : Bool := (upTo 4).all fun p => samePort (portOf x p) (portOf y p)

/-- A confirmed setting is present and equal to a setting. -/
def confirms (confirmed : Option TapSetting) (t : TapSetting) : Bool := confirmed.any fun c => sameSetting c t

/-! ### Derivation (R90, R91) -/

/-- The grant of an open purchase, when its event is held and ACTIVE has a slot for its channel (R91). -/
def grantOf (events : List EventRec) (active : Bank) (p : OpenPurchase) : Option Grant :=
  (findEvent p.event events).bind fun e =>
    (slotOf e.channel active).map fun slot => { event := p.event, slot := slot }

/-- The desired setting of a port of a tap of a model, with the tap's stale mark, for the account bound to it
(Table 6-1). -/
def portFor (events : List EventRec) (active : Bank) (model : TapModel) (stale : Bool) (account : Option Account) :
    PortSetting :=
  match account with
  | none => portOff
  | some a =>
    match a.state with
    | .hold => portOff
    | .cut => portOff
    | .active =>
      match model with
      | .onoff => { on := hasTier a.tiers 0, tiers := 0#16, grants := [] }
      | .tiered => { on := true, tiers := a.tiers, grants := [] }
      | .event =>
        { on := true, tiers := a.tiers,
          grants := if stale then [] else a.purchases.filterMap (grantOf events active) }

/-- The desired setting of a tap: R90 for each of its four ports. -/
def deriveSetting (s : State) (t : TapRec) : TapSetting :=
  vecMap (fun binding =>
    portFor s.events s.lineup.active t.model t.stale (binding.bind fun k => findAccount k s.accounts)) t.ports

/-! ### Recomputation and the command queue (R93, R94) -/

/-- The tap with address `a` changed in its switching record by `f`. -/
def modifySwitch (a : Nat) (f : SwitchRec → SwitchRec) (s : State) : State :=
  { s with taps := modifyTap a (fun t => { t with switching := f t.switching }) s.taps }

/-- The command queue without a tap. -/
def unqueue (a : Nat) (queue : List Nat) : List Nat := queue.filter (· != a)

/-- A tap moved to the tail of the queue, or joining it there. -/
def toTail (a : Nat) (queue : List Nat) : List Nat := unqueue a queue ++ [a]

/-- Table 6-3: the queue update for the tap with address `a`, given whether its confirmed setting is present and
equal to its new desired setting. -/
def queueUpdate (a : Nat) (agrees : Bool) (s : State) : State :=
  match s.commandQueue.contains a, agrees with
  | false, true => s
  | false, false =>
    modifySwitch a (fun r => { r with attempts := 0 }) { s with commandQueue := s.commandQueue ++ [a] }
  | true, true =>
    modifySwitch a (fun r => { r with attempts := 0 }) { s with commandQueue := unqueue a s.commandQueue }
  | true, false => s

/-- R93 with R94: the tap with address `a` is recomputed. A tap in REMOVING is left alone (R102). -/
def recompute (a : Nat) (s : State) : State :=
  match findTap a s.taps with
  | none => s
  | some t =>
    if t.state = .removing then s
    else
      let desired := deriveSetting s t
      queueUpdate a (confirms t.switching.confirmed desired)
        (modifySwitch a (fun r => { r with desired := desired }) s)

/-! ### Sending and acknowledgement (R95 to R98) -/

/-- A tap is sendable: its record exists, its node is not in OUTAGE and it is not in flight (R95). -/
def sendable (s : State) (a : Nat) : Bool :=
  match findTap a s.taps with
  | none => false
  | some t => (nodeOf s t.node).state != .outage && !t.switching.inFlight

/-- The oldest sendable tap of the command queue (R95). -/
def switchingOffer (s : State) : Option TapRec :=
  (s.commandQueue.find? (sendable s)).bind fun a => findTap a s.taps

/-- The set serial that follows: 255 is followed by 0 (R96). -/
def nextSerial (q : Nat) : Nat := if q = 255 then 0 else q + 1

/-- R96: the switching record of a tap whose TAP_SET is sent. -/
def sendStep (r : SwitchRec) : SwitchRec :=
  { r with serial := nextSerial r.serial, sent := some r.desired, inFlight := true }

/-- Whether a reply to a TAP_SET is a successful delivery (R97). -/
def deliverySucceeds (r : SwitchRec) (result : WindowResult) : Bool :=
  match result with
  | .good (.ack _ serial ports) => serial = r.serial && r.sent.any fun sent => sameSetting ports sent
  | _ => false

/-- R97, steps 1 to 5. -/
def deliveryDone (t : TapRec) (s : State) : State :=
  let a := t.address
  let done := modifySwitch a
    (fun r => { r with confirmed := r.sent, attempts := 0, fault := false, sent := none, inFlight := false }) s
  let queue :=
    if confirms t.switching.sent t.switching.desired then unqueue a s.commandQueue
    else if t.state = .removing then s.commandQueue
    else toTail a s.commandQueue
  judgeSwitchFault t.node { done with commandQueue := queue }

/-- R98. -/
def deliveryFailed (t : TapRec) (s : State) : State :=
  let a := t.address
  let closed := modifySwitch a (fun r => { r with sent := none, inFlight := false }) s
  if s.commandQueue.contains a then
    if t.switching.attempts + 1 < 4 then
      modifySwitch a (fun r => { r with attempts := r.attempts + 1 })
        { closed with commandQueue := toTail a s.commandQueue }
    else
      judgeSwitchFault t.node
        (modifySwitch a (fun r => { r with attempts := 4, fault := true, confirmed := none })
          { closed with commandQueue := unqueue a s.commandQueue })
  else closed

/-- The result of a TAP_SET's window is judged (R97, R98). -/
def judgeDelivery (a : Nat) (result : WindowResult) (s : State) : State :=
  match findTap a s.taps with
  | none => s
  | some t => if deliverySucceeds t.switching result then deliveryDone t s else deliveryFailed t s

/-! ### Stale marks, reconciliation, switchover and removal (R99 to R102) -/

/-- Whether a tap is stale: its reported version is absent or differs from the active version (R99). -/
def isStale (s : State) (t : TapRec) : Bool := t.version != some s.lineup.active.version

/-- R99: the stale mark of a tap is evaluated, and the tap recomputed when it changes. -/
def evaluateStale (a : Nat) (s : State) : State :=
  match findTap a s.taps with
  | none => s
  | some t =>
    if t.stale = isStale s t then s
    else recompute a { s with taps := modifyTap a (fun t => { t with stale := isStale s t }) s.taps }

/-- R100, steps 2 to 4, for the tap with address `a` whose STATUS shows `ports`. -/
def compareStatus (a : Nat) (ports : TapSetting) (s : State) : State :=
  match findTap a s.taps with
  | none => s
  | some t =>
    if sameSetting ports t.switching.desired then
      judgeSwitchFault t.node
        (modifySwitch a (fun r => { r with confirmed := some r.desired, fault := false, attempts := 0 })
          { s with commandQueue := unqueue a s.commandQueue })
    else
      modifySwitch a (fun r => { r with attempts := 0 })
        { s with commandQueue :=
            if s.commandQueue.contains a then s.commandQueue else s.commandQueue ++ [a] }

/-- R100: a GOOD STATUS is reconciled. -/
def reconcile (a : Nat) (ports : TapSetting) (s : State) : State := compareStatus a ports (evaluateStale a s)

/-- Whether a setting holds a grant for one of the events. -/
def grantsAny (events : List Nat) (t : TapSetting) : Bool :=
  t.toList.any fun p => p.grants.any fun g => events.contains g.event

/-- R101 for one tap: its stale mark is evaluated, and it is recomputed when the mark changes or when its desired or
confirmed setting holds a grant for a named event. -/
def switchoverTap (named : List Nat) (a : Nat) (s : State) : State :=
  match findTap a s.taps with
  | none => s
  | some t =>
    if t.state = .removing then s
    else if t.stale != isStale s t then evaluateStale a s
    else if grantsAny named t.switching.desired || t.switching.confirmed.any (grantsAny named) then recompute a s
    else s

/-- R101: every tap, in ascending order of address, which is the order of the tap records. -/
def switchoverTaps (named : List Nat) (s : State) : State :=
  s.taps.foldl (fun u t => switchoverTap named t.address u) s

/-- R102: a tap that has entered REMOVING is withdrawn from switching. -/
def withdraw (t : TapRec) (s : State) : State :=
  judgeSwitchFault t.node
    (modifySwitch t.address (fun r => { r with attempts := 0, fault := false })
      { s with commandQueue := unqueue t.address s.commandQueue })

/-- The switching record of a new tap (R92), and of a kept tap at a retained reset with its desired setting
(R106). -/
def freshSwitch (desired : TapSetting) : SwitchRec :=
  { desired := desired, confirmed := none, serial := 0, inFlight := false, sent := none, attempts := 0,
    fault := false }

end Sys2Proof.Machine
end

