-- ==== Sys2Proof/Machine/Monitor.lean ====
section
/-! DEFINITION. The Outage Monitor: the judgement of nodes, the restore hold, minute samples and tallies, transponder
conditions, and source supervision (chapter 7). -/

namespace Sys2Proof.Machine

/-! ### Counts (R109) -/

/-- How many taps of node n stand in a state. -/
def tapCount (s : State) (n : Nat) (u : UnitState) : Nat := s.taps.countP fun t => t.node = n && t.state = u

/-- P: the node's taps that are ONLINE, MISSING or SILENT. -/
def countP (s : State) (n : Nat) : Nat := tapCount s n .online + tapCount s n .missing + tapCount s n .silent

/-- S: the node's taps that are SILENT. -/
def countS (s : State) (n : Nat) : Nat := tapCount s n .silent

/-- The outage test (R109). -/
def outageTest (s : State) (n : Nat) : Bool :=
  (nodeOf s n).thresholds.outagePercent * countP s n ≤ countS s n * 100

/-- The degraded test (R109). -/
def degradedTest (s : State) (n : Nat) : Bool :=
  (nodeOf s n).thresholds.degradedPercent * countP s n ≤ countS s n * 100

/-- The four cases of R111. -/
def judgedState (s : State) (n : Nat) : NodeState :=
  if countP s n = 0 then .unknown
  else if outageTest s n then .outage
  else if degradedTest s n then .degraded
  else .normal

/-! ### The node state machine (R110 to R115) -/

/-- Node n takes a state and a restore timer, and gives the conditions that change (R115). -/
def setNodeState (n : Nat) (state : NodeState) (timer : Option Nat) (s : State) : State :=
  giveNodeConditions n (modifyNode n (fun r => { r with state := state, restoreTimer := timer }) s)

/-- The re-evaluation of node n after a tap state change or NODE_CONFIG, by the rule for its state (R111, R112,
R114). -/
def reevaluate (n : Nat) (s : State) : State :=
  match (nodeOf s n).state with
  | .unknown => setNodeState n (judgedState s n) none s
  | .normal => setNodeState n (judgedState s n) none s
  | .degraded => setNodeState n (judgedState s n) none s
  | .outage => if countP s n = 0 then setNodeState n .unknown none s else s
  | .restoring =>
    if countP s n = 0 then setNodeState n .unknown none s
    else if outageTest s n then setNodeState n .outage none s
    else s

/-- The release of node n's silent taps, other than the probe (R61, R113). -/
def releaseSilent (n probe : Nat) (s : State) : State :=
  { s with taps := s.taps.map fun t =>
      if t.node = n ∧ t.state = .silent ∧ t.address ≠ probe then { t with state := .unknown, miss := 0 } else t }

/-- A probe answer for node n, given by the unit with address `probe` (R113). -/
def probeAnswer (n probe : Nat) (s : State) : State :=
  if (nodeOf s n).state = .outage then
    let u := releaseSilent n probe s
    if countP u n = 0 then setNodeState n .unknown none u
    else if (nodeOf u n).thresholds.restoreHold = 0 then setNodeState n (judgedState u n) none u
    else setNodeState n .restoring (some (nodeOf u n).thresholds.restoreHold) u
  else s

/-- A node's restore timer at a second tick (R114): at the tick that brings it to 0 the hold has run out. -/
def tickNode (r : NodeRec) : NodeRec :=
  match r.state, r.restoreTimer with
  | .restoring, some k => { r with restoreTimer := if k ≤ 1 then none else some (k - 1) }
  | _, _ => r

/-- Node n's hold has run out and its expiry is still to be taken. -/
def expiryDue (r : NodeRec) : Bool := r.state = .restoring && r.restoreTimer.isNone

/-- RESTORE_HOLD_EXPIRY (R114): the node's state is set from the counts. -/
def restoreHoldExpiryStep (n : Nat) (s : State) : State :=
  if expiryDue (nodeOf s n) then setNodeState n (judgedState s n) none s else s

def execRestoreHoldExpiry (node : Nat) (s : State) : Host.Outcome State Fault Refusal :=
  if within 1 32 node then .next (whenRunning (restoreHoldExpiryStep node) s) else .fault .noSuchNode

/-! ### Minute samples and tallies (R117 to R119) -/

/-- The nodes in OUTAGE, ascending. -/
def outageNodes (s : State) : List Nat := (upTo 32).filter fun n => (nodeOf s n).state = .outage

/-- The inputs whose debounced state is LOST, ascending. -/
def lostInputs (s : State) : List Nat := (upTo 64).filter fun i => (inputOf s i).debounced = .lost

/-- R117: the sample for minute end `t` is fixed, unless the sample held already belongs to it. -/
def fixSample (t : Nat) (s : State) : State :=
  { s with sample :=
      if s.sample.minute.all (· < t) then { minute := some t, nodes := outageNodes s, inputs := lostInputs s }
      else s.sample }

/-- R118: the tally of each node of the sample rises by one, to at most 15. -/
def countTallies (s : State) : State :=
  s.sample.nodes.foldl (fun u n => modifyNode n (fun r => { r with tally := min 15 (r.tally + 1) }) u) s

/-- R119: the Meter is handed a tally message for each node, ascending, and each tally becomes 0. -/
def handTallies (t : Nat) (s : State) : State :=
  { s with
    nodes := vecMap (fun r => { r with tally := 0 }) s.nodes,
    due := { s.due with
      tallies := s.due.tallies ++
        (upTo 32).map fun n => { node := n, start := t - 900, tally := (nodeOf s n).tally } } }

/-- MONITOR_MINUTE_END (R117 to R119): the oldest minute end handed to the monitor is taken. -/
def monitorMinuteEndStep (s : State) : State :=
  match s.due.monitorEnds with
  | [] => s
  | m :: rest =>
    let u := countTallies (fixSample m.time { s with due := { s.due with monitorEnds := rest } })
    if m.marked then handTallies m.time u else u

def execMonitorMinuteEnd (s : State) : Host.Outcome State Fault Refusal :=
  .next (whenRunning monitorMinuteEndStep s)

/-! ### Transponder readings (R120 to R122) -/

/-- R121: NODE_POWER of a node, from its current reading. -/
def judgedPower (r : NodeRec) : Bool :=
  match r.current with
  | none => r.power
  | some c =>
    let clear := min 999 (r.thresholds.powerThreshold + r.thresholds.powerHysteresis)
    if c.voltage < r.thresholds.powerThreshold then true
    else if clear ≤ c.voltage then false
    else r.power

/-- R121: NODE_POWER[n] is judged and given. -/
def judgePower (n : Nat) (s : State) : State :=
  giveCondition (nodePowerSource n) (judgedPower (nodeOf s n))
    (modifyNode n (fun r => { r with power := judgedPower r }) s)

/-- R122: NODE_LEVEL_STEP of a node, from its two readings. -/
def judgedStep (r : NodeRec) : Bool :=
  match r.current, r.previous with
  | some c, some p => r.thresholds.levelStep ≤ min 900 (c.level - p.level).natAbs
  | _, _ => false

/-- R122: NODE_LEVEL_STEP[n] is judged and given. -/
def judgeLevelStep (n : Nat) (s : State) : State :=
  giveCondition (nodeLevelStepSource n) (judgedStep (nodeOf s n))
    (modifyNode n (fun r => { r with levelStep := judgedStep r }) s)

/-- R120: a new reading of node n's transponder. -/
def takeReading (n : Nat) (reading : Reading) (s : State) : State :=
  judgeLevelStep n (judgePower n
    (modifyNode n (fun r => { r with previous := r.current, current := some reading }) s))

/-- R120: node n's transponder has lost its address. -/
def loseTransponder (n : Nat) (s : State) : State :=
  giveCondition (nodeLevelStepSource n) false (giveCondition (nodePowerSource n) false
    (modifyNode n (fun r => { r with current := none, previous := none, power := false, levelStep := false }) s))

/-! ### Source supervision (R123, R124) -/

/-- An input's record after its pin took a level, in a running part (R123). A level the pin already has is no
change. -/
def levelChange (high : Bool) (r : InputRec) : InputRec :=
  if r.high = high then r else { r with high := high, steady := 0, partialMark := true }

/-- SOURCE_LEVEL_CHANGE (R123). While the part does not run only the pin changes. -/
def sourceLevelChangeStep (i : Nat) (high : Bool) (s : State) : State :=
  if s.phase = .running then modifyInput i (levelChange high) s
  else modifyInput i (fun r => { r with high := high }) s

/-- An input's record at a second tick (R123): the verdict of the tick that completes the third whole second is
due, on the level that held it. -/
def tickInput (r : InputRec) : InputRec :=
  if r.partialMark then { r with partialMark := false }
  else if r.steady = 2 then { r with steady := 3, verdictDue := some r.high }
  else { r with steady := min 3 (r.steady + 1) }

/-- The debounced state a level gives (R123). -/
def verdictOf (high : Bool) : Debounced := if high then .present else .lost

/-- SOURCE_DEBOUNCE_VERDICT (R123, R124): the verdict due is taken. -/
def sourceDebounceVerdictStep (i : Nat) (s : State) : State :=
  match (inputOf s i).verdictDue with
  | none => s
  | some high => judgeSourceLost i (modifyInput i (fun r => { r with debounced := verdictOf high, verdictDue := none }) s)

def execSourceLevelChange (input : Nat) (high : Bool) (s : State) : Host.Outcome State Fault Refusal :=
  if within 1 64 input then .next (sourceLevelChangeStep input high s) else .fault .noSuchInput

def execSourceDebounceVerdict (input : Nat) (s : State) : Host.Outcome State Fault Refusal :=
  if within 1 64 input then .next (whenRunning (sourceDebounceVerdictStep input) s) else .fault .noSuchInput

/-! ### The host's requests (R108, R125) -/

/-- The thresholds NODE_CONFIG applies: each clamped, and then the degraded percent lowered to the outage percent
(R108). -/
def clampThresholds (t : Thresholds) : Thresholds :=
  let outage := clampNat 1 100 t.outagePercent
  { missLimit := clampNat 1 15 t.missLimit,
    degradedPercent := min (clampNat 1 100 t.degradedPercent) outage,
    outagePercent := outage,
    restoreHold := clampNat 0 3600 t.restoreHold,
    powerThreshold := clampNat 0 999 t.powerThreshold,
    powerHysteresis := clampNat 0 100 t.powerHysteresis,
    levelStep := clampNat 5 200 t.levelStep }

/-- The seven thresholds as a reply shows them. -/
def thresholdFields (t : Thresholds) : List Field :=
  byte1 t.missLimit ++ byte1 t.degradedPercent ++ byte1 t.outagePercent ++ byte2 t.restoreHold
    ++ byte2 t.powerThreshold ++ byte2 t.powerHysteresis ++ byte2 t.levelStep

/-- NODE_CONFIG (R108): the percentages act at once, and then NODE_POWER is re-judged (log entry 14). -/
def nodeConfigStep (n : Nat) (given : Thresholds) (s : State) : State × Reply :=
  if !within 1 32 n then (s, refusal .outOfRange)
  else
    let applied := clampThresholds given
    (judgePower n (reevaluate n (modifyNode n (fun r => { r with thresholds := applied }) s)),
      replyOk (thresholdFields applied))

/-- NODE_READ (R125). -/
def nodeReadStep (n : Nat) (s : State) : State × Reply :=
  if !within 1 32 n then (s, refusal .outOfRange)
  else
    let r := nodeOf s n
    (s, replyOk (byte1 (nodeStateCode r.state) ++ thresholdFields r.thresholds ++ optionalField byte2 r.restoreTimer
      ++ byte1 r.tally ++ byte2 (countP s n) ++ byte2 (countS s n)
      ++ arrayField (fun u => byte2 (tapCount s n u)) [.unknown, .online, .missing, .silent, .removing]
      ++ optionalField byte3 (transponderOf s n).address
      ++ optionalField readingField r.current ++ optionalField readingField r.previous
      ++ flag1 (nodeOutage r) ++ flag1 (nodeDegraded r) ++ flag1 r.power ++ flag1 r.levelStep))

/-- An input as SOURCE_READ shows it. -/
def inputField (s : State) (i : Nat) : List Field :=
  let r := inputOf s i
  flag1 r.high ++ byte1 (debouncedCode r.debounced) ++ byte1 r.steady ++ flag1 (s.lineup.sourcesInUse.contains i)
    ++ flag1 r.lost

/-- SOURCE_READ (R125). The inputs are sent as a list, behind a count byte and without their numbers (log entry 18). -/
def sourceReadStep (low high : Nat) (s : State) : State × Reply :=
  if !within 1 64 low || !within 1 64 high || high < low then (s, refusal .outOfRange)
  else (s, replyOk (listField (inputField s) ((upTo 64).filter (within low high))))

def execNodeConfig (tag : Byte) (node missLimit degradedPercent outagePercent restoreHold powerThreshold powerHysteresis
    levelStep : Nat) (s : State) : Host.Outcome State Fault Refusal :=
  .next (serve
    (.nodeConfig tag node missLimit degradedPercent outagePercent restoreHold powerThreshold powerHysteresis levelStep)
    (nodeConfigStep node
      { missLimit := missLimit, degradedPercent := degradedPercent, outagePercent := outagePercent,
        restoreHold := restoreHold, powerThreshold := powerThreshold, powerHysteresis := powerHysteresis,
        levelStep := levelStep }) s)

def execNodeRead (tag : Byte) (node : Nat) (s : State) : Host.Outcome State Fault Refusal :=
  .next (serve (.nodeRead tag node) (nodeReadStep node) s)

def execSourceRead (tag : Byte) (low high : Nat) (s : State) : Host.Outcome State Fault Refusal :=
  .next (serve (.sourceRead tag low high) (sourceReadStep low high) s)

end Sys2Proof.Machine
end

