-- ==== Sys2Proof/Machine/Accounts.lean ====
section
/-! DEFINITION. The Account Store: opening, service states, entitlement, closing and reading of accounts (chapter 5). -/

namespace Sys2Proof.Machine

/-- The state with account k's record changed by `f`. -/
def changeAccount (k : Nat) (f : Account → Account) (s : State) : State :=
  { s with accounts := modifyAccount k f s.accounts }

/-- Port p (1..4) of the tap with address `a` bound to `binding` (R72). -/
def bindPort (a p : Nat) (binding : Option Nat) (s : State) : State :=
  { s with taps := modifyTap a (fun t => { t with ports := vecModify t.ports (p - 1) fun _ => binding }) s.taps }

/-- A new account record (R76). -/
def newAccount (k a p : Nat) (tiers : TierSet) (state : AccountState) : Account :=
  { number := k, address := a, port := p, state := state, tiers := tiers, purchases := [], balance := 0,
    residue := 0, credited := 0, overflow := false, latch := .none }

/-- ACCOUNT_OPEN (R76). -/
def accountOpenStep (k a p : Nat) (tiers : TierSet) (state : Nat) (s : State) : State × Reply :=
  if !accountInRange k || !addressInRange a || !within 1 4 p then (s, refusal .outOfRange)
  else
    match accountStateOf state with
    | none => (s, refusal .outOfRange)
    | some .cut => (s, refusal .outOfRange)
    | some initial =>
      if (findAccount k s.accounts).isSome then (s, refusal .existing)
      else
        match findTap a s.taps with
        | none => (s, refusal .notFound)
        | some t =>
          if t.state = .removing then (s, refusal .wrongState)
          else if (vecGet t.ports (p - 1) none).isSome then (s, refusal .existing)
          else
            (recompute a (bindPort a p (some k)
              { s with accounts := insertAccount (newAccount k a p tiers initial) s.accounts }), replyOk [])

/-- The number checks of section 5.3, then the request's own step on the account. -/
def withAccount (k : Nat) (s : State) (own : Account → State × Reply) : State × Reply :=
  if !accountInRange k then (s, refusal .outOfRange)
  else
    match findAccount k s.accounts with
    | none => (s, refusal .notFound)
    | some a => own a

/-- A service-state request (R77): taken in the states `takenIn`, it moves the account to `target`, hands its tap to
the Switching Engine (R79) and replies the new state. -/
def accountMove (takenIn : List AccountState) (target : AccountState) (k : Nat) (s : State) : State × Reply :=
  withAccount k s fun a =>
    if takenIn.contains a.state then
      (recompute a.address (changeAccount k (fun r => { r with state := target }) s),
        replyOk (byte1 (accountStateCode target)))
    else (s, refusal .wrongState)

/-- ACCOUNT_TIERS (R78). -/
def accountTiersStep (k : Nat) (tiers : TierSet) (s : State) : State × Reply :=
  withAccount k s fun a =>
    (recompute a.address (changeAccount k (fun r => { r with tiers := tiers }) s), replyOk (tierSet2 tiers))

/-- The first condition of R82 that fails, numbered from 0 (R196). -/
def closeObstacle (a : Account) : Option Nat :=
  if a.state != .cut then some 0
  else if a.balance != 0 then some 1
  else if !a.purchases.isEmpty then some 2
  else
    match a.latch with
    | .cut => none
    | .none => none
    | .active _ => some 3
    | .hold _ => some 3

/-- ACCOUNT_CLOSE (R82): the port becomes vacant, the record is freed and the tap recomputed, and a freed record's
set overflow flag has BALANCE_OVERFLOW judged (R134). -/
def accountCloseStep (k : Nat) (s : State) : State × Reply :=
  withAccount k s fun a =>
    match closeObstacle a with
    | some c => (s, { status := .wrongState, fields := byte1 c })
    | none =>
      let freed := recompute a.address (bindPort a.address a.port none
        { s with accounts := s.accounts.filter (·.number != k) })
      (if a.overflow then judgeOverflow freed else freed, replyOk [])

/-- An open purchase as ACCOUNT_READ shows it (Table 5-2). -/
def purchaseField (p : OpenPurchase) : List Field :=
  byte1 p.event ++ byte4 p.price ++ byte4 p.time ++ byte1 (originCode p.origin) ++ optionalField byte1 p.counter

/-- The latched rate sum: present for ACTIVE and HOLD (Table 5-1). -/
def latchRate : Latch → Option Nat
  | .none => none
  | .active r => some r
  | .hold r => some r
  | .cut => none

/-- The confirmed field of ACCOUNT_READ for port p of a tap, by its definition (R84, R104); whether the node is in
OUTAGE is not asked (log entry 30). -/
def portConfirmed (t : TapRec) (p : Nat) : Bool :=
  t.switching.confirmed.any fun c => samePort (portOf c p) (portOf t.switching.desired p)

/-- ACCOUNT_READ (R84). The open purchases stand at their list's place in Table 5-1 (log entry 18). -/
def accountReadStep (k : Nat) (s : State) : State × Reply :=
  withAccount k s fun a =>
    (s, replyOk (byte4 a.number ++ byte3 a.address ++ byte1 a.port ++ byte1 (accountStateCode a.state)
      ++ tierSet2 a.tiers ++ listField purchaseField a.purchases ++ signed4 a.balance ++ byte1 a.residue
      ++ byte2 a.credited ++ flag1 a.overflow ++ byte1 (latchCode a.latch) ++ optionalField byte4 (latchRate a.latch)
      ++ (match findTap a.address s.taps with
        | some t => byte1 t.node ++ byte1 (tapModelCode t.model) ++ flag1 (portConfirmed t a.port)
            ++ flag1 t.switching.fault
        | none => [])))

def execAccountOpen (tag : Byte) (account address port : Nat) (tiers : TierSet) (state : Nat) (s : State) :
    Host.Outcome State Fault Refusal :=
  .next (serve (.accountOpen tag account address port tiers state) (accountOpenStep account address port tiers state) s)

def execAccountTiers (tag : Byte) (account : Nat) (tiers : TierSet) (s : State) : Host.Outcome State Fault Refusal :=
  .next (serve (.accountTiers tag account tiers) (accountTiersStep account tiers) s)

/-- ACCOUNT_HOLD (Table 5-3). -/
def execAccountHold (tag : Byte) (account : Nat) (s : State) : Host.Outcome State Fault Refusal :=
  .next (serve (.accountHold tag account) (accountMove [.active] .hold account) s)

/-- ACCOUNT_RESUME (Table 5-3). -/
def execAccountResume (tag : Byte) (account : Nat) (s : State) : Host.Outcome State Fault Refusal :=
  .next (serve (.accountResume tag account) (accountMove [.hold] .active account) s)

/-- ACCOUNT_CUT (Table 5-3). -/
def execAccountCut (tag : Byte) (account : Nat) (s : State) : Host.Outcome State Fault Refusal :=
  .next (serve (.accountCut tag account) (accountMove [.active, .hold] .cut account) s)

/-- ACCOUNT_RESTORE (Table 5-3). -/
def execAccountRestore (tag : Byte) (account : Nat) (s : State) : Host.Outcome State Fault Refusal :=
  .next (serve (.accountRestore tag account) (accountMove [.cut] .active account) s)

def execAccountClose (tag : Byte) (account : Nat) (s : State) : Host.Outcome State Fault Refusal :=
  .next (serve (.accountClose tag account) (accountCloseStep account) s)

def execAccountRead (tag : Byte) (account : Nat) (s : State) : Host.Outcome State Fault Refusal :=
  .next (serve (.accountRead tag account) (accountReadStep account) s)

end Sys2Proof.Machine
end

