-- ==== Sys2Proof/Machine/Meter.lean ====
section
/-! DEFINITION. The Meter: the saturating balance update, accrual and re-latching, the billing cycle's close and the GAP
record (chapter 8). -/

namespace Sys2Proof.Machine

/-- The range of a balance is -maxBalance..+maxBalance (R73). -/
def maxBalance : Int := 2000000000

/-- A balance saturated into its range (R133). -/
def saturate (v : Int) : Int := max (-maxBalance) (min maxBalance v)

/-- R133: the saturating balance update of account k by `amount`. `needed` is how many journal slots the step has
still to fill or reserve, which an OVERFLOW record must leave free. -/
def balanceUpdate (k : Nat) (amount : Int) (needed : Nat) (s : State) : State :=
  match findAccount k s.accounts with
  | none => s
  | some a =>
    let sum := a.balance + amount
    let u := changeAccount k (fun r => { r with balance := saturate sum }) s
    if saturate sum = sum || a.overflow then u
    else
      let flagged := changeAccount k (fun r => { r with overflow := true }) u
      judgeOverflow
        (if needed + 1 ≤ journalFree s.journal then plainWrite s.clock.time (.overflow k) flagged else flagged)

/-- The rate, the served minutes and the credited minutes of an accrual, for a latch and a tally (R130). -/
def accrualOf (latch : Latch) (tally : Nat) : Option (Nat × Nat × Nat) :=
  match latch with
  | .active rate => some (rate, 15 - tally, tally)
  | .hold rate => some (rate, 15, 0)
  | .cut => none
  | .none => none

/-- R131, steps 1 to 3: the charge and the new residue of an accrual. -/
def chargeOf (rate served residue : Nat) : Nat × Nat :=
  ((rate * served + residue) / 15, (rate * served + residue) % 15)

/-- R131: the accrual of account k at a tally. -/
def accrue (k tally : Nat) (s : State) : State :=
  match findAccount k s.accounts with
  | none => s
  | some a =>
    match accrualOf a.latch tally with
    | none => s
    | some (rate, served, credit) =>
      changeAccount k (fun r => { r with credited := min 65535 (r.credited + credit) })
        (balanceUpdate k (chargeOf rate served a.residue).1 0
          (changeAccount k (fun r => { r with residue := (chargeOf rate served a.residue).2 }) s))

/-- The sum of the rates of a tier set's members (R25). -/
def rateSum (t : Tariff) (tiers : TierSet) : Nat :=
  (List.range 16).foldl (fun sum k => if hasTier tiers k then sum + vecGet t.tiers k 0 else sum) 0

/-- R136: the latch of an account for the interval that starts. -/
def latchFor (t : Tariff) (a : Account) : Latch :=
  match a.state with
  | .active => .active (rateSum t a.tiers)
  | .hold => .hold t.holdRate
  | .cut => .cut

/-- R129 for one account: accrued, then re-latched from the boundary tariff. -/
def meterAccount (tally : Nat) (t : Tariff) (k : Nat) (s : State) : State :=
  changeAccount k (fun a => { a with latch := latchFor t a }) (accrue k tally s)

/-- The numbers of the accounts whose node is n, ascending (R85). -/
def accountsOfNode (s : State) (n : Nat) : List Nat :=
  (s.accounts.filter fun a => accountNode s a = some n).map (·.number)

/-- R135: the boundary tariff for B is fixed, unless the one held already belongs to B. -/
def fixBoundaryTariff (b : Nat) (s : State) : State :=
  { s with meter :=
      { s.meter with boundaryTariff :=
          if s.meter.boundaryTariff.all (·.start < b) then some { start := b, tariff := tariffFor b s.lineup }
          else s.meter.boundaryTariff } }

/-- The tariff the Meter holds. -/
def heldTariff (s : State) : Tariff := (s.meter.boundaryTariff.map (·.tariff)).getD coldTariff

/-- One tally message taken whole (R129). -/
def takeTally (m : TallyMessage) (s : State) : State :=
  let u := fixBoundaryTariff (m.start + 900) s
  (accountsOfNode u m.node).foldl (fun v k => meterAccount m.tally (heldTariff u) k v) u

/-- METER_TALLY_TAKE (R129): the oldest tally message handed is taken. -/
def meterTallyTakeStep (s : State) : State :=
  match s.due.tallies with
  | [] => s
  | m :: rest => takeTally m { s with due := { s.due with tallies := rest } }

def execMeterTallyTake (s : State) : Host.Outcome State Fault Refusal := .next (whenRunning meterTallyTakeStep s)

/-- GAP_RECORD (R142): the GAP record owed at a restart is written if a slot is free, and otherwise skipped. -/
def gapRecordStep (s : State) : State :=
  if s.due.gapRecord then
    let u := { s with due := { s.due with gapRecord := false } }
    match s.clock.resetTime, s.clock.restartTime with
    | some r, some t => plainWrite t (.gap r t) u
    | _, _ => u
  else s

def execGapRecord (s : State) : Host.Outcome State Fault Refusal := .next (whenRunning gapRecordStep s)

/-- R139 for one account: its CYCLE_CLOSE record, then its fields. -/
def closeAccount (k : Nat) (s : State) : State :=
  match findAccount k s.accounts with
  | none => s
  | some a =>
    changeAccount k (fun r => { r with balance := 0, credited := 0, overflow := false })
      (plainWrite s.clock.time (.cycleClose k a.balance a.credited a.overflow) s)

/-- CYCLE_CLOSE (R138, R139). -/
def cycleCloseStep (low high : Nat) (s : State) : State × Reply :=
  if !accountInRange low || !accountInRange high || high < low then (s, refusal .outOfRange)
  else
    let numbers := (s.accounts.filter fun a => within low high a.number).map (·.number)
    let free := journalFree s.journal
    if free < numbers.length then
      (s, { status := .journalFull, fields := byte2 numbers.length ++ byte2 free })
    else
      (judgeOverflow (numbers.foldl (fun u k => closeAccount k u) s),
        replyOk (byte2 numbers.length
          ++ optionalField byte4 (if numbers.isEmpty then none else some s.journal.nextSequence)))

def execCycleClose (tag : Byte) (low high : Nat) (s : State) : Host.Outcome State Fault Refusal :=
  .next (serve (.cycleClose tag low high) (cycleCloseStep low high) s)

end Sys2Proof.Machine
end

