-- ==== Sys2Proof/Machine/Events.lean ====
section
/-! DEFINITION. The Event Table: adding events, their lifecycle at minute ends, purchases, settlement, cancellation and
the step at a restart (chapter 9). -/

namespace Sys2Proof.Machine

/-! ### Times of an event (section 9.1) -/

def endTime (e : EventRec) : Nat := e.start + 60 * e.duration

def closeTime (e : EventRec) : Nat := e.start + 60 * e.window

/-- The state with event e's record changed by `f`. -/
def changeEvent (e : Nat) (f : EventRec → EventRec) (s : State) : State :=
  { s with events := modifyEvent e f s.events }

/-- The state with event e's record freed (R144). -/
def freeEvent (e : Nat) (s : State) : State := { s with events := s.events.filter (·.id != e) }

/-! ### Adding an event (R146) -/

/-- The record an EVENT_ADD creates. -/
def newEvent (id channel start duration window price threshold : Nat) : EventRec :=
  { id := id, channel := channel, start := start, duration := duration, window := window, price := price,
    threshold := threshold, state := .onSale, counters := Vector.replicate 32 0, holders := [] }

/-- Check 2 of R146. -/
def eventInRange (e : EventRec) (now : Nat) : Bool :=
  within 1 255 e.id && within 1 999 e.channel && within 1 480 e.duration && e.window ≤ 60 && e.price ≤ 50000000
    && within 1 480 e.threshold && e.start % 60 = 0 && now < e.start && endTime e ≤ lastMinute

/-- The lowest held event on the same channel whose window overlaps (R146, check 6). -/
def overlappingEvent (e : EventRec) (events : List EventRec) : Option Nat :=
  (events.find? fun h => h.channel = e.channel && h.start < endTime e && e.start < endTime h).map (·.id)

/-- EVENT_ADD (R146). Its reply's close time may lie beyond the last second of a time (log entry 25). -/
def eventAddStep (e : EventRec) (s : State) : State × Reply :=
  if s.clock.state = .unset then (s, refusal .timeUnset)
  else if !eventInRange e s.clock.time then (s, refusal .outOfRange)
  else if (findEvent e.id s.events).isSome then (s, refusal .existing)
  else if !isPpv e.channel s.lineup.active then (s, refusal .conflict)
  else if s.lineup.scheduled.any (· < endTime e) && !isPpv e.channel s.lineup.staged then (s, refusal .conflict)
  else
    match overlappingEvent e s.events with
    | some h => (s, { status := .conflict, fields := byte1 h })
    | none =>
      if 32 ≤ s.events.length then (s, refusal .tableFull)
      else
        ({ s with events := insertEvent e s.events }, replyOk (byte4 (endTime e) ++ byte4 (closeTime e)))

/-! ### Purchases (R150 to R153) -/

/-- Whether an account's open purchase list holds an event. -/
def holdsEvent (a : Account) (e : Nat) : Bool := a.purchases.any (·.event = e)

/-- R150: a purchase of event e by account a is accepted. -/
def acceptPurchase (a : Account) (e : EventRec) (origin : Origin) (counter : Option Nat) (s : State) : State :=
  let now := s.clock.time
  let charged := balanceUpdate a.number e.price 2 s
  let journaled := takeReservation (plainWrite now (.purchase a.number e.id e.price origin) charged)
  let bought : OpenPurchase := { event := e.id, price := e.price, time := now, origin := origin, counter := counter }
  recompute a.address
    (changeEvent e.id (fun r => { r with holders := r.holders ++ [a.number] })
      (changeAccount a.number (fun r => { r with purchases := r.purchases ++ [bought] }) journaled))

/-- The verdict on a plant PURCHASE (R151), and the account and event of one that is accepted by case 9. -/
def purchaseVerdict (p : PlantPurchase) (s : State) : Verdict × Option (Account × EventRec) :=
  match findEvent p.event s.events with
  | none => (.refused .closed, none)
  | some e =>
    match (boundAccount s p.address p.port).bind fun k => findAccount k s.accounts with
    | none => (.refused .notActive, none)
    | some a =>
      if holdsEvent a e.id then (.accepted, none)
      else if e.state = .runningClosed then (.refused .closed, none)
      else if a.state != .active then (.refused .notActive, none)
      else if (findTap a.address s.taps).any (·.model != .event) then (.refused .notCapable, none)
      else if 2 ≤ a.purchases.length then (.refused .limit, none)
      else if journalFree s.journal < 2 then (.deferred, none)
      else (.accepted, some (a, e))

/-- An answer joins the purchase-answer queue in its reserved place (R46, R47). -/
def returnAnswer (p : PlantPurchase) (verdict : Verdict) (s : State) : State :=
  { s with carrier :=
      { s.carrier with
        answers := s.carrier.answers ++
          [{ address := p.address, port := p.port, event := p.event, verdict := verdict }],
        reserved := s.carrier.reserved - 1 } }

/-- A handed purchase decided (R151). -/
def decidePurchase (p : PlantPurchase) (s : State) : State :=
  match purchaseVerdict p s with
  | (verdict, none) => returnAnswer p verdict s
  | (verdict, some (a, e)) => returnAnswer p verdict (acceptPurchase a e .plant (some p.counter) s)

/-- PURCHASE_DECIDE (R151): the oldest purchase handed to the Event Table is decided. -/
def purchaseDecideStep (s : State) : State :=
  match s.due.purchases with
  | [] => s
  | p :: rest => decidePurchase p { s with due := { s.due with purchases := rest } }

def execPurchaseDecide (s : State) : Host.Outcome State Fault Refusal := .next (whenRunning purchaseDecideStep s)

/-- PURCHASE_ENTER (R153). -/
def purchaseEnterStep (k e : Nat) (s : State) : State × Reply :=
  if s.clock.state = .unset then (s, refusal .timeUnset)
  else if !accountInRange k || !within 1 255 e then (s, refusal .outOfRange)
  else
    match findAccount k s.accounts with
    | none => (s, refusal .notFound)
    | some a =>
      match findEvent e s.events with
      | none => (s, refusal .notFound)
      | some ev =>
        if holdsEvent a e then (s, refusal .existing)
        else if a.state != .active then (s, refusal .wrongState)
        else if ev.state = .runningClosed then (s, refusal .wrongState)
        else if (findTap a.address s.taps).any (·.model != .event) then (s, refusal .notCapable)
        else if 2 ≤ a.purchases.length then (s, refusal .tableFull)
        else if journalFree s.journal < 2 then
          (s, { status := .journalFull, fields := byte2 (journalFree s.journal) })
        else
          let charged := balanceUpdate k ev.price 2 s
          (acceptPurchase a ev .host none s, replyOk (byte4 ev.price ++ byte4 charged.journal.nextSequence))

/-! ### Settlement (R155) and cancellation (R157) -/

/-- The purchase of event e that account a holds. -/
def purchaseOf (a : Account) (e : Nat) : Option OpenPurchase := a.purchases.find? (·.event = e)

/-- The price charged is subtracted and a reservation becomes the REFUND record (R155 step 1, R157). -/
def refund (k e price : Nat) (cause : RefundCause) (s : State) : State :=
  let updated := balanceUpdate k (-(price : Int)) 0 s
  convertReservation updated.clock.time (.refund k e price cause) updated

/-- The purchase leaves the account's list and the account's tap is recomputed (R155 steps 3 and 4, R157). -/
def dropPurchase (a : Account) (e : Nat) (s : State) : State :=
  recompute a.address
    (changeAccount a.number (fun r => { r with purchases := r.purchases.filter (·.event != e) }) s)

/-- R155 for one holder. -/
def settleHolder (e : EventRec) (k : Nat) (s : State) : State :=
  match findAccount k s.accounts with
  | none => s
  | some a =>
    match purchaseOf a e.id with
    | none => s
    | some p =>
      let minutes := ((accountNode s a).map fun n => vecGet e.counters (n - 1) 0).getD 0
      dropPurchase a e.id
        (if e.threshold ≤ minutes then refund k e.id p.price .settled s else releaseReservation s)

/-- R155: the event is settled, holder by holder, and freed. -/
def settle (e : EventRec) (s : State) : State :=
  freeEvent e.id (e.holders.foldl (fun u k => settleHolder e k u) s)

/-- R157 for one holder. -/
def cancelHolder (e : EventRec) (k : Nat) (s : State) : State :=
  match findAccount k s.accounts with
  | none => s
  | some a =>
    match purchaseOf a e.id with
    | none => s
    | some p => dropPurchase a e.id (refund k e.id p.price .cancelled s)

/-- EVENT_CANCEL (R157). -/
def eventCancelStep (id : Nat) (s : State) : State × Reply :=
  if !within 1 255 id then (s, refusal .outOfRange)
  else
    match findEvent id s.events with
    | none => (s, refusal .notFound)
    | some e =>
      (freeEvent id (e.holders.foldl (fun u k => cancelHolder e k u) s), replyOk (byte2 e.holders.length))

/-! ### Minute ends (R147 to R149) -/

/-- Whether an event's channel is dark in a sample: its source in ACTIVE is among the LOST inputs (R149). -/
def isDark (l : Lineup) (sample : MinuteSample) (e : EventRec) : Bool :=
  (sourceOf e.channel l.active).any fun i => sample.inputs.contains i

/-- The counters of an event raised by `minutes` for the nodes that satisfy `p`, saturating at the duration. -/
def raiseCounters (p : Nat → Bool) (minutes : Nat) (e : EventRec) : EventRec :=
  { e with counters := vecMapIdx (fun i v => if p (i + 1) then min e.duration (v + minutes) else v) e.counters }

/-- R149: the minute ending at `t` is counted for a running event. -/
def countMinute (l : Lineup) (sample : MinuteSample) (t : Nat) (e : EventRec) : EventRec :=
  if e.state != .onSale && t ≤ endTime e then
    raiseCounters (fun n => isDark l sample e || sample.nodes.contains n) 1 e
  else e

/-- R148, step 1. -/
def advanceOpen (t : Nat) (e : EventRec) : EventRec :=
  if e.state = .onSale && e.start ≤ t then { e with state := .runningOpen } else e

/-- R148, step 2. -/
def advanceClosed (t : Nat) (e : EventRec) : EventRec :=
  if e.state = .runningOpen && closeTime e ≤ t then { e with state := .runningClosed } else e

/-- The taps of the holders, in list order, are recomputed (R148). -/
def handHolders (holders : List Nat) (s : State) : State :=
  holders.foldl (fun u k => match findAccount k u.accounts with
    | some a => recompute a.address u
    | none => u) s

/-- One event changed by `f`, its holders' taps handed when its state changes (R148). -/
def advanceEvent (id : Nat) (f : EventRec → EventRec) (s : State) : State :=
  match findEvent id s.events with
  | none => s
  | some e =>
    let moved := changeEvent id f s
    if (f e).state = e.state then moved else handHolders e.holders moved

/-- The event is settled if `t` has reached its end time (R148, step 3). -/
def settleAt (t id : Nat) (s : State) : State :=
  match findEvent id s.events with
  | none => s
  | some e => if endTime e ≤ t then settle e s else s

/-- R149 and then R148 for one event at minute end `t`. -/
def eventAtMinute (t id : Nat) (s : State) : State :=
  settleAt t id
    (advanceEvent id (advanceClosed t)
      (advanceEvent id (advanceOpen t)
        (changeEvent id (countMinute s.lineup s.sample t) s)))

/-- R147: the minute end `t` is taken, each held event in ascending order of id. -/
def takeEventMinute (t : Nat) (s : State) : State :=
  let u := fixSample t s
  (u.events.map (·.id)).foldl (fun v id => eventAtMinute t id v) u

/-- EVENT_MINUTE_END (R147): the oldest minute end handed to the Event Table is taken. -/
def eventMinuteEndStep (s : State) : State :=
  match s.due.eventEnds with
  | [] => s
  | m :: rest => takeEventMinute m.time { s with due := { s.due with eventEnds := rest } }

def execEventMinuteEnd (s : State) : Host.Outcome State Fault Refusal := .next (whenRunning eventMinuteEndStep s)

/-! ### The step at a restart (R160) -/

/-- The whole minutes, any part rounded up, that an event's window overlaps the downtime. -/
def downtimeMinutes (resetTime restartTime : Nat) (e : EventRec) : Nat :=
  (min restartTime (endTime e) - max resetTime e.start + 59) / 60

/-- R160 for one event: the credit, the advance without handing taps, and settlement. -/
def eventAtRestart (resetTime restartTime id : Nat) (s : State) : State :=
  settleAt restartTime id
    (changeEvent id (fun e =>
      advanceClosed restartTime (advanceOpen restartTime
        (raiseCounters (fun _ => true) (downtimeMinutes resetTime restartTime e) e))) s)

/-- RESTART_EVENT_STEP (R160). -/
def restartEventStepStep (s : State) : State :=
  if s.due.restartStep then
    let u := { s with due := { s.due with restartStep := false } }
    match s.clock.resetTime, s.clock.restartTime with
    | some r, some t => (u.events.map (·.id)).foldl (fun v id => eventAtRestart r t id v) u
    | _, _ => u
  else s

def execRestartEventStep (s : State) : Host.Outcome State Fault Refusal := .next (whenRunning restartEventStepStep s)

/-! ### Reading events (R158) -/

/-- EVENT_READ (R158). The close time may lie beyond the last second of a time (log entry 25). -/
def eventReadStep (id start : Nat) (s : State) : State × Reply :=
  if !within 1 255 id || 1023 < start then (s, refusal .outOfRange)
  else
    match findEvent id s.events with
    | none => (s, refusal .notFound)
    | some e =>
      (s, replyOk (byte1 e.id ++ byte2 e.channel ++ byte4 e.start ++ byte2 e.duration ++ byte1 e.window ++ byte4 e.price
        ++ byte2 e.threshold ++ byte1 (eventStateCode e.state) ++ arrayField byte2 e.counters.toList
        ++ byte4 (endTime e) ++ byte4 (closeTime e) ++ byte2 e.holders.length
        ++ listField byte4 ((e.holders.drop start).take 32)
        ++ optionalField byte2 (if start + 32 < e.holders.length then some (start + 32) else none)))

/-- An event as EVENT_LIST shows it (R158). -/
def eventSummary (e : EventRec) : List Field :=
  byte1 e.id ++ byte2 e.channel ++ byte4 e.start ++ byte4 (endTime e) ++ byte1 (eventStateCode e.state)
    ++ byte2 e.holders.length

/-- EVENT_LIST (R158). The events are sent as a list, behind a count byte (log entry 18). -/
def eventListStep (s : State) : State × Reply := (s, replyOk (listField eventSummary s.events))

/-! ### The requests -/

def execEventAdd (tag : Byte) (event channel start duration window price threshold : Nat) (s : State) :
    Host.Outcome State Fault Refusal :=
  .next (serve (.eventAdd tag event channel start duration window price threshold)
    (eventAddStep (newEvent event channel start duration window price threshold)) s)

def execEventCancel (tag : Byte) (event : Nat) (s : State) : Host.Outcome State Fault Refusal :=
  .next (serve (.eventCancel tag event) (eventCancelStep event) s)

def execEventRead (tag : Byte) (event start : Nat) (s : State) : Host.Outcome State Fault Refusal :=
  .next (serve (.eventRead tag event start) (eventReadStep event start) s)

def execEventList (tag : Byte) (s : State) : Host.Outcome State Fault Refusal :=
  .next (serve (.eventList tag) eventListStep s)

def execPurchaseEnter (tag : Byte) (account event : Nat) (s : State) : Host.Outcome State Fault Refusal :=
  .next (serve (.purchaseEnter tag account event) (purchaseEnterStep account event) s)

end Sys2Proof.Machine
end

