-- ==== Sys2Proof/Machine/Directory.lean ====
section
/-! DEFINITION. The Tap Directory and the Poll Scheduler: adding, removing and reading units, passes and their orders,
probe mode, and the landing of replies (chapter 4). -/

namespace Sys2Proof.Machine

/-! ### Adding and removing units (R52 to R54) -/

/-- The record of a new tap (R52), with its switching record (R92). -/
def newTap (address node : Nat) (model : TapModel) : TapRec :=
  { address := address, node := node, model := model, ports := Vector.replicate 4 none, state := .unknown, miss := 0,
    last := none, current := none, previous := none, version := none, stale := true,
    switching := freshSwitch settingOff }

/-- The next-pass list changed by `f`. -/
def changeNextList (f : List PassEntry → List PassEntry) (s : State) : State :=
  { s with sched := { s.sched with next := f s.sched.next } }

/-- TAP_ADD (R52). -/
def tapAddStep (address node model : Nat) (s : State) : State × Reply :=
  if !addressInRange address || !within 1 32 node then (s, refusal .outOfRange)
  else
    match tapModelOf model with
    | none => (s, refusal .outOfRange)
    | some m =>
      if (findTap address s.taps).isSome || (transponderNode address s).isSome then (s, refusal .existing)
      else if 512 ≤ s.taps.length then (s, refusal .tableFull)
      else
        (changeNextList (· ++ [{ kind := .tap, address := address, node := node }])
          { s with taps := insertTap (newTap address node m) s.taps }, replyOk [])

/-- R68: a tap's state change is reported to the Outage Monitor, which re-evaluates the node. -/
def setTapState (t : TapRec) (state : UnitState) (s : State) : State :=
  let u := { s with taps := modifyTap t.address (fun r => { r with state := state }) s.taps }
  if t.state = state then u else reevaluate t.node u

/-- TAP_REMOVE (R53). -/
def tapRemoveStep (address : Nat) (s : State) : State × Reply :=
  if !addressInRange address then (s, refusal .outOfRange)
  else
    match findTap address s.taps with
    | none => (s, refusal .notFound)
    | some t =>
      if t.state = .removing || t.ports.toList.any (·.isSome) then (s, refusal .wrongState)
      else
        (withdraw t (setTapState t .removing
          (changeNextList (fun l => l.filter fun e => !(e.kind = .tap && e.address = address)) s)), replyOk [])

/-- A transponder given an address (R54). -/
def freshTransponder (address : Nat) : TransponderRec := { absentTransponder with address := some address }

/-- Whether a tap record, or the transponder record of a node other than n, holds an address (R54, check 2). -/
def addressTaken (n address : Nat) (s : State) : Bool :=
  (findTap address s.taps).isSome || (upTo 32).any fun m => m != n && (transponderOf s m).address = some address

/-- TRANSPONDER_SET (R54). No address is `none`, and an address of 0 is out of range (log entry 29). -/
def transponderSetStep (n : Nat) (address : Option Nat) (s : State) : State × Reply :=
  if !within 1 32 n || address.any fun a => !addressInRange a then (s, refusal .outOfRange)
  else if address.any fun a => addressTaken n a s then (s, refusal .existing)
  else
    let r := transponderOf s n
    match r.address, r.state, address with
    | none, _, some a =>
      (changeNextList (· ++ [{ kind := .transponder, address := a, node := n }])
        (modifyTransponder n (fun _ => freshTransponder a) s), replyOk [])
    | none, _, none => (s, replyOk [])
    | some _, .removing, some _ => (s, refusal .wrongState)
    | some _, .removing, none => (s, replyOk [])
    | some held, _, some a => if held = a then (s, replyOk []) else (s, refusal .wrongState)
    | some _, _, none =>
      (changeNextList (fun l => l.filter fun e => !(e.kind = .transponder && e.node = n))
        (modifyTransponder n (fun r => { r with state := .removing }) s), replyOk [])

/-! ### Passes (R56 to R60) -/

/-- The number of binary digits of a SPREAD pass: N = 2 to this power is the smallest power of two that is at least L
(R57). -/
def spreadBits (l : Nat) : Nat := ((List.range 10).find? fun b => l ≤ 2 ^ b).getD 10

/-- The number of visits a pass over L positions makes (R57). -/
def visitCount (order : PollOrder) (l : Nat) : Nat :=
  match order with
  | .linear => l
  | .spread => 2 ^ spreadBits l

/-- The value whose `bits` binary digits are those of `k` in reverse order (R57). -/
def reverseDigits : Nat → Nat → Nat
  | 0, _ => 0
  | bits + 1, k => k % 2 * 2 ^ bits + reverseDigits bits (k / 2)

/-- The position that visit k of a pass over L positions names (R57). -/
def visitPosition (order : PollOrder) (l k : Nat) : Nat :=
  match order with
  | .linear => k
  | .spread => reverseDigits (spreadBits l) k

/-- The number of visits of the current pass. -/
def passVisits (sc : Scheduler) : Nat := visitCount sc.orderInForce sc.current.length

/-- Whether an entry's unit is in REMOVING, or has no record. -/
def entryGone (s : State) (e : PassEntry) : Bool :=
  match e.kind with
  | .tap => (findTap e.address s.taps).all (·.state = .removing)
  | .transponder =>
    (transponderOf s e.node).address != some e.address || (transponderOf s e.node).state = .removing

/-- Node n's probe mark. -/
def probeMark (s : State) (n : Nat) : Bool := vecGet s.sched.probeMarks (n - 1) false

/-- What the scheduler makes of visit k: the entry to be polled, and whether as a probe; `none` when the visit is
stepped over (R58, R60). -/
def visitOffer (s : State) (k : Nat) : Option PollInFlight :=
  match s.sched.current[visitPosition s.sched.orderInForce s.sched.current.length k]? with
  | none => none
  | some e =>
    if entryGone s e then none
    else if (nodeOf s e.node).state = .outage then
      if probeMark s e.node then none else some { entry := e, probe := true }
    else some { entry := e, probe := false }

/-- The first visit from `k` on, within `fuel` visits, that names an entry to be polled (R58). -/
def nextOffer (s : State) : Nat → Nat → Option (Nat × PollInFlight)
  | 0, _ => none
  | fuel + 1, k =>
    match visitOffer s k with
    | some p => some (k, p)
    | none => nextOffer s fuel (k + 1)

/-- The cursor set. -/
def setCursor (k : Nat) (s : State) : State := { s with sched := { s.sched with cursor := k } }

/-- The look from the cursor: it moves past what it steps over (R58). -/
def look (s : State) : State × Option PollInFlight :=
  match nextOffer s (passVisits s.sched - s.sched.cursor) s.sched.cursor with
  | some (k, p) => (setCursor k s, some p)
  | none => (setCursor (max s.sched.cursor (passVisits s.sched)) s, none)

/-- The nodes whose transponder is in REMOVING. -/
def removingTransponders (s : State) : List Nat :=
  (upTo 32).filter fun n => (transponderOf s n).address.isSome && (transponderOf s n).state = .removing

/-- A transponder record as a pass end or a retained reset finds it in REMOVING loses its address (R59, R70). -/
def dropRemoving (r : TransponderRec) : TransponderRec := if r.state = .removing then absentTransponder else r

/-- The pass count that follows (R59). -/
def nextPassCount (c : Nat) : Nat := if c = 4294967295 then 0 else c + 1

/-- R59: a pass end. The Outage Monitor has notice of each transponder that loses its address, in ascending order of
node (R120; log entry 14). -/
def passEnd (s : State) : State :=
  (removingTransponders s).foldl (fun u n => loseTransponder n u)
    { s with
      taps := s.taps.filter (·.state != .removing),
      transponders := vecMap dropRemoving s.transponders,
      sched := { s.sched with
        passCount := nextPassCount s.sched.passCount,
        current := s.sched.next,
        orderInForce := s.sched.orderSelected,
        probeMarks := Vector.replicate 32 false,
        cursor := 0 } }

/-- R58: the scheduler's offer at the opening of a working slot, with a pass end taken when no entry remains. -/
def pollOffer (s : State) : State × Option PollInFlight :=
  if s.sched.state = .running then
    match look s with
    | (u, some p) => (u, some p)
    | (u, none) => if u.sched.current.isEmpty && u.sched.next.isEmpty then (u, none) else look (passEnd u)
  else (s, none)

/-- The offered entry is polled: it is in flight, the cursor moves past it, and a probe sets its node's mark (R58,
R60). -/
def takePoll (p : PollInFlight) (s : State) : State :=
  { s with sched := { s.sched with
      inFlight := some p,
      cursor := s.sched.cursor + 1,
      probeMarks :=
        if p.probe then vecModify s.sched.probeMarks (p.entry.node - 1) fun _ => true else s.sched.probeMarks } }

/-! ### Landing replies (R65 to R67) -/

/-- The classification of a window's result. -/
def classificationOf : WindowResult → Classification
  | .good _ => .good
  | .garbled => .garbled
  | .none => .none

/-- A GOOD STATUS landed on a tap's record (R65, steps 1 and 2). -/
def landStatus (status : TapStatus) (t : TapRec) : TapRec :=
  { t with previous := t.current, current := some status, version := some status.version }

/-- The state a unit takes on NONE with a new miss count (Table 4-5). -/
def missState (limit miss : Nat) : UnitState := if miss < limit then .missing else .silent

/-- A reply landed on the tap with address `a` (R65, R66, and R67 for a tap in REMOVING). -/
def landTap (t : TapRec) (probe : Bool) (result : WindowResult) (s : State) : State :=
  let a := t.address
  let change (f : TapRec → TapRec) : State := { s with taps := modifyTap a f s.taps }
  let answered (u : State) : State := if probe then probeAnswer t.node a u else u
  match result with
  | .good (.tapStatus status) =>
    let landed := change fun r => { landStatus status r with last := some .good }
    if t.state = .removing then landed
    else
      answered (reconcile a status.ports (setTapState t .online
        { landed with taps := modifyTap a (fun r => { r with miss := 0 }) landed.taps }))
  | .good _ => s
  | .garbled =>
    if t.state = .removing then change fun r => { r with last := some .garbled }
    else answered (setTapState t .online (change fun r => { r with last := some .garbled, miss := 0 }))
  | .none =>
    if t.state = .removing then change fun r => { r with last := some .none }
    else
      let miss := min 15 (t.miss + 1)
      setTapState t (missState (nodeOf s t.node).thresholds.missLimit miss)
        (change fun r => { r with last := some .none, miss := miss })

/-- A reply landed on node n's transponder (R67). -/
def landTransponder (n a : Nat) (probe : Bool) (result : WindowResult) (s : State) : State :=
  let r := transponderOf s n
  let answered (u : State) : State := if probe then probeAnswer n a u else u
  match result with
  | .good (.transponderStatus _ reading) =>
    let landed := modifyTransponder n
      (fun r => { r with previous := r.current, current := some reading, last := some .good }) s
    if r.state = .removing then landed
    else
      answered (takeReading n reading (modifyTransponder n (fun r => { r with state := .online, miss := 0 }) landed))
  | .good _ => s
  | .garbled =>
    let landed := modifyTransponder n (fun r => { r with last := some .garbled }) s
    if r.state = .removing then landed
    else answered (modifyTransponder n (fun r => { r with state := .online, miss := 0 }) landed)
  | .none =>
    let landed := modifyTransponder n (fun r => { r with last := some .none }) s
    if r.state = .removing then landed
    else
      let miss := min 15 (r.miss + 1)
      modifyTransponder n
        (fun r => { r with state := missState (nodeOf s n).thresholds.missLimit miss, miss := miss }) landed

/-- The reply is landed on the record of the address polled (section 4.6). -/
def landReply (a : Nat) (probe : Bool) (result : WindowResult) (s : State) : State :=
  match findTap a s.taps with
  | some t => landTap t probe result s
  | none =>
    match transponderNode a s with
    | some n => landTransponder n a probe result s
    | none => s

/-- The poll in flight ends; a SUSPENDING scheduler becomes STOPPED (R63). -/
def endPoll (s : State) : State :=
  { s with sched := { s.sched with
      inFlight := none,
      state := if s.sched.state = .suspending then .stopped else s.sched.state } }

/-- The result of a POLL's window (R44, R65 to R67, R63). -/
def pollResult (a : Nat) (result : WindowResult) (s : State) : State :=
  endPoll (landReply a (s.sched.inFlight.any (·.probe)) result s)

/-! ### Reading and the scheduler's requests (R55, R57, R62 to R64) -/

/-- The position of a tap in the command queue from the oldest end, counting from 1 (R104). -/
def queuePosition (a : Nat) (queue : List Nat) : Option Nat := (queue.findIdx? (· = a)).map (· + 1)

/-- A tap as TAP_READ shows it: Table 4-1 (R55) and its switching record (R104). That the switching record stands behind
the table's last field, and that each of the four port bindings is an optional account number, a vacant port being
absent, is log entry 18. -/
def tapFields (s : State) (t : TapRec) : List Field :=
  byte3 t.address ++ byte1 t.node ++ byte1 (tapModelCode t.model) ++ arrayField (optionalField byte4) t.ports.toList
    ++ byte1 (unitStateCode t.state) ++ byte1 t.miss
    ++ optionalField (fun c => byte1 (classificationCode c)) t.last
    ++ optionalField statusField t.current ++ optionalField statusField t.previous
    ++ optionalField byte1 t.version ++ flag1 t.stale
    ++ settingField t.switching.desired ++ optionalField settingField t.switching.confirmed
    ++ byte1 t.switching.serial ++ flag1 t.switching.inFlight
    ++ optionalField byte2 (queuePosition t.address s.commandQueue)
    ++ byte2 t.switching.attempts ++ flag1 t.switching.fault

/-- A transponder as TAP_READ shows it: Table 4-2 (R55). -/
def transponderFields (n : Nat) (r : TransponderRec) : List Field :=
  byte1 n ++ optionalField byte3 r.address ++ byte1 (unitStateCode r.state) ++ byte1 r.miss
    ++ optionalField (fun c => byte1 (classificationCode c)) r.last
    ++ optionalField readingField r.current ++ optionalField readingField r.previous

/-- TAP_READ (R55, R104). -/
def tapReadStep (address : Nat) (s : State) : State × Reply :=
  if !addressInRange address then (s, refusal .outOfRange)
  else
    match findTap address s.taps with
    | some t => (s, replyOk (tapFields s t))
    | none =>
      match transponderNode address s with
      | some n => (s, replyOk (transponderFields n (transponderOf s n)))
      | none => (s, refusal .notFound)

/-- POLL_ORDER (R57). -/
def pollOrderStep (order : Nat) (s : State) : State × Reply :=
  match pollOrderOf order with
  | none => (s, refusal .outOfRange)
  | some o => ({ s with sched := { s.sched with orderSelected := o } }, replyOk [])

/-- The scheduler's state set. -/
def setSchedState (state : SchedulerState) (s : State) : State := { s with sched := { s.sched with state := state } }

/-- POLL_START (R62). -/
def pollStartStep (s : State) : State × Reply :=
  if s.sched.state = .running then (s, refusal .wrongState) else (setSchedState .running s, replyOk [])

/-- POLL_SUSPEND (R63). -/
def pollSuspendStep (s : State) : State × Reply :=
  if s.sched.state = .running then
    let reached := if s.sched.inFlight.isSome then SchedulerState.suspending else .stopped
    (setSchedState reached s, replyOk (byte1 (schedulerStateCode reached)))
  else (s, refusal .wrongState)

/-- An entry as POLL_READ shows it (R64). -/
def passEntryField (e : PassEntry) : List Field := byte1 (unitKindCode e.kind) ++ byte3 e.address ++ byte1 e.node

/-- POLL_READ (R64): list 0 is CURRENT and list 1 is NEXT. Of the lengths of both lists the current list's is sent first
(log entry 18). -/
def pollReadStep (list start : Nat) (s : State) : State × Reply :=
  if 543 < start || 1 < list then (s, refusal .outOfRange)
  else
    let sc := s.sched
    let entries := if list = 0 then sc.current else sc.next
    (s, replyOk (byte1 (schedulerStateCode sc.state) ++ byte1 (pollOrderCode sc.orderInForce)
      ++ byte1 (pollOrderCode sc.orderSelected) ++ byte4 sc.passCount ++ byte2 sc.cursor ++ byte2 (passVisits sc)
      ++ byte2 sc.current.length ++ byte2 sc.next.length
      ++ listField passEntryField ((entries.drop start).take 32)))

def execTapAdd (tag : Byte) (address node model : Nat) (s : State) : Host.Outcome State Fault Refusal :=
  .next (serve (.tapAdd tag address node model) (tapAddStep address node model) s)

def execTapRemove (tag : Byte) (address : Nat) (s : State) : Host.Outcome State Fault Refusal :=
  .next (serve (.tapRemove tag address) (tapRemoveStep address) s)

def execTransponderSet (tag : Byte) (node : Nat) (address : Option Nat) (s : State) :
    Host.Outcome State Fault Refusal :=
  .next (serve (.transponderSet tag node address) (transponderSetStep node address) s)

def execTapRead (tag : Byte) (address : Nat) (s : State) : Host.Outcome State Fault Refusal :=
  .next (serve (.tapRead tag address) (tapReadStep address) s)

def execPollOrder (tag : Byte) (order : Nat) (s : State) : Host.Outcome State Fault Refusal :=
  .next (serve (.pollOrder tag order) (pollOrderStep order) s)

def execPollStart (tag : Byte) (s : State) : Host.Outcome State Fault Refusal :=
  .next (serve (.pollStart tag) pollStartStep s)

def execPollSuspend (tag : Byte) (s : State) : Host.Outcome State Fault Refusal :=
  .next (serve (.pollSuspend tag) pollSuspendStep s)

def execPollRead (tag : Byte) (list start : Nat) (s : State) : Host.Outcome State Fault Refusal :=
  .next (serve (.pollRead tag list start) (pollReadStep list start) s)

end Sys2Proof.Machine
end

