-- ==== Sys2Proof/Machine/Carrier.lean ====
section
/-! DEFINITION. The Control Carrier: slots, the slot arbiter and reply windows (chapter 3), and the taking of a
switchover with its notices (R23, R24), which reach every block up to the carrier. -/

namespace Sys2Proof.Machine

/-! ### Slots (R33 to R36) -/

/-- The use of a slot by its index (Table 3-1). -/
inductive SlotUse where
  | carousel
  | working
  | contention
  deriving DecidableEq, Repr

def slotUse (i : Nat) : SlotUse :=
  if i = 0 ∨ i = 8 then .carousel else if i = 15 then .contention else .working

/-- The index of the slot that opens: the first after a reset is 0, and 15 is followed by 0 (R33). -/
def nextSlot (i : Option Nat) : Nat :=
  match i with
  | none => 0
  | some k => if k = 15 then 0 else k + 1

/-- The slot with index i opens; index 0 opens a new frame (R33). -/
def openSlot (i : Nat) (s : State) : State :=
  { s with carrier := { s.carrier with
      slotIndex := some i, frameTapSets := if i = 0 then 0 else s.carrier.frameTapSets } }

/-- A packet handed to the modulator, with the reply expectation it records (R33, R34). -/
def sendPacket (p : Packet) (e : Option Expectation) (s : State) : State :=
  { s with carrier := { s.carrier with modulator := packetBytes p, expectation := e } }

/-- A carousel slot (R35). -/
def carouselSlot (s : State) : State :=
  let (slice, following) := sliceAt s.carrier.cursor s.lineup
  sendPacket (.slice slice) none { s with carrier := { s.carrier with cursor := following } }

/-- The contention slot (R34, R42). -/
def contentionSlot (s : State) : State :=
  sendPacket (.idle true) (some { owner := .eventTable, address := none, kind := .purchase }) s

/-- R36, case 1: the oldest answer leaves the queue and is sent. -/
def sendAnswer (a : Answer) (rest : List Answer) (s : State) : State :=
  sendPacket (.answer a) none { s with carrier := { s.carrier with answers := rest } }

/-- R36, cases 2 and 4, with R96: a TAP_SET for the tap offered. -/
def sendTapSet (t : TapRec) (s : State) : State :=
  let u := modifySwitch t.address sendStep s
  sendPacket (.tapSet t.address (nextSerial t.switching.serial) t.switching.desired)
    (some { owner := .switchingEngine, address := some t.address, kind := .ack })
    { u with carrier := { u.carrier with frameTapSets := u.carrier.frameTapSets + 1 } }

/-- R36, case 3: a POLL to the unit offered. -/
def sendPoll (p : PollInFlight) (s : State) : State :=
  sendPacket (.poll p.entry.address)
    (some { owner := .pollScheduler, address := some p.entry.address,
            kind := match p.entry.kind with
              | .tap => .tapStatus
              | .transponder => .transponderStatus })
    (takePoll p s)

/-- R36: the arbiter's choice for a working slot, from the three offers (R37). -/
def arbitrate (tap : Option TapRec) (poll : Option PollInFlight) (s : State) : State :=
  match s.carrier.answers, tap, poll with
  | a :: rest, _, _ => sendAnswer a rest s
  | [], some t, none => sendTapSet t s
  | [], some t, some p => if s.carrier.frameTapSets < 4 then sendTapSet t s else sendPoll p s
  | [], none, some p => sendPoll p s
  | [], none, none => sendPacket (.idle false) none s

/-- A working slot: the offers are read and one is chosen (R36, R37). -/
def workingSlot (s : State) : State :=
  let (u, poll) := pollOffer s
  arbitrate (switchingOffer u) poll u

/-- SLOT_OPEN (R33). It comes about only once the window of the slot before has closed: while a reply is still
expected the state stands (log entry 8). -/
def slotOpenStep (s : State) : State :=
  if s.carrier.expectation.isSome then s
  else
    let i := nextSlot s.carrier.slotIndex
    match slotUse i with
    | .carousel => carouselSlot (openSlot i s)
    | .working => workingSlot (openSlot i s)
    | .contention => contentionSlot (openSlot i s)

def execSlotOpen (s : State) : Host.Outcome State Fault Refusal := .next (whenRunning slotOpenStep s)

/-! ### Reply windows (R43 to R46) -/

/-- R46: a GOOD PURCHASE reserves an answer place and is handed to the Event Table, or is dropped. -/
def contentionResult (result : WindowResult) (s : State) : State :=
  match result with
  | .good (.purchase p) =>
    if s.carrier.answers.length + s.carrier.reserved < 8 then
      { s with
        carrier := { s.carrier with reserved := s.carrier.reserved + 1 },
        due := { s.due with purchases := s.due.purchases ++ [p] } }
    else s
  | _ => s

/-- R44, R46: the result is handed to the block that is owed it. -/
def handResult (e : Expectation) (result : WindowResult) (s : State) : State :=
  match e.owner with
  | .pollScheduler => pollResult (e.address.getD 0) result s
  | .switchingEngine => judgeDelivery (e.address.getD 0) result s
  | .eventTable => contentionResult result s

/-- REPLY_WINDOW_CLOSE (R43 to R46). A window without an expectation is not classified (R45). -/
def replyWindowCloseStep (energy : Bool) (message : Option (List Byte)) (s : State) : State :=
  match s.carrier.expectation with
  | none => s
  | some e =>
    handResult e (classify e energy message) { s with carrier := { s.carrier with expectation := none } }

def execReplyWindowClose (energy : Bool) (message : Option (List Byte)) (s : State) :
    Host.Outcome State Fault Refusal :=
  .next (whenRunning (replyWindowCloseStep energy message) s)

/-! ### Taking a switchover (R23, R24) -/

/-- R23: the steps of the Line-Up Store's own state. -/
def switchLineup (b : Nat) (l : Lineup) : Lineup :=
  { active := l.staged,
    staged := l.staged,
    effective := b,
    scheduled := none,
    previous := some { tariff := l.active.tariff, endTime := b },
    sourcesInUse := sourcesOf l.staged }

/-- R24: the ids of the held events whose channel's slot changed, or whose channel the new ACTIVE lacks. -/
def movedEvents (before after : Bank) (events : List EventRec) : List Nat :=
  (events.filter fun e =>
    (slotOf e.channel after).isNone || slotOf e.channel before != slotOf e.channel after).map (·.id)

/-- R124: SOURCE_LOST is judged for every input, ascending. -/
def judgeAllSources (s : State) : State := (upTo 64).foldl (fun u i => judgeSourceLost i u) s

/-- The switchover at boundary B with its notices (R23, R24). -/
def takeSwitchover (b : Nat) (s : State) : State :=
  let l := switchLineup b s.lineup
  let u := convertReservation b (.switchover l.active.version) { s with lineup := l }
  judgeAllSources
    (switchoverTaps (movedEvents s.lineup.active l.active s.events)
      { u with carrier := { u.carrier with cursor := 0 } })

/-- SWITCHOVER_TAKE (R23): the oldest interval boundary delivered to the Line-Up Store is received. One that is not
the scheduled switchover leaves the store unchanged. -/
def switchoverTakeStep (s : State) : State :=
  match s.due.boundaries with
  | [] => s
  | b :: rest =>
    let u := { s with due := { s.due with boundaries := rest } }
    if s.lineup.scheduled = some b then takeSwitchover b u else u

def execSwitchoverTake (s : State) : Host.Outcome State Fault Refusal := .next (whenRunning switchoverTakeStep s)

end Sys2Proof.Machine
end

