-- ==== Sys2Proof/Machine/AlarmRequests.lean ====
section
/-! DEFINITION. The Alarm Controller's requests (chapter 11). -/

namespace Sys2Proof.Machine

/-- The state with the alarms changed by `f`. -/
def changeAlarms (f : Alarms → Alarms) (s : State) : State := { s with alarms := f s.alarms }

/-- R174: a source's record given a level and a kind, by its state. -/
def setAlarmRec (level : Nat) (kind : AlarmKind) (r : AlarmRec) : AlarmRec :=
  let r' := { r with level := level, kind := kind }
  match r.state with
  | .idle => if level != 0 && r.condition then { r' with state := .pending, transient := false } else r'
  | .pending =>
    if level = 0 || (kind = .following && !r.condition) then { r' with state := .idle, transient := false } else r'
  | .opened => if level = 0 then { r' with state := .idle, reported := none } else r'
  | .deferred => if level = 0 then { r' with state := .idle, reported := none } else r'
  | .latched => if level = 0 then { r' with state := .idle, reported := none } else r'

/-- The sources low..high. -/
def sourceRange (low high : Nat) : List Nat := (List.range 234).filter (within low high)

/-- ALARM_SET (R174). -/
def alarmSetStep (low high level kind : Nat) (s : State) : State × Reply :=
  if 233 < low || 233 < high || high < low || 3 < level then (s, refusal .outOfRange)
  else
    match alarmKindOf kind with
    | none => (s, refusal .outOfRange)
    | some k =>
      if level != 3 && (sourceRange low high).any (inExpress s.alarms) then (s, refusal .conflict)
      else
        (changeAlarms (fun a =>
          fill s.clock.time
            { a with sources := vecMapIdx (fun i r => if within low high i then setAlarmRec level k r else r) a.sources }) s,
          replyOk (byte2 (high + 1 - low)))

/-- COMPOSITE_DEFINE (R175). A hold byte that is no hold choice is refused with check 1, before check 2 (log entry 27). -/
def compositeDefineStep (index operation a b hold : Nat) (s : State) : State × Reply :=
  if 7 < index || 233 < a || 233 < b then (s, refusal .outOfRange)
  else
    match compositeOpOf operation, flagOf hold with
    | some op, some h =>
      if compositeSource index ≤ a || compositeSource index ≤ b then (s, refusal .conflict)
      else
        let d : CompositeDef := { op := op, a := a, b := b, hold := h }
        let t := changeAlarms (fun x =>
          fill s.clock.time (compositeStep s.clock.time index
            { x with
              composites := vecModify x.composites index fun _ => some d,
              latches := vecModify x.latches index fun _ => false })) s
        (t, replyOk (flag1 (alarmOf t.alarms (compositeSource index)).condition))
    | _, _ => (s, refusal .outOfRange)

/-- COMPOSITE_RELEASE (R177). -/
def compositeReleaseStep (index : Nat) (s : State) : State × Reply :=
  if 7 < index then (s, refusal .outOfRange)
  else if (vecGet s.alarms.composites index none).isNone then (s, refusal .notFound)
  else
    let t := changeAlarms (fun x =>
      fill s.clock.time (compositeStep s.clock.time index
        { x with latches := vecModify x.latches index fun _ => false })) s
    (t, replyOk (flag1 (alarmOf t.alarms (compositeSource index)).condition))

/-- ALARM_EXPRESS (R178). -/
def alarmExpressStep (slot : Nat) (source : Option Nat) (s : State) : State × Reply :=
  let held := vecGet s.alarms.express slot none
  if 1 < slot || source.any fun i => 233 < i then (s, refusal .outOfRange)
  else if source.any fun i => (alarmOf s.alarms i).level != 3 then (s, refusal .conflict)
  else if source.isSome && vecGet s.alarms.express (1 - slot) none = source then (s, refusal .conflict)
  else if held != source && held.any fun i => (alarmOf s.alarms i).state = .opened then (s, refusal .conflict)
  else
    (changeAlarms (fun a => fill s.clock.time { a with express := vecModify a.express slot fun _ => source }) s,
      replyOk [])

/-- A source acknowledged: LATCHED while its condition is present, and otherwise IDLE (R183). -/
def acknowledge (r : AlarmRec) : AlarmRec :=
  if r.condition then { r with state := .latched } else { r with state := .idle, reported := none }

/-- ALARM_ACK (R183). -/
def alarmAckStep (i : Nat) (s : State) : State × Reply :=
  if 233 < i then (s, refusal .outOfRange)
  else
    let r := alarmOf s.alarms i
    if r.state = .opened || r.state = .deferred then
      (changeAlarms (fun a => fill s.clock.time (modifyAlarm i acknowledge a)) s,
        replyOk (byte1 (alarmStateCode (acknowledge r).state)))
    else (s, refusal .wrongState)

/-- ALARM_DEFER (R184). -/
def alarmDeferStep (i : Nat) (s : State) : State × Reply :=
  if 233 < i then (s, refusal .outOfRange)
  else if (alarmOf s.alarms i).state = .opened then
    (changeAlarms (fun a => fill s.clock.time (modifyAlarm i (fun r => { r with state := .deferred }) a)) s, replyOk [])
  else (s, refusal .wrongState)

/-- A source as ALARM_QUERY shows it: Table 11-2 and whether it stands in an express slot (R185). -/
def alarmFields (a : Alarms) (i : Nat) : List Field :=
  let r := alarmOf a i
  byte1 r.level ++ byte1 (alarmKindCode r.kind) ++ flag1 r.condition ++ byte1 (alarmStateCode r.state)
    ++ optionalField byte1 r.reported ++ flag1 r.transient ++ flag1 r.clearOwed ++ flag1 (inExpress a i)

/-- A composite as ALARM_QUERY shows it: its definition or empty, and its hold latch (R185). The definition is sent as an
optional field, one presence byte before its four fields (log entry 18). -/
def compositeFields (a : Alarms) (k : Nat) : List Field :=
  optionalField (fun d => byte1 (compositeOpCode d.op) ++ byte1 d.a ++ byte1 d.b ++ flag1 d.hold)
    (vecGet a.composites k none) ++ flag1 (vecGet a.latches k false)

/-- ALARM_QUERY (R185). The sources and the composites are sent as lists, behind count bytes and without their numbers
(log entry 18), and the source of each express slot as an optional field (log entry 29). -/
def alarmQueryStep (low high : Nat) (s : State) : State × Reply :=
  let lo := clampNat 0 233 low
  let hi := clampNat lo (min 233 (lo + 31)) high
  let a := s.alarms
  (s, replyOk (byte1 lo ++ byte1 hi ++ byte1 (serviceLevel a) ++ byte2 a.queue.length
    ++ arrayField (optionalField byte1) a.express.toList
    ++ listField (alarmFields a) (sourceRange lo hi)
    ++ listField (compositeFields a) ((List.range 8).filter fun k => within lo hi (compositeSource k))))

def execAlarmSet (tag : Byte) (low high level kind : Nat) (s : State) : Host.Outcome State Fault Refusal :=
  .next (serve (.alarmSet tag low high level kind) (alarmSetStep low high level kind) s)

def execCompositeDefine (tag : Byte) (index operation a b hold : Nat) (s : State) : Host.Outcome State Fault Refusal :=
  .next (serve (.compositeDefine tag index operation a b hold) (compositeDefineStep index operation a b hold) s)

def execCompositeRelease (tag : Byte) (index : Nat) (s : State) : Host.Outcome State Fault Refusal :=
  .next (serve (.compositeRelease tag index) (compositeReleaseStep index) s)

def execAlarmExpress (tag : Byte) (slot : Nat) (source : Option Nat) (s : State) :
    Host.Outcome State Fault Refusal :=
  .next (serve (.alarmExpress tag slot source) (alarmExpressStep slot source) s)

def execAlarmAck (tag : Byte) (source : Nat) (s : State) : Host.Outcome State Fault Refusal :=
  .next (serve (.alarmAck tag source) (alarmAckStep source) s)

def execAlarmDefer (tag : Byte) (source : Nat) (s : State) : Host.Outcome State Fault Refusal :=
  .next (serve (.alarmDefer tag source) (alarmDeferStep source) s)

def execAlarmQuery (tag : Byte) (low high : Nat) (s : State) : Host.Outcome State Fault Refusal :=
  .next (serve (.alarmQuery tag low high) (alarmQueryStep low high) s)

end Sys2Proof.Machine
end

