-- ==== Sys2Proof/Machine/Power.lean ====
section
/-! DEFINITION. Power and the two kinds of reset: what a cold and a retained reset leave in every block, the supplies, the
reset pin, and the coming up after a retained reset (R2, R9, R10, R193, R195 and each block's reset rules). -/

namespace Sys2Proof.Machine

/-! ### The two resets -/

/-- A cold reset of kind COLD (R193): every item takes its cold value. The source-presence pins stand as they are
(log entry 2), and so do the model's own fields. -/
def coldReset (s : State) : State :=
  { State.reset with
    inputs := vecMap (fun r => resetInput r.high) s.inputs, freeCount := s.freeCount, pending := s.pending }

/-- The clock at a retained reset (R10): kept when SET, and without reset and restart times when UNSET. -/
def retainedClock (c : Clock) : Clock :=
  match c.state with
  | .set => c
  | .unset => { c with resetTime := none, restartTime := none }

/-- R32. -/
def retainedLineup (l : Lineup) : Lineup :=
  { active := l.active, staged := l.active, effective := l.effective, scheduled := none, previous := none,
    sourcesInUse := sourcesOf l.active }

/-- R172, with the reservation of a cancelled switchover released (R32). JOURNAL_HIGH is judged at the restart. -/
def retainedJournal (l : Lineup) (j : Journal) : Journal :=
  { j with reserved := if l.scheduled.isSome then j.reserved - 1 else j.reserved, high := false }

/-- R70, for a tap that is kept. -/
def retainedTap (t : TapRec) : TapRec :=
  { t with
    state := .unknown, miss := 0, last := none, current := none, previous := none, version := none, stale := true }

/-- R70, for a transponder record. -/
def retainedTransponder (r : TransponderRec) : TransponderRec :=
  { absentTransponder with address := (dropRemoving r).address }

/-- R70. -/
def retainedSched (sc : Scheduler) : Scheduler :=
  { next := sc.next, current := sc.next,
    state := if sc.state = .stopped then .stopped else .running,
    orderSelected := sc.orderSelected, orderInForce := sc.orderSelected, cursor := 0, passCount := 0,
    probeMarks := Vector.replicate 32 false, inFlight := none }

/-- R187, for a source record. -/
def retainedAlarm (r : AlarmRec) : AlarmRec := { coldAlarm with level := r.level, kind := r.kind }

/-- R187. -/
def retainedAlarms (a : Alarms) : Alarms :=
  { sources := vecMap retainedAlarm a.sources, express := a.express, composites := a.composites,
    latches := Vector.replicate 8 false, queue := [] }

/-- R106: the addresses of the taps with a bound port, in the order of the tap records, which is ascending. -/
def boundTaps (taps : List TapRec) : List Nat := (taps.filter fun t => t.ports.toList.any (·.isSome)).map (·.address)

/-- R106: every kept tap has a switching record built for it, its desired setting derived anew. -/
def rebuildSwitching (s : State) : State :=
  { s with
    taps := s.taps.map fun t => { t with switching := freshSwitch (deriveSetting s t) },
    commandQueue := boundTaps s.taps }

/-- The RESTARTED report of a reset (R195). -/
def noticeOf (kind : ResetKind) (c : Clock) : RestartNotice :=
  { kind := kind, clockState := c.state, resetTime := c.resetTime, restartTime := c.restartTime }

/-- A retained reset (R10, R32, R48, R70, R87, R106, R127, R141, R160, R172, R187, R193, R195). Working state has
still to come up (`restartUpStep`). -/
def retainedReset (kind : ResetKind) (s : State) : State :=
  let clock := retainedClock s.clock
  rebuildSwitching
    { s with
      phase := .comingUp,
      lastReset := kind,
      clock := clock,
      lineup := retainedLineup s.lineup,
      carrier := resetCarrier,
      taps := (s.taps.filter (·.state != .removing)).map retainedTap,
      transponders := vecMap retainedTransponder s.transponders,
      sched := retainedSched s.sched,
      accounts := s.accounts.map fun a => { a with latch := .none },
      nodes := vecMap (fun r => resetNode r.thresholds) s.nodes,
      inputs := vecMap (fun r => resetInput r.high) s.inputs,
      sample := resetSample,
      meter := coldMeter,
      journal := retainedJournal s.lineup s.journal,
      alarms := retainedAlarms s.alarms,
      link := resetLink (noticeOf kind clock),
      due := noDeliveries }

/-- The reset time recorded as the part stops running (R10). Where the part had stopped before, the time recorded
then stands. -/
def stopClock (s : State) : State :=
  if s.phase = .running ∧ s.clock.state = .set then
    { s with clock := { s.clock with resetTime := some s.clock.time } }
  else s

/-! ### The supplies and the reset pin -/

/-- FIRST_POWER (R193). -/
def execFirstPower (s : State) : Host.Outcome State Fault Refusal := .next (coldReset s)

/-- Clock fields that are no longer held (R2): free values numbered from `n` (log entry 5). -/
def unheldClock (n : Nat) : Clock :=
  let anyTime (k : Nat) : Nat := Config.freeNat k % 4294967296
  let anyOptional (k : Nat) : Option Nat := if Config.freeBool k then some (anyTime k) else none
  { state := if Config.freeBool n then .set else .unset, time := anyTime n, lastBoundary := anyOptional (n + 1),
    resetTime := anyOptional (n + 2), restartTime := anyOptional (n + 3) }

/-- R2: with main power absent and the backup voltage below retention level the monitor marks the retained store
invalid, and from then on the clock's fields are not held. -/
def judgeRetention (s : State) : State :=
  if s.phase = .mainLost ∧ s.backupLow ∧ s.storeValid then
    { s with storeValid := false, clock := unheldClock s.freeCount, freeCount := s.freeCount + 4 }
  else s

/-- MAIN_POWER_LOSS (R10, R2): the part stops running, and the store is marked at once when the backup voltage is already
below retention level. -/
def mainPowerLossStep (s : State) : State :=
  if s.phase = .mainLost then s else judgeRetention { stopClock s with phase := .mainLost }

def execMainPowerLoss (s : State) : Host.Outcome State Fault Refusal := .next (mainPowerLossStep s)

/-- BACKUP_BELOW_RETENTION (R2): the backup voltage is below retention level. With main power present this disturbs
neither the clock nor the store. -/
def backupBelowRetentionStep (s : State) : State := judgeRetention { s with backupLow := true }

def execBackupBelowRetention (s : State) : Host.Outcome State Fault Refusal := .next (backupBelowRetentionStep s)

/-- MAIN_POWER_RETURN (R193). -/
def mainPowerReturnStep (s : State) : State :=
  if s.phase = .mainLost then if s.storeValid then retainedReset .power s else coldReset s
  else s

def execMainPowerReturn (s : State) : Host.Outcome State Fault Refusal := .next (mainPowerReturnStep s)

/-- RESET_PIN (R193): a retained reset of kind PIN, on main power. -/
def resetPinStep (s : State) : State :=
  if s.phase = .mainLost then s else retainedReset .pin (stopClock s)

def execResetPin (s : State) : Host.Outcome State Fault Refusal := .next (resetPinStep s)

/-! ### Coming up after a retained reset -/

/-- The clock as working state comes up (R10): the restart time is recorded when it is SET. -/
def restartClock (c : Clock) : Clock :=
  match c.state with
  | .set => { c with restartTime := some c.time }
  | .unset => { c with resetTime := none, restartTime := none }

/-- R172: JOURNAL_HIGH is judged from held and reserved, and given. -/
def judgeJournalHigh (s : State) : State := putJournal s.journal s

/-- R172 and R143: JOURNAL_HIGH and BALANCE_OVERFLOW are judged at the restart. The spec sets no order between the
two; a free value chooses it (log entry 6). -/
def rejudge (s : State) : State :=
  let u := { s with freeCount := s.freeCount + 1 }
  if Config.freeBool s.freeCount then judgeOverflow (judgeJournalHigh u) else judgeJournalHigh (judgeOverflow u)

/-- RESTART_UP (R10): working state has come up, and with the clock SET the Event Table's step and the Meter's check of
the journal are owed (R160, R142). -/
def restartUpStep (s : State) : State :=
  if s.phase = .comingUp then
    let clock := restartClock s.clock
    rejudge
      { s with
        phase := .running,
        clock := clock,
        link := { s.link with notice := some (noticeOf s.lastReset clock) },
        due := { s.due with restartStep := clock.state = .set, gapRecord := clock.state = .set } }
  else s

def execRestartUp (s : State) : Host.Outcome State Fault Refusal := .next (restartUpStep s)

end Sys2Proof.Machine
end

