-- ==== Sys2Proof/Machine/Clock.lean ====
section
/-! DEFINITION. The Service Clock: counting, minute ends and interval boundaries, second ticks, and the setting and
trimming of the time (chapter 1). -/

namespace Sys2Proof.Machine

/-- The time one oscillator second later (R1): it advances while SET, and stops at the last second. -/
def countSecond (c : Clock) : Clock :=
  if c.state = .set ∧ c.time < maxTime then { c with time := c.time + 1 } else c

/-- A minute end is emitted for T (R5, R6): it is delivered to the Outage Monitor and to the Event Table, and the last
boundary time becomes T. -/
def emitMinute (t : Nat) (s : State) : State :=
  let m : MinuteEnd := { time := t, marked := t % 900 = 0 }
  { s with
    clock := { s.clock with lastBoundary := some t },
    due := { s.due with monitorEnds := s.due.monitorEnds ++ [m], eventEnds := s.due.eventEnds ++ [m] } }

/-- Whether a boundary is later than the last boundary time, or there is none (R5). -/
def laterBoundary (t : Nat) (c : Clock) : Bool := c.lastBoundary.all (· < t)

/-- R7: an interval boundary reached by counting is delivered to the Line-Up Store. -/
def deliverBoundary (t : Nat) (s : State) : State :=
  if t % 900 = 0 then { s with due := { s.due with boundaries := s.due.boundaries ++ [t] } } else s

/-- The clock has reached `t` by counting (R5, R7). -/
def reach (t : Nat) (s : State) : State :=
  if t % 60 = 0 then deliverBoundary t (if laterBoundary t s.clock then emitMinute t s else s) else s

/-- R8: the second tick, which reaches the source debounce and the restore timers. -/
def secondTick (s : State) : State :=
  { s with inputs := vecMap tickInput s.inputs, nodes := vecMap tickNode s.nodes }

/-- One oscillator second of a running part: the time counts, what it reaches is given out, and the tick follows. -/
def runningSecond (s : State) : State :=
  let clock := countSecond s.clock
  let counted := { s with clock := clock }
  secondTick (if clock.time = s.clock.time then counted else reach clock.time counted)

/-- SECOND_TICK (R1, R5, R7, R8). While the part does not run only the time counts (R10), and only while the retained
store is valid (R1). -/
def secondTickStep (s : State) : State :=
  if s.phase = .running then runningSecond s
  else if s.storeValid then { s with clock := countSecond s.clock }
  else s

def execSecondTick (s : State) : Host.Outcome State Fault Refusal := .next (secondTickStep s)

/-- SET_TIME (R3). -/
def setTimeStep (time : Nat) (s : State) : State × Reply :=
  if s.clock.state = .set then (s, refusal .wrongState)
  else if maxTime < time then (s, refusal .outOfRange)
  else
    ({ s with clock := { s.clock with state := .set, time := time, lastBoundary := some (minuteBelow time) } },
      replyOk [])

/-- The three stages that limit a delta at a time (R4). -/
def appliedDelta (time : Nat) (delta : Int) : Int :=
  let first := max (-60) (min 60 delta)
  let start : Int := intervalStart time
  let second :=
    if (time : Int) + first < start then start - time
    else if start + 900 ≤ (time : Int) + first then start + 899 - time
    else first
  if (maxTime : Int) < (time : Int) + second then (maxTime : Int) - time else second

/-- The clock moved by a trim to `new`, with the minute end of a boundary it crosses forward (R6). -/
def trimTo (new : Nat) (s : State) : State :=
  let moved := { s with clock := { s.clock with time := new } }
  if s.clock.time < minuteBelow new ∧ laterBoundary (minuteBelow new) s.clock then emitMinute (minuteBelow new) moved
  else moved

/-- TIME_TRIM (R4, R6). -/
def timeTrimStep (delta : Int) (s : State) : State × Reply :=
  if s.clock.state = .unset then (s, refusal .wrongState)
  else
    let applied := appliedDelta s.clock.time delta
    (trimTo ((s.clock.time : Int) + applied).toNat s, replyOk (signed4 applied))

def execSetTime (tag : Byte) (time : Nat) (s : State) : Host.Outcome State Fault Refusal :=
  .next (serve (.setTime tag time) (setTimeStep time) s)

def execTimeTrim (tag : Byte) (delta : Int) (s : State) : Host.Outcome State Fault Refusal :=
  .next (serve (.timeTrim tag delta) (timeTrimStep delta) s)

end Sys2Proof.Machine
end

