-- ==== Sys2Proof/Machine/Link.lean ====
section
/-! DEFINITION. The Host Link: the receiver, refused frames, the outbound line, STATUS and RESTART (chapter 12). The
arrival of a frame and the taking of a request stand in Ops.lean (R189, R190). -/

namespace Sys2Proof.Machine

/-- The state with the Host Link changed by `f`. -/
def changeLink (f : Link → Link) (s : State) : State := { s with link := f s.link }

/-! ### The receiver (R188) -/

/-- The start byte of a frame. -/
def startByte : Byte := 0xA5#8

/-- The receiver put in a state. -/
def setReceiver (r : Receiver) (s : State) : State := changeLink (fun l => { l with receiver := r }) s

/-- A frame is dropped: the link-error flag is set and the receiver hunts afresh. -/
def dropFrame (s : State) : State := changeLink (fun l => { l with receiver := .hunting, linkError := true }) s

/-- The bytes behind the start byte, once the last check byte is in: the frame arrives or is dropped. -/
def frameComplete (got : List Byte) (s : State) : State :=
  let body := got.take (got.length - 2)
  match body.drop 2 with
  | kind :: tag :: payload =>
    if crcBytes body = got.drop (got.length - 2) then
      arrive { kind := kind, tag := tag, payload := payload } (setReceiver .hunting s)
    else dropFrame s
  | _ => dropFrame s

/-- The bytes behind the start byte, with the newest one joined: a bad length drops the frame as soon as it is in, and
the stated number of bytes completes it. -/
def partialFrame (got : List Byte) (s : State) : State :=
  let length := uintOf (got.take 2)
  if got.length < 2 then setReceiver (.receiving got) s
  else if length < 2 ∨ 1026 < length then dropFrame s
  else if got.length < length + 4 then setReceiver (.receiving got) s
  else frameComplete got s

/-- HOST_LINK_BYTE_RECEIVED (R188). -/
def byteReceivedStep (b : Byte) (s : State) : State :=
  match s.link.receiver with
  | .hunting => if b = startByte then setReceiver (.receiving []) s else s
  | .receiving bs => partialFrame (bs ++ [b]) s

def execHostLinkByteReceived (byte : Byte) (s : State) : Host.Outcome State Fault Refusal :=
  .next (whenRunning (byteReceivedStep byte) s)

/-- FRAME_ARRIVAL (R188, R189): a frame taken as a whole with the check it came with. -/
def frameArrivalStep (f : Frame) (check : BitVec 16) (s : State) : State :=
  if f.payload.length ≤ 1024 ∧ check = crc16 (frameBody f) then arrive f (setReceiver .hunting s) else dropFrame s

def execFrameArrival (frame : Frame) (check : BitVec 16) (s : State) : Host.Outcome State Fault Refusal :=
  .next (whenRunning (frameArrivalStep frame check) s)

/-- RECEIVE_GAP_TIMEOUT (R188): more than 50 ms in RECEIVING without a byte. -/
def receiveGapTimeoutStep (s : State) : State :=
  match s.link.receiver with
  | .hunting => s
  | .receiving _ => dropFrame s

def execReceiveGapTimeout (s : State) : Host.Outcome State Fault Refusal := .next (whenRunning receiveGapTimeoutStep s)

/-! ### Refused frames (R190) -/

/-- The status of a frame that fails one of the four checks. -/
def frameErrorStatus : FrameError → Status
  | .malformed => .malformed
  | .unknownKind => .unknownKind
  | .badLength => .badLength

/-- FRAME_REFUSED (R190): the oldest frame comes to execution and fails one of the four checks. -/
def frameRefusedStep (s : State) : State :=
  if mayExecute s then
    match s.link.inbound with
    | [] => s
    | f :: rest =>
      match decodeRequest f with
      | .ok _ => s
      | .error e => answerFrame f (refusal (frameErrorStatus e)) (changeLink (fun l => { l with inbound := rest }) s)
  else s

def execFrameRefused (s : State) : Host.Outcome State Fault Refusal := .next (frameRefusedStep s)

/-! ### The outbound line (R191) -/

/-- Case 1 of R191: the reply formed earliest, and the Host Link without it. -/
def nextReply (l : Link) : Option (TaggedReply × Link) :=
  match l.waiting, l.busy with
  | some r, [] => some (r, { l with waiting := none, busyAhead := 0 })
  | some r, b :: rest =>
    if l.busyAhead = 0 then some (r, { l with waiting := none })
    else some (b, { l with busy := rest, busyAhead := l.busyAhead - 1 })
  | none, b :: rest => some (b, { l with busy := rest })
  | none, [] => none

/-- The line carries a frame, or is idle. -/
def putLine (f : Option OutFrame) (s : State) : State := changeLink (fun l => { l with line := f.map onLine }) s

/-- R191: the line is free and the next frame is chosen. The report queue is filled again behind the report taken
from it (R180). -/
def chooseFrame (s : State) : State :=
  match nextReply s.link with
  | some (r, l) => putLine (some (.reply r)) { s with link := l }
  | none =>
    match s.link.notice with
    | some n => putLine (some (.restarted n)) (changeLink (fun l => { l with notice := none }) s)
    | none =>
      match s.alarms.queue with
      | report :: rest =>
        putLine (some (.alarm report)) { s with alarms := fill s.clock.time { s.alarms with queue := rest } }
      | [] => putLine none s

/-- Whether the frame on the line is the reply of a RESTART that was executed: kind 0x02 with status OK. -/
def restartReplyOnLine (l : Link) : Bool :=
  match l.line with
  | some { frame := .reply r, bytes := _ } => r.kind = replyKind 0x02#8 && r.reply.status = .ok
  | _ => false

/-- OUTBOUND_FRAME_DONE (R191, R194): the line is free. When the last byte sent was that of the RESTART reply the part
takes its retained reset, and otherwise the next frame is chosen. -/
def outboundFrameDoneStep (s : State) : State :=
  if s.link.restartOwed && restartReplyOnLine s.link then retainedReset .restart (stopClock s) else chooseFrame s

def execOutboundFrameDone (s : State) : Host.Outcome State Fault Refusal :=
  .next (whenRunning outboundFrameDoneStep s)

/-! ### STATUS and RESTART (R192, R194) -/

/-- How many taps stand in a state. -/
def tapsIn (s : State) (u : UnitState) : Nat := s.taps.countP (·.state = u)

/-- How many nodes stand in a state. -/
def nodesIn (s : State) (u : NodeState) : Nat := s.nodes.toList.countP (·.state = u)

/-- How many alarm sources stand in a state. -/
def alarmsIn (s : State) (u : AlarmState) : Nat := s.alarms.sources.toList.countP (·.state = u)

/-- The clock's fields (R12). -/
def clockFields (c : Clock) : List Field :=
  byte1 (clockStateCode c.state) ++ byte4 c.time ++ optionalField byte4 c.lastBoundary
    ++ optionalField byte4 c.resetTime ++ optionalField byte4 c.restartTime

/-- The part revision. -/
def partRevision : Nat := 1

/-- The fields of STATUS (R192, Table 12-7). -/
def statusFields (s : State) : List Field :=
  byte1 partRevision ++ byte1 (resetKindCode s.lastReset) ++ clockFields s.clock
    ++ byte1 (schedulerStateCode s.sched.state) ++ byte4 s.sched.passCount
    ++ byte2 (journalHeld s.journal) ++ byte2 s.journal.reserved ++ byte2 (journalFree s.journal)
    ++ byte4 s.journal.nextSequence
    ++ byte1 s.lineup.active.version ++ optionalField byte4 s.lineup.scheduled ++ flag1 s.link.linkError
    ++ arrayField (fun u => byte2 (tapsIn s u)) [.unknown, .online, .missing, .silent, .removing]
    ++ arrayField (fun u => byte1 (nodesIn s u)) [.unknown, .normal, .degraded, .outage, .restoring]
    ++ arrayField (fun u => byte1 (alarmsIn s u)) [.idle, .pending, .opened, .deferred, .latched]

/-- STATUS (R192): the reply shows the link-error flag as it stood, and the flag is cleared in the same step. -/
def statusStep (s : State) : State × Reply :=
  (changeLink (fun l => { l with linkError := false }) s, replyOk (statusFields s))

/-- RESTART (R194). -/
def restartStep (s : State) : State × Reply := (changeLink (fun l => { l with restartOwed := true }) s, replyOk [])

def execStatus (tag : Byte) (s : State) : Host.Outcome State Fault Refusal := .next (serve (.status tag) statusStep s)

def execRestart (tag : Byte) (s : State) : Host.Outcome State Fault Refusal :=
  .next (serve (.restart tag) restartStep s)

end Sys2Proof.Machine
end

