-- ==== Sys2Proof/Machine/Dispatch.lean ====
section
/-! DEFINITION. The dispatch: one arm for each command of Syntax.lean, each a direct call of the command's meaning. -/

namespace Sys2Proof.Machine

def exec (i : Instr) (s : State) : Host.Outcome State Fault Refusal :=
  match i with
  | .firstPower => Sys2Proof.Machine.execFirstPower s
  | .mainPowerLoss => Sys2Proof.Machine.execMainPowerLoss s
  | .backupBelowRetention => Sys2Proof.Machine.execBackupBelowRetention s
  | .mainPowerReturn => Sys2Proof.Machine.execMainPowerReturn s
  | .resetPin => Sys2Proof.Machine.execResetPin s
  | .restartUp => Sys2Proof.Machine.execRestartUp s
  | .restartEventStep => Sys2Proof.Machine.execRestartEventStep s
  | .gapRecord => Sys2Proof.Machine.execGapRecord s
  | .secondTick => Sys2Proof.Machine.execSecondTick s
  | .monitorMinuteEnd => Sys2Proof.Machine.execMonitorMinuteEnd s
  | .meterTallyTake => Sys2Proof.Machine.execMeterTallyTake s
  | .eventMinuteEnd => Sys2Proof.Machine.execEventMinuteEnd s
  | .switchoverTake => Sys2Proof.Machine.execSwitchoverTake s
  | .sourceLevelChange input high => Sys2Proof.Machine.execSourceLevelChange input high s
  | .sourceDebounceVerdict input => Sys2Proof.Machine.execSourceDebounceVerdict input s
  | .restoreHoldExpiry node => Sys2Proof.Machine.execRestoreHoldExpiry node s
  | .slotOpen => Sys2Proof.Machine.execSlotOpen s
  | .replyWindowClose energy message => Sys2Proof.Machine.execReplyWindowClose energy message s
  | .purchaseDecide => Sys2Proof.Machine.execPurchaseDecide s
  | .frameArrival frame check => Sys2Proof.Machine.execFrameArrival frame check s
  | .receiveGapTimeout => Sys2Proof.Machine.execReceiveGapTimeout s
  | .outboundFrameDone => Sys2Proof.Machine.execOutboundFrameDone s
  | .frameRefused => Sys2Proof.Machine.execFrameRefused s
  | .status tag => Sys2Proof.Machine.execStatus tag s
  | .restart tag => Sys2Proof.Machine.execRestart tag s
  | .setTime tag time => Sys2Proof.Machine.execSetTime tag time s
  | .timeTrim tag delta => Sys2Proof.Machine.execTimeTrim tag delta s
  | .lineupPut tag channel slot source kind tier label => Sys2Proof.Machine.execLineupPut tag channel slot source kind tier label s
  | .lineupDrop tag channel => Sys2Proof.Machine.execLineupDrop tag channel s
  | .tierRateSet tag target rate => Sys2Proof.Machine.execTierRateSet tag target rate s
  | .lineupRead tag bank low high => Sys2Proof.Machine.execLineupRead tag bank low high s
  | .switchoverSchedule tag time => Sys2Proof.Machine.execSwitchoverSchedule tag time s
  | .switchoverCancel tag => Sys2Proof.Machine.execSwitchoverCancel tag s
  | .tapAdd tag address node model => Sys2Proof.Machine.execTapAdd tag address node model s
  | .tapRemove tag address => Sys2Proof.Machine.execTapRemove tag address s
  | .transponderSet tag node address => Sys2Proof.Machine.execTransponderSet tag node address s
  | .tapRead tag address => Sys2Proof.Machine.execTapRead tag address s
  | .pollOrder tag order => Sys2Proof.Machine.execPollOrder tag order s
  | .pollStart tag => Sys2Proof.Machine.execPollStart tag s
  | .pollSuspend tag => Sys2Proof.Machine.execPollSuspend tag s
  | .pollRead tag list start => Sys2Proof.Machine.execPollRead tag list start s
  | .nodeConfig tag node missLimit degradedPercent outagePercent restoreHold powerThreshold powerHysteresis levelStep => Sys2Proof.Machine.execNodeConfig tag node missLimit degradedPercent outagePercent restoreHold powerThreshold powerHysteresis levelStep s
  | .nodeRead tag node => Sys2Proof.Machine.execNodeRead tag node s
  | .sourceRead tag low high => Sys2Proof.Machine.execSourceRead tag low high s
  | .accountOpen tag account address port tiers state => Sys2Proof.Machine.execAccountOpen tag account address port tiers state s
  | .accountTiers tag account tiers => Sys2Proof.Machine.execAccountTiers tag account tiers s
  | .accountHold tag account => Sys2Proof.Machine.execAccountHold tag account s
  | .accountResume tag account => Sys2Proof.Machine.execAccountResume tag account s
  | .accountCut tag account => Sys2Proof.Machine.execAccountCut tag account s
  | .accountRestore tag account => Sys2Proof.Machine.execAccountRestore tag account s
  | .accountClose tag account => Sys2Proof.Machine.execAccountClose tag account s
  | .accountRead tag account => Sys2Proof.Machine.execAccountRead tag account s
  | .cycleClose tag low high => Sys2Proof.Machine.execCycleClose tag low high s
  | .eventAdd tag event channel start duration window price threshold => Sys2Proof.Machine.execEventAdd tag event channel start duration window price threshold s
  | .eventCancel tag event => Sys2Proof.Machine.execEventCancel tag event s
  | .eventRead tag event start => Sys2Proof.Machine.execEventRead tag event start s
  | .eventList tag => Sys2Proof.Machine.execEventList tag s
  | .purchaseEnter tag account event => Sys2Proof.Machine.execPurchaseEnter tag account event s
  | .journalRead tag count => Sys2Proof.Machine.execJournalRead tag count s
  | .journalRelease tag sequence => Sys2Proof.Machine.execJournalRelease tag sequence s
  | .alarmSet tag low high level kind => Sys2Proof.Machine.execAlarmSet tag low high level kind s
  | .compositeDefine tag index operation a b hold => Sys2Proof.Machine.execCompositeDefine tag index operation a b hold s
  | .compositeRelease tag index => Sys2Proof.Machine.execCompositeRelease tag index s
  | .alarmExpress tag slot source => Sys2Proof.Machine.execAlarmExpress tag slot source s
  | .alarmAck tag source => Sys2Proof.Machine.execAlarmAck tag source s
  | .alarmDefer tag source => Sys2Proof.Machine.execAlarmDefer tag source s
  | .alarmQuery tag low high => Sys2Proof.Machine.execAlarmQuery tag low high s
  | .hostLinkByteReceived byte => Sys2Proof.Machine.execHostLinkByteReceived byte s

end Sys2Proof.Machine
end

