-- ==== Sys2Proof/WellFormed.lean ====
section
/-! DEFINITION. Which commands can come to the part: a request whose fields fit the sizes R196 gives them, under a
tag of 1..255; a plant or pin event that names a unit the part has. -/

namespace Sys2Proof

/-- `v` fits an unsigned field of `size` bytes (R196). -/
def fitsBytes (size v : Nat) : Bool := v < 256 ^ size

/-- `v` fits a two's complement field of `size` bytes (R196). -/
def fitsSigned (size : Nat) (v : Int) : Bool := -(256 ^ size : Int) ≤ 2 * v && 2 * v < (256 ^ size : Int)

/-- An optional field is absent or fits its size. -/
def fitsOptional (size : Nat) : Option Nat → Bool
  | none => true
  | some v => fitsBytes size v

/-- The tag of a request: 1..255, since 0 marks an unsolicited report. -/
def requestTag (tag : Byte) : Bool := tag != 0

/-- A node number of the part, 1..32. -/
def nodeInRange (n : Nat) : Bool := 1 ≤ n && n ≤ 32

/-- A source-presence input of the part, 1..64. -/
def inputInRange (i : Nat) : Bool := 1 ≤ i && i ≤ 64

/-- Well-formed commands. The size of each request's field is the one R196 gives it. -/
def Instr.wf : Instr → Bool
  | .firstPower => true
  | .mainPowerLoss => true
  | .backupBelowRetention => true
  | .mainPowerReturn => true
  | .resetPin => true
  | .restartUp => true
  | .restartEventStep => true
  | .gapRecord => true
  | .secondTick => true
  | .monitorMinuteEnd => true
  | .meterTallyTake => true
  | .eventMinuteEnd => true
  | .switchoverTake => true
  | .sourceLevelChange input _ => inputInRange input
  | .sourceDebounceVerdict input => inputInRange input
  | .restoreHoldExpiry node => nodeInRange node
  | .slotOpen => true
  | .replyWindowClose _ _ => true
  | .purchaseDecide => true
  | .frameArrival frame _ => frame.payload.length ≤ 1024
  | .receiveGapTimeout => true
  | .outboundFrameDone => true
  | .frameRefused => true
  | .status tag => requestTag tag
  | .restart tag => requestTag tag
  | .setTime tag time => requestTag tag && fitsBytes 4 time
  | .timeTrim tag delta => requestTag tag && fitsSigned 4 delta
  | .lineupPut tag channel slot source kind tier label =>
      requestTag tag && fitsBytes 2 channel && fitsBytes 1 slot && fitsBytes 1 source && fitsBytes 1 kind
        && fitsOptional 1 tier && fitsBytes 1 label.length
  | .lineupDrop tag channel => requestTag tag && fitsBytes 2 channel
  | .tierRateSet tag target rate => requestTag tag && fitsBytes 1 target && fitsBytes 4 rate
  | .lineupRead tag bank low high => requestTag tag && fitsBytes 1 bank && fitsBytes 2 low && fitsBytes 2 high
  | .switchoverSchedule tag time => requestTag tag && fitsBytes 4 time
  | .switchoverCancel tag => requestTag tag
  | .tapAdd tag address node model => requestTag tag && fitsBytes 3 address && fitsBytes 1 node && fitsBytes 1 model
  | .tapRemove tag address => requestTag tag && fitsBytes 3 address
  | .transponderSet tag node address => requestTag tag && fitsBytes 1 node && fitsOptional 3 address
  | .tapRead tag address => requestTag tag && fitsBytes 3 address
  | .pollOrder tag order => requestTag tag && fitsBytes 1 order
  | .pollStart tag => requestTag tag
  | .pollSuspend tag => requestTag tag
  | .pollRead tag list start => requestTag tag && fitsBytes 1 list && fitsBytes 2 start
  | .nodeConfig tag node missLimit degradedPercent outagePercent restoreHold powerThreshold powerHysteresis levelStep =>
      requestTag tag && fitsBytes 1 node && fitsBytes 1 missLimit && fitsBytes 1 degradedPercent
        && fitsBytes 1 outagePercent && fitsBytes 2 restoreHold && fitsBytes 2 powerThreshold
        && fitsBytes 2 powerHysteresis && fitsBytes 2 levelStep
  | .nodeRead tag node => requestTag tag && fitsBytes 1 node
  | .sourceRead tag low high => requestTag tag && fitsBytes 1 low && fitsBytes 1 high
  | .accountOpen tag account address port _ state =>
      requestTag tag && fitsBytes 4 account && fitsBytes 3 address && fitsBytes 1 port && fitsBytes 1 state
  | .accountTiers tag account _ => requestTag tag && fitsBytes 4 account
  | .accountHold tag account => requestTag tag && fitsBytes 4 account
  | .accountResume tag account => requestTag tag && fitsBytes 4 account
  | .accountCut tag account => requestTag tag && fitsBytes 4 account
  | .accountRestore tag account => requestTag tag && fitsBytes 4 account
  | .accountClose tag account => requestTag tag && fitsBytes 4 account
  | .accountRead tag account => requestTag tag && fitsBytes 4 account
  | .cycleClose tag low high => requestTag tag && fitsBytes 4 low && fitsBytes 4 high
  | .eventAdd tag event channel start duration window price threshold =>
      requestTag tag && fitsBytes 1 event && fitsBytes 2 channel && fitsBytes 4 start && fitsBytes 2 duration
        && fitsBytes 1 window && fitsBytes 4 price && fitsBytes 2 threshold
  | .eventCancel tag event => requestTag tag && fitsBytes 1 event
  | .eventRead tag event start => requestTag tag && fitsBytes 1 event && fitsBytes 2 start
  | .eventList tag => requestTag tag
  | .purchaseEnter tag account event => requestTag tag && fitsBytes 4 account && fitsBytes 1 event
  | .journalRead tag count => requestTag tag && fitsBytes 1 count
  | .journalRelease tag sequence => requestTag tag && fitsBytes 4 sequence
  | .alarmSet tag low high level kind =>
      requestTag tag && fitsBytes 1 low && fitsBytes 1 high && fitsBytes 1 level && fitsBytes 1 kind
  | .compositeDefine tag index operation a b hold =>
      requestTag tag && fitsBytes 1 index && fitsBytes 1 operation && fitsBytes 1 a && fitsBytes 1 b && fitsBytes 1 hold
  | .compositeRelease tag index => requestTag tag && fitsBytes 1 index
  | .alarmExpress tag slot source => requestTag tag && fitsBytes 1 slot && fitsOptional 1 source
  | .alarmAck tag source => requestTag tag && fitsBytes 1 source
  | .alarmDefer tag source => requestTag tag && fitsBytes 1 source
  | .alarmQuery tag low high => requestTag tag && fitsBytes 1 low && fitsBytes 1 high
  | .hostLinkByteReceived _ => true

end Sys2Proof
end

