-- ==== Sys2Proof/Safety.lean ====
section
/-! DEFINITION. What a sound state of the GH410 is, block by block: the properties that the manual says hold at every
moment, in the terms the statements use. -/

namespace Sys2Proof.Machine

/-- Numbers strictly rising. -/
abbrev rising (xs : List Nat) : Prop := xs.Pairwise (· < ·)

/-! ### Requests -/

/-- The request `c` comes to execution in state `s`, and `u` is the state in which its owner takes it (R190). -/
abbrev executes (c : Instr) (s u : State) : Prop := claimRequest (requestFrame c) s = some u

/-- The request `c` leaves its owner's state as `t`, and the reply `r` becomes the waiting reply (R190). -/
abbrev replies (c : Instr) (r : Reply) (t : State) : Host.Outcome State Fault Refusal :=
  .next (answerFrame (requestFrame c) r t)

/-- The commands that are requests of the host. -/
def isRequest (c : Instr) : Bool := (requestParts c).isSome

/-! ### Line-Up Store (R13, R14) -/

/-- An entry's fields lie within Table 2-2, and a tier is present exactly when the kind is TIERED. -/
abbrev entrySound (e : LineupEntry) : Prop :=
  (1 ≤ e.channel ∧ e.channel ≤ 999) ∧ (1 ≤ e.slot ∧ e.slot ≤ 150) ∧ (1 ≤ e.source ∧ e.source ≤ 64) ∧
    labelInRange e.label = true ∧ (e.kind = .tiered ↔ e.tier.isSome) ∧ ∀ t ∈ e.tier, t ≤ 15

/-- Rates within Table 2-1. -/
abbrev tariffSound (t : Tariff) : Prop := (∀ r ∈ t.tiers.toList, r ≤ 1000000) ∧ t.holdRate ≤ 1000000

/-- R13 for one bank. -/
abbrev bankSound (b : Bank) : Prop :=
  rising (b.entries.map (·.channel)) ∧ (b.entries.map (·.slot)).Nodup ∧ b.entries.length ≤ 160 ∧
    (∀ e ∈ b.entries, entrySound e) ∧ b.version ≤ 255 ∧ tariffSound b.tariff

/-- The version STAGED has (R14). -/
def stagedVersion (l : Lineup) : Nat :=
  if l.scheduled.isSome then nextVersion l.active.version else l.active.version

/-- The Line-Up Store: R13 in both banks, R14, and the sources in use derived from ACTIVE. -/
abbrev lineupSound (l : Lineup) : Prop :=
  bankSound l.active ∧ bankSound l.staged ∧ l.staged.version = stagedVersion l ∧
    (∀ t ∈ l.scheduled, t % 900 = 0) ∧ l.sourcesInUse = sourcesOf l.active

/-! ### Service Clock (R1, R3, R5, R6) -/

/-- Minute ends handed and not yet taken: at minute boundaries, each later than the one before it, none later than
the last boundary time, and marked at interval boundaries. -/
abbrev minuteEndsSound (last : Option Nat) (ends : List MinuteEnd) : Prop :=
  rising (ends.map (·.time)) ∧
    ∀ m ∈ ends, m.time % 60 = 0 ∧ m.marked = decide (m.time % 900 = 0) ∧ ∃ b ∈ last, m.time ≤ b

/-- The Service Clock while its fields are held: its ranges, no times while UNSET, and each minute end given out
once. The store is marked invalid exactly while main power is absent behind a backup voltage that is too low (R2). -/
abbrev clockSound (s : State) : Prop :=
  (s.phase ≠ .mainLost → s.storeValid = true) ∧ (s.phase = .mainLost → s.storeValid = !s.backupLow) ∧
    (s.storeValid = true →
      s.clock.time ≤ maxTime ∧ (∀ b ∈ s.clock.lastBoundary, b % 60 = 0 ∧ b ≤ maxTime) ∧
        (s.clock.state = .unset →
          s.clock.lastBoundary = none ∧ s.clock.resetTime = none ∧ s.clock.restartTime = none) ∧
        minuteEndsSound s.clock.lastBoundary s.due.monitorEnds ∧
        minuteEndsSound s.clock.lastBoundary s.due.eventEnds)

/-! ### Control Carrier (R33, R46, R47) -/

/-- The slot index is one of a frame, every answer owed has its place, and a purchase handed and not yet decided is
what a reserved place stands for. -/
abbrev carrierSound (s : State) : Prop :=
  (∀ i ∈ s.carrier.slotIndex, i ≤ 15) ∧ s.carrier.reserved = s.due.purchases.length ∧
    s.carrier.answers.length + s.carrier.reserved ≤ 8

/-! ### Tap Directory (R50, R52, R56) -/

/-- The addresses of the transponders that are present. -/
def transponderAddresses (s : State) : List Nat := s.transponders.toList.filterMap (·.address)

/-- The entries of the units that are not in REMOVING, taps first. -/
def liveEntries (s : State) : List PassEntry :=
  ((s.taps.filter (·.state != .removing)).map fun t => { kind := .tap, address := t.address, node := t.node }) ++
    (s.transponders.toList.zipIdx.filterMap fun x =>
      if x.1.state = .removing then none
      else x.1.address.map fun a => { kind := .transponder, address := a, node := x.2 + 1 })

/-- The directory: tap records in rising order of address, at most 512 of them, every address held once over both
kinds of unit, fields in range, no port bound on a tap in REMOVING, and the next-pass list an arrangement of the entries
of the units not in REMOVING. -/
abbrev directorySound (s : State) : Prop :=
  rising (s.taps.map (·.address)) ∧ s.taps.length ≤ 512 ∧
    (s.taps.map (·.address) ++ transponderAddresses s).Nodup ∧
    (∀ t ∈ s.taps, addressInRange t.address = true ∧ (1 ≤ t.node ∧ t.node ≤ 32) ∧ t.miss ≤ 15 ∧
      (t.state = .removing → ∀ p ∈ t.ports.toList, p = none)) ∧
    (∀ r ∈ s.transponders.toList, ∀ a ∈ r.address, addressInRange a = true) ∧
    s.sched.next.Perm (liveEntries s)

/-! ### Account Store (R71 to R74) -/

/-- One record within Table 5-1. -/
abbrev accountSound (a : Account) : Prop :=
  accountInRange a.number = true ∧ (1 ≤ a.port ∧ a.port ≤ 4) ∧
    (-2000000000 ≤ a.balance ∧ a.balance ≤ 2000000000) ∧ a.residue ≤ 14 ∧ a.credited ≤ 65535 ∧
    a.purchases.length ≤ 2 ∧ (a.purchases.map (·.event)).Nodup

/-- R71, R73, R74 for the store. -/
abbrev accountsSound (s : State) : Prop :=
  rising (s.accounts.map (·.number)) ∧ ∀ a ∈ s.accounts, accountSound a

/-- R72: a tap record's port names an account exactly when that account's record names the tap and port. -/
abbrev bindingsSound (s : State) : Prop :=
  rising (s.accounts.map (·.number)) ∧ rising (s.taps.map (·.address)) ∧
    (∀ a ∈ s.accounts, (1 ≤ a.port ∧ a.port ≤ 4) ∧ boundAccount s a.address a.port = some a.number) ∧
    (∀ t ∈ s.taps, ∀ p ∈ upTo 4, ∀ k ∈ vecGet t.ports (p - 1) none,
      ∃ a ∈ s.accounts, a.number = k ∧ a.address = t.address ∧ a.port = p) ∧
    (∀ t ∈ s.taps, t.state = .removing → ∀ p ∈ t.ports.toList, p = none)

/-! ### Switching Engine (Table 6-2, R93 to R98) -/

/-- The command queue names each tap at most once and only taps on record that are not in REMOVING; a switching record
lies within Table 6-2. -/
abbrev switchingSound (s : State) : Prop :=
  rising (s.taps.map (·.address)) ∧ s.commandQueue.Nodup ∧
    (∀ a ∈ s.commandQueue, ∃ t ∈ s.taps, t.address = a ∧ t.state ≠ .removing) ∧
    ∀ t ∈ s.taps, t.switching.serial ≤ 255 ∧ t.switching.attempts ≤ 4 ∧
      t.switching.inFlight = t.switching.sent.isSome

/-! ### Event Table and Billing Journal (R144, R162, R163, R166) -/

/-- How many open purchases the accounts hold. -/
def openPurchases (s : State) : Nat := (s.accounts.map (·.purchases.length)).sum

/-- The holders lists and the open purchase lists describe the same purchases (R144). -/
abbrev holdersSound (s : State) : Prop :=
  rising (s.accounts.map (·.number)) ∧ rising (s.events.map (·.id)) ∧
    (∀ a ∈ s.accounts, (a.purchases.map (·.event)).Nodup ∧
      ∀ p ∈ a.purchases, ∃ e ∈ s.events, e.id = p.event ∧ a.number ∈ e.holders) ∧
    ∀ e ∈ s.events, e.holders.Nodup ∧
      ∀ k ∈ e.holders, ∃ a ∈ s.accounts, a.number = k ∧ ∃ p ∈ a.purchases, p.event = e.id

/-- R166: the reservations equal the open purchases, plus one if a switchover is scheduled. -/
abbrev reservationsSound (s : State) : Prop :=
  holdersSound s ∧ s.journal.reserved = openPurchases s + (if s.lineup.scheduled.isSome then 1 else 0)

/-- R162 and R163: held and reserved never exceed 1024, and the records held carry consecutive numbers, which the next
sequence number continues. -/
abbrev journalSound (j : Journal) : Prop :=
  journalHeld j + j.reserved ≤ 1024 ∧ (1 ≤ j.nextSequence ∧ j.nextSequence ≤ 4294967295) ∧
    List.IsChain (fun q r => r = nextSequence q) (j.records.map (·.sequence) ++ [j.nextSequence])

/-! ### Alarm Controller (Table 11-2, R174, R175, R178, R179) -/

/-- One source record: reported levels are present exactly in the three raised states, a source waits only with a level
and, when FOLLOWING, with its condition present, and LATCHED stands while the condition does. -/
abbrev alarmRecSound (r : AlarmRec) : Prop :=
  r.level ≤ 3 ∧ (r.reported.isSome ↔ r.state = .opened ∨ r.state = .deferred ∨ r.state = .latched) ∧
    (∀ l ∈ r.reported, 1 ≤ l ∧ l ≤ 3) ∧
    (r.state = .pending → 1 ≤ r.level ∧ (r.kind = .following → r.condition = true)) ∧
    (r.state = .latched → r.condition = true) ∧ (r.transient = true → r.state = .pending)

/-- How many sources are OPEN at a reported level and satisfy `p`. -/
def openAt (a : Alarms) (level : Nat) (p : Nat → Bool) : Nat :=
  (sourcesWith a fun r => r.state = .opened && r.reported = some level).countP p

/-- The Alarm Controller: its records, its queue's capacity, its slots and definitions, and the bounds of R179 on what
can be OPEN at once. -/
abbrev alarmsSound (a : Alarms) : Prop :=
  a.queue.length ≤ 16 ∧ (∀ r ∈ a.sources.toList, alarmRecSound r) ∧
    (∀ i ∈ vecGet a.express 0 none, i < 234 ∧ (alarmOf a i).level = 3 ∧ vecGet a.express 1 none ≠ some i) ∧
    (∀ i ∈ vecGet a.express 1 none, i < 234 ∧ (alarmOf a i).level = 3) ∧
    (∀ k ∈ List.range 8, ∀ d ∈ vecGet a.composites k none, d.a < compositeSource k ∧ d.b < compositeSource k) ∧
    openAt a 1 (fun _ => true) ≤ 1 ∧ openAt a 2 (fun _ => true) ≤ 1 ∧
    openAt a 3 (fun i => !inExpress a i) ≤ 1 ∧ openAt a 3 (inExpress a) ≤ 2

/-- R176: the condition of each composite is its computed value, or its latch, and absent with an empty definition. -/
abbrev compositesSound (a : Alarms) : Prop :=
  ∀ k ∈ List.range 8, (alarmOf a (compositeSource k)).condition =
    (match vecGet a.composites k none with
      | none => false
      | some d => compositeValue a d || (d.hold && vecGet a.latches k false))

/-- R173: each copy of a condition agrees with its owner's condition. -/
abbrev copiesAgree (s : State) : Prop :=
  (∀ n ∈ upTo 32,
    (alarmOf s.alarms (nodeOutageSource n)).condition = nodeOutage (nodeOf s n) ∧
    (alarmOf s.alarms (nodeDegradedSource n)).condition = nodeDegraded (nodeOf s n) ∧
    (alarmOf s.alarms (nodePowerSource n)).condition = (nodeOf s n).power ∧
    (alarmOf s.alarms (nodeLevelStepSource n)).condition = (nodeOf s n).levelStep ∧
    (alarmOf s.alarms (switchFaultSource n)).condition = switchFault s n) ∧
  (∀ i ∈ upTo 64, (alarmOf s.alarms (sourceLostSource i)).condition = (inputOf s i).lost ∧
    (inputOf s i).lost = (decide ((inputOf s i).debounced = .lost) && s.lineup.sourcesInUse.contains i)) ∧
  (alarmOf s.alarms journalHighSource).condition = s.journal.high ∧
  (alarmOf s.alarms balanceOverflowSource).condition = s.meter.balanceOverflow

/-- The copies agree with their owners in a part that runs or is coming up, and in a part that runs JOURNAL_HIGH and
BALANCE_OVERFLOW are as their rules define them (R134, R170). A tap in REMOVING has no fault flag set (R102), and
account numbers rise (R71). -/
abbrev conditionsSound (s : State) : Prop :=
  rising (s.accounts.map (·.number)) ∧ (∀ t ∈ s.taps, t.state = .removing → t.switching.fault = false) ∧
  (s.phase ≠ .mainLost → copiesAgree s) ∧
    (s.phase = .running → s.journal.high = journalHigh s.journal ∧ s.meter.balanceOverflow = anyOverflow s.accounts)

/-- The Alarm Controller after it has taken the changes `given`, each a source with its condition, one after the other
at one time (R173). -/
def alarmsAfter (now : Nat) (given : List (Nat × Bool)) (a : Alarms) : Alarms :=
  given.foldl (fun b change => alarmsGive now change.1 change.2 b) a

/-! ### Host Link (Table 12-1) -/

/-- The Host Link within Table 12-1. -/
abbrev linkSound (l : Link) : Prop :=
  l.inbound.length ≤ 4 ∧ l.busy.length ≤ 4 ∧ l.busyAhead ≤ l.busy.length ∧ (l.waiting = none → l.busyAhead = 0) ∧
    (match l.receiver with
      | .hunting => 0
      | .receiving bs => bs.length) ≤ 1029

/-! ### Upstream messages (Tables 3-4 and 12-9) -/

/-- A port setting as a message can carry it. -/
abbrev portInRange (p : PortSetting) : Prop :=
  p.grants.length ≤ 2 ∧ ∀ g ∈ p.grants, (1 ≤ g.event ∧ g.event ≤ 255) ∧ (1 ≤ g.slot ∧ g.slot ≤ 150)

/-- Every field of a message within the range Table 3-4 gives it, under an address of 3 bytes. -/
def upInRange (m : UpMessage) : Prop :=
  upAddress m < 16777216 ∧
    match m with
    | .tapStatus t => (∀ p ∈ t.ports.toList, portInRange p) ∧ t.version ≤ 255 ∧ t.serial ≤ 255 ∧
        -200 ≤ t.level ∧ t.level ≤ 700
    | .transponderStatus _ r => r.voltage ≤ 999 ∧ -200 ≤ r.level ∧ r.level ≤ 700
    | .ack _ serial ports => serial ≤ 255 ∧ ∀ p ∈ ports.toList, portInRange p
    | .purchase p => (1 ≤ p.port ∧ p.port ≤ 4) ∧ (1 ≤ p.event ∧ p.event ≤ 255) ∧ p.counter ≤ 255

/-- The bytes of an upstream message, its check included (Table 12-9). -/
def upBytes (m : UpMessage) : List Byte :=
  match m with
  | .tapStatus t =>
      plantBytes 0x11 t.address (settingField t.ports ++ byte1 t.version ++ byte1 t.serial ++ signed2 t.level)
  | .transponderStatus a r => plantBytes 0x12 a (readingField r)
  | .ack a serial ports => plantBytes 0x13 a (byte1 serial ++ settingField ports)
  | .purchase p => plantBytes 0x14 p.address (byte1 p.port ++ byte1 p.event ++ byte1 p.counter)

/-! ### Outage Monitor (Tables 7-1 and 7-2, R117, R118, R123) -/

/-- The thresholds lie within Table 7-1, and the degraded percent does not exceed the outage percent (R108). -/
abbrev thresholdsSound (t : Thresholds) : Prop :=
  (1 ≤ t.missLimit ∧ t.missLimit ≤ 15) ∧ (1 ≤ t.degradedPercent ∧ t.degradedPercent ≤ t.outagePercent) ∧
    t.outagePercent ≤ 100 ∧ t.restoreHold ≤ 3600 ∧ t.powerThreshold ≤ 999 ∧ t.powerHysteresis ≤ 100 ∧
    (5 ≤ t.levelStep ∧ t.levelStep ≤ 200)

/-- Node records, source inputs and the minute sample within their tables: a restore timer runs only in RESTORING, and a
partial second has no steady count. -/
abbrev monitorSound (s : State) : Prop :=
  (∀ r ∈ s.nodes.toList, thresholdsSound r.thresholds ∧ r.tally ≤ 15 ∧
    ∀ k ∈ r.restoreTimer, r.state = .restoring ∧ 1 ≤ k ∧ k ≤ 3600) ∧
  (∀ r ∈ s.inputs.toList, r.steady ≤ 3 ∧ (r.partialMark = true → r.steady = 0)) ∧
  rising s.sample.nodes ∧ (∀ n ∈ s.sample.nodes, 1 ≤ n ∧ n ≤ 32) ∧
  rising s.sample.inputs ∧ ∀ i ∈ s.sample.inputs, 1 ≤ i ∧ i ≤ 64

/-! ### Ending of events (R155, R157, R160) -/

/-- The counter of an event for the node of an account's tap. -/
def minutesFor (s : State) (e : EventRec) (a : Account) : Nat :=
  ((findTap a.address s.taps).map fun r => vecGet e.counters (r.node - 1) 0).getD 0

/-- The refund test of settlement (R155). -/
def settlementOwes (s : State) (e : EventRec) (a : Account) : Bool := e.threshold ≤ minutesFor s e a

/-- The REFUND records of events that end, in the order of the events and of their holders. -/
def refundsOf (cause : RefundCause) (owed : EventRec → Account → Bool) (accounts : List Account)
    (ended : List EventRec) : List RecordBody :=
  ended.flatMap fun e => e.holders.filterMap fun k =>
    (findAccount k accounts).bind fun a => (purchaseOf a e.id).bind fun p =>
      if owed e a then some (.refund k e.id p.price cause) else none

/-- The balance and overflow flag of an account after the refunds of events that end, each clipped as R133 gives. -/
def refundedMoney (owed : EventRec → Account → Bool) (ended : List EventRec) (a : Account) : Int × Bool :=
  ended.foldl
    (fun money e =>
      match purchaseOf a e.id with
      | some p =>
        if owed e a then
          let sum := money.1 - p.price
          (max (-2000000000) (min 2000000000 sum),
            money.2 || decide (sum < -2000000000) || decide (2000000000 < sum))
        else money
      | none => money)
    (a.balance, a.overflow)

/-- Whether a record body is a REFUND. -/
def isRefund : RecordBody → Bool
  | .refund _ _ _ _ => true
  | _ => false

/-- A tap record but for what a recomputation writes in it: the desired setting and the attempt count (R93, R94). -/
def bareTap (r : TapRec) : TapRec := { r with switching := { r.switching with desired := settingOff, attempts := 0 } }

/-- What the ending of the events `ended` makes of the accounts, the journal and the taps, from `s` to `t`: the purchases
leave their accounts, the refunds owed are made and recorded on their reservations, the other reservations are released,
OVERFLOW records are written as R133 gives, and nothing else of these blocks changes. The Alarm Controller takes only
changes of JOURNAL_HIGH, one or more exactly when a purchase ends, and BALANCE_OVERFLOW present exactly when a flag becomes
set (R170, R134). The holders of `handed`, the events that move or end, have their taps recomputed and queued by the
outcome (R93, R94); every other tap stands. -/
def endsEvents (cause : RefundCause) (owed : EventRec → Account → Bool) (ended handed : List EventRec) (s t : State) :
    Prop :=
  let ends : Bool := ended.any fun e => !e.holders.isEmpty
  let flagged : Bool := s.accounts.any fun a => !a.overflow && (refundedMoney owed ended a).2
  t.accounts.map (·.number) = s.accounts.map (·.number) ∧
  (∀ a ∈ s.accounts,
    { a with
      purchases := a.purchases.filter fun p => !(ended.map (·.id)).contains p.event,
      balance := (refundedMoney owed ended a).1,
      overflow := (refundedMoney owed ended a).2 } ∈ t.accounts) ∧
  t.journal.reserved + (ended.map (·.holders.length)).sum = s.journal.reserved ∧
  (∃ written, t.journal.records = s.journal.records ++ written ∧
    (written.map (·.body)).filter isRefund = refundsOf cause owed s.accounts ended ∧
    written.map (·.sequence) = (List.range written.length).map (fun i => nextSequence^[i] s.journal.nextSequence) ∧
    t.journal.nextSequence = nextSequence^[written.length] s.journal.nextSequence ∧
    ∀ r ∈ written, r.time = s.clock.time ∧ (isRefund r.body = false → ∃ k, r.body = .overflow k)) ∧
  t.journal.high =
    (if ends then decide (768 ≤ t.journal.records.length + t.journal.reserved) else s.journal.high) ∧
  t.meter = { s.meter with balanceOverflow := s.meter.balanceOverflow || flagged } ∧
  (∃ given, t.alarms = alarmsAfter s.clock.time given s.alarms ∧
    (∀ x ∈ given, x.1 = journalHighSource ∨ x = (balanceOverflowSource, true)) ∧
    (journalHighSource ∈ given.map (·.1) ↔ ends = true) ∧ ((balanceOverflowSource, true) ∈ given ↔ flagged = true)) ∧
  (alarmOf t.alarms journalHighSource).condition =
    (if ends then t.journal.high else (alarmOf s.alarms journalHighSource).condition) ∧
  (alarmOf t.alarms balanceOverflowSource).condition =
    ((alarmOf s.alarms balanceOverflowSource).condition || flagged) ∧
  (∀ i, i < 224 → (alarmOf t.alarms i).condition = (alarmOf s.alarms i).condition) ∧
  (∀ i, i < 234 → (alarmOf t.alarms i).level = (alarmOf s.alarms i).level ∧
    (alarmOf t.alarms i).kind = (alarmOf s.alarms i).kind) ∧
  t.alarms.express = s.alarms.express ∧ t.alarms.composites = s.alarms.composites ∧
  t.taps.map bareTap = s.taps.map bareTap ∧
  (∀ e ∈ handed, ∀ a ∈ s.accounts, a.number ∈ e.holders → ∀ r ∈ t.taps, r.address = a.address → r.state ≠ .removing →
    r.switching.desired = deriveSetting t r ∧
      (r.address ∈ t.commandQueue ↔ confirms r.switching.confirmed r.switching.desired = false)) ∧
  (∀ r ∈ s.taps, (∀ e ∈ handed, ∀ a ∈ s.accounts, a.number ∈ e.holders → a.address ≠ r.address) →
    r ∈ t.taps ∧ (r.address ∈ t.commandQueue ↔ r.address ∈ s.commandQueue)) ∧
  { t with
    accounts := s.accounts, journal := s.journal, taps := s.taps, commandQueue := s.commandQueue, events := s.events,
    meter := s.meter, alarms := s.alarms, sample := s.sample, due := s.due } = s

end Sys2Proof.Machine
end

