-- ==== Sys2Proof/Certificates/Slice0/Obligations.lean ====
section
/-! DEFINITION. The statements about the GH410 for the provers. -/

open Sys2Proof Sys2Proof.Machine

/-! ### The queue of commands, decoding and the Host Link -/

/-- The step of the part (log entry 1): the command at the front of the queue is executed on the state with the queue's
rest, and with an empty queue the part idles. -/
def Obligations.StepRunsFrontCommand : Prop :=
  ∀ (c : Instr) (rest : List Instr) (s : State),
    step { s with pending := c :: rest } = exec c { s with pending := rest } ∧
      step { s with pending := [] } = .next { s with pending := [] }

/-- Every well-formed command completes from every state and leaves the queue of commands alone; the only stops are
those of a command naming a unit the part does not have (section 2.1, Table 1; Table 3). -/
def Obligations.EveryWellFormedCommandCompletes : Prop :=
  (∀ (c : Instr) (s : State), c.wf = true → ∃ t, exec c s = .next t ∧ t.pending = s.pending) ∧
    (∀ (input : Nat) (high : Bool) (s : State), ¬(1 ≤ input ∧ input ≤ 64) →
      exec (.sourceLevelChange input high) s = .fault .noSuchInput ∧
        exec (.sourceDebounceVerdict input) s = .fault .noSuchInput) ∧
    (∀ (node : Nat) (s : State), ¬(1 ≤ node ∧ node ≤ 32) →
      exec (.restoreHoldExpiry node) s = .fault .noSuchNode)

/-- A frame is read as a request exactly when it is the frame of that request, and the request is well formed (R190,
R196). Both directions: no field of a request is lost in its frame, and no other frame is read as it. The form of an
address or a source that may be none is log entry 29. -/
def Obligations.DecodeAgreesWithRequestFrames : Prop :=
  ∀ (f : Frame) (c : Instr),
    decodeRequest f = .ok c ↔ c.wf = true ∧ isRequest c = true ∧ f = requestFrame c

/-- When a request comes to execution (R190) and what becomes of it otherwise (R189; log entries 8 and 9). -/
def Obligations.RequestsTakeTheirTurn : Prop :=
  ∀ (c : Instr) (s u : State), isRequest c = true →
    (executes c s u ↔
      s.phase = .running ∧ s.link.waiting = none ∧ s.link.restartOwed = false ∧ (requestFrame c).tag ≠ 0#8 ∧
        ((s.link.inbound = [] ∧ u = s) ∨
          ∃ rest, s.link.inbound = requestFrame c :: rest ∧ u = { s with link := { s.link with inbound := rest } })) ∧
      (s.phase = .running → claimRequest (requestFrame c) s = none →
        exec c s = .next (arrive (requestFrame c) s)) ∧
      (s.phase ≠ .running → exec c s = .next s)

/-- R188 and R189 for a frame taken whole, and R188 for the bytes between frames: a frame that passes joins the inbound
queue, is answered BUSY or is discarded; one that does not pass is dropped; HUNTING looks for the start byte; a
length outside 2..1026 and a gap drop the frame being received. That FRAME_ARRIVAL takes its frame at once in every state
of the receiver, one with a payload above 1024 bytes too, is log entry 16. -/
def Obligations.ArrivalsAndDrops : Prop :=
  ∀ s : State, s.phase = .running →
    (∀ (f : Frame) (check : BitVec 16),
      exec (.frameArrival f check) s = .next { s with
      link :=
        if f.payload.length ≤ 1024 ∧ check = crc16 (frameBody f) then
          if s.link.inbound.length < 4 then { s.link with receiver := .hunting, inbound := s.link.inbound ++ [f] }
          else if s.link.busy.length < 4 then
            { s.link with
              receiver := .hunting,
              busy := s.link.busy ++
                [{ kind := f.kind ^^^ 0x80#8, tag := f.tag, reply := { status := .busy, fields := [] } }] }
          else { s.link with receiver := .hunting, linkError := true }
        else { s.link with receiver := .hunting, linkError := true } }) ∧
    (s.link.receiver = .hunting →
      exec .receiveGapTimeout s = .next s ∧
        ∀ b : Byte, exec (.hostLinkByteReceived b) s =
          .next (if b = 0xA5#8 then { s with link := { s.link with receiver := .receiving [] } } else s)) ∧
    (∀ bs : List Byte, s.link.receiver = .receiving bs →
      exec .receiveGapTimeout s = .next { s with link := { s.link with receiver := .hunting, linkError := true } } ∧
        ∀ high low : Byte, bs = [high] → exec (.hostLinkByteReceived low) s =
          .next { s with
          link :=
            if 2 ≤ high.toNat * 256 + low.toNat ∧ high.toNat * 256 + low.toNat ≤ 1026 then
              { s.link with receiver := .receiving [high, low] }
            else { s.link with receiver := .hunting, linkError := true } })

/-- R188 and Table 12-6: a HUNTING receiver that is given the bytes of a frame one by one, each as a command of its own,
hands exactly that frame on. The byte that completes the frame makes the arrival in the same step (log entry 16). -/
def Obligations.ReceivedBytesMakeTheirFrame : Prop :=
  ∀ (f : Frame) (rest : List Instr) (s : State),
    s.phase = .running → s.link.receiver = .hunting → f.payload.length ≤ 1024 →
      Host.Core.run Sys2Proof.core (frameBytes f).length
          { s with pending := (frameBytes f).map Instr.hostLinkByteReceived ++ rest } =
        .next (arrive f { s with pending := rest })

/-- The four checks of R190 on the oldest frame, in their order: a frame that fails one leaves the queue and gets a
reply with that status alone, and a frame that passes all four is left to its request. -/
def Obligations.RefusedFrames : Prop :=
  ∀ (f : Frame) (rest : List Frame) (s : State),
    s.phase = .running → s.link.waiting = none → s.link.restartOwed = false → s.link.inbound = f :: rest →
      let refused (status : Status) : Host.Outcome State Fault Refusal :=
        .next { s with
        link :=
          { s.link with
            inbound := rest,
            waiting := some { kind := f.kind ^^^ 0x80#8, tag := f.tag, reply := { status := status, fields := [] } },
            busyAhead := s.link.busy.length } }
      (f.tag = 0#8 → exec .frameRefused s = refused .malformed) ∧
        (f.tag ≠ 0#8 → requestForms f.kind.toNat = none → exec .frameRefused s = refused .unknownKind) ∧
        (∀ forms, f.tag ≠ 0#8 → requestForms f.kind.toNat = some forms →
          (readFields forms f.payload = none → exec .frameRefused s = refused .badLength) ∧
            ∀ values, (readFields forms f.payload = some (values, true) → exec .frameRefused s = refused .malformed) ∧
              (readFields forms f.payload = some (values, false) → exec .frameRefused s = .next s))

/-- R191: what the free line takes, case by case, while the frame sent was not the reply of an executed RESTART. The
report queue is filled again behind a report taken from it (R180). That OUTBOUND_FRAME_DONE makes the choice from an idle
line too is log entry 17, and that `busyAhead` counts the BUSY replies formed before the waiting reply is log entry 21. -/
def Obligations.FreeLineChoosesInOrder : Prop :=
  ∀ s : State, s.phase = .running → (s.link.restartOwed && restartReplyOnLine s.link) = false →
    (∀ r, s.link.waiting = some r → s.link.busy = [] ∨ s.link.busyAhead = 0 →
      ∃ n, exec .outboundFrameDone s = .next { s with
      link :=
        { s.link with waiting := none, busyAhead := n, line := some (onLine (.reply r)) } }) ∧
    (∀ r b rest, s.link.waiting = some r → s.link.busy = b :: rest → 0 < s.link.busyAhead →
      exec .outboundFrameDone s = .next { s with
      link :=
        { s.link with busy := rest, busyAhead := s.link.busyAhead - 1, line := some (onLine (.reply b)) } }) ∧
    (∀ b rest, s.link.waiting = none → s.link.busy = b :: rest →
      exec .outboundFrameDone s = .next { s with
      link :=
        { s.link with busy := rest, line := some (onLine (.reply b)) } }) ∧
    (s.link.waiting = none → s.link.busy = [] →
      (∀ n, s.link.notice = some n →
        exec .outboundFrameDone s = .next { s with
        link :=
          { s.link with notice := none, line := some (onLine (.restarted n)) } }) ∧
      (s.link.notice = none →
        (∀ report rest, s.alarms.queue = report :: rest →
          exec .outboundFrameDone s = .next { s with
            link := { s.link with line := some (onLine (.alarm report)) },
            alarms := fill s.clock.time { s.alarms with queue := rest } }) ∧
        (s.alarms.queue = [] → exec .outboundFrameDone s = .next { s with link := { s.link with line := none } })))

/-- STATUS replies the fields of R192 in the order of Table 12-7 as they stand and clears the link-error flag in the same
step; RESTART replies OK and makes restart owed, after which no request comes to execution (R194). That a set flag is 0 in
the reply is log entry 10. -/
def Obligations.StatusAndRestart : Prop :=
  ∀ (tag : Byte) (s u : State),
    (executes (.status tag) s u →
      let optional (time : Option Nat) : List Field := match time with
        | none => [Field.uint 1 0]
        | some t => [Field.uint 1 1, Field.uint 4 t]
      let kind : Nat := match u.lastReset with
        | .cold => 0
        | .pin => 1
        | .power => 2
        | .restart => 3
      let taps (x : UnitState) : Field := Field.uint 2 (u.taps.countP fun t => t.state = x)
      let nodes (x : NodeState) : Field := Field.uint 1 (u.nodes.toList.countP fun r => r.state = x)
      let sources (x : AlarmState) : Field := Field.uint 1 (u.alarms.sources.toList.countP fun r => r.state = x)
      let held := u.journal.records.length
      let shown : List Field :=
        [Field.uint 1 1, Field.uint 1 kind, Field.uint 1 (if u.clock.state = .unset then 0 else 1),
          Field.uint 4 u.clock.time] ++
        optional u.clock.lastBoundary ++ optional u.clock.resetTime ++ optional u.clock.restartTime ++
        [Field.uint 1 (schedulerStateCode u.sched.state), Field.uint 4 u.sched.passCount, Field.uint 2 held,
          Field.uint 2 u.journal.reserved, Field.uint 2 (1024 - held - u.journal.reserved),
          Field.uint 4 u.journal.nextSequence, Field.uint 1 u.lineup.active.version] ++
        optional u.lineup.scheduled ++
        [Field.uint 1 (if u.link.linkError then 0 else 1),
          taps .unknown, taps .online, taps .missing, taps .silent, taps .removing,
          nodes .unknown, nodes .normal, nodes .degraded, nodes .outage, nodes .restoring,
          sources .idle, sources .pending, sources .opened, sources .deferred, sources .latched]
      exec (.status tag) s = replies (.status tag) (replyOk shown)
        { u with link := { u.link with linkError := false } }) ∧
    (executes (.restart tag) s u →
      exec (.restart tag) s = replies (.restart tag) (replyOk [])
        { u with link := { u.link with restartOwed := true } } ∧
      ∀ t, exec (.restart tag) s = .next t → ∀ f, claimRequest f t = none)

/-! ### Service Clock -/

/-- SET_TIME (R3) and TIME_TRIM with the minute end of a boundary it crosses forward (R4, R6): the applied delta, the new
time, which stays in the current interval, and the one minute end, which never carries the interval-end mark. -/
def Obligations.SettingAndTrimmingTheTime : Prop :=
  ∀ (tag : Byte) (s u : State),
    (∀ time : Nat, time ≤ 4294967295 → executes (.setTime tag time) s u →
      exec (.setTime tag time) s =
        if u.clock.state = .unset then
          replies (.setTime tag time) (replyOk [])
            { u with clock := { u.clock with state := .set, time := time, lastBoundary := some (time / 60 * 60) } }
        else replies (.setTime tag time) (refusal .wrongState) u) ∧
    (∀ delta : Int, executes (.timeTrim tag delta) s u →
      (u.clock.state = .unset →
        exec (.timeTrim tag delta) s = replies (.timeTrim tag delta) (refusal .wrongState) u) ∧
      (u.clock.state = .set →
        let time : Int := u.clock.time
        let start : Int := time / 900 * 900
        let first := max (-60) (min 60 delta)
        let second :=
          if time + first < start then start - time
          else if start + 900 ≤ time + first then start + 899 - time
          else first
        let applied := if 4294967295 < time + second then 4294967295 - time else second
        let new := (time + applied).toNat
        let m := new / 60 * 60
        let crossed := u.clock.time < m ∧ ∀ b ∈ u.clock.lastBoundary, b < m
        let ends : List MinuteEnd := if crossed then [{ time := m, marked := false }] else []
        (u.clock.time ≤ 4294967295 →
          0 ≤ time + applied ∧ start ≤ time + applied ∧ time + applied ≤ start + 899 ∧ time + applied ≤ 4294967295) ∧
        exec (.timeTrim tag delta) s = replies (.timeTrim tag delta) (replyOk [.sint 4 applied])
          { u with
            clock := { u.clock with
              time := new, lastBoundary := if crossed then some m else u.clock.lastBoundary },
            due := { u.due with
              monitorEnds := u.due.monitorEnds ++ ends, eventEnds := u.due.eventEnds ++ ends } }))

/-- SECOND_TICK: while running the time counts when SET and below its last second (R1), a minute boundary it reaches that
is later than the last boundary time gives one minute end to each of its two receivers, marked at an interval boundary
(R5), an interval boundary is delivered to the Line-Up Store (R7), and every input and restore timer takes the tick
(R8, R114, R123). While not running only the time counts, as long as the store is valid (R1, R10; log entry 13). The tick
marks a verdict or an expiry due, and each is taken by its own command (log entry 4). -/
def Obligations.SecondTickCounts : Prop :=
  ∀ s : State,
    let counts := s.clock.state = .set ∧ s.clock.time < 4294967295
    let t := s.clock.time + 1
    let emits := counts ∧ t % 60 = 0 ∧ ∀ b ∈ s.clock.lastBoundary, b < t
    let ends : List MinuteEnd := if emits then [{ time := t, marked := t % 900 = 0 }] else []
    let time := if counts then t else s.clock.time
    (s.phase = .running →
      exec .secondTick s = .next { s with
        clock := { s.clock with time := time, lastBoundary := if emits then some t else s.clock.lastBoundary },
        due := { s.due with
          monitorEnds := s.due.monitorEnds ++ ends,
          eventEnds := s.due.eventEnds ++ ends,
          boundaries := s.due.boundaries ++ if counts ∧ t % 900 = 0 then [t] else [] },
        inputs := vecMap (fun r =>
          if r.partialMark = true then { r with partialMark := false }
          else if r.steady = 2 then { r with steady := 3, verdictDue := some r.high }
          else { r with steady := min 3 (r.steady + 1) }) s.inputs,
        nodes := vecMap (fun r =>
          if r.state = .restoring then { r with
          restoreTimer := r.restoreTimer.bind fun k =>
            if k ≤ 1 then none else some (k - 1) }
          else r) s.nodes }) ∧
    (s.phase ≠ .running →
      exec .secondTick s = .next { s with
        clock := { s.clock with
        time := if s.storeValid = true then time else s.clock.time } })

/-! ### Power and resets -/

/-- A cold reset leaves every block at its cold values: at first power (R193) and when main power returns to a store
marked invalid (R2, R193). The part is up at once (log entry 12), the backup voltage is taken as not below retention level
(log entry 24), and the pin levels stand (log entry 2), as does the model's queue of commands. Nothing handed before is
still to be taken: the deliveries, the two steps owed and the verdicts due are dropped (log entries 3 and 4). -/
def Obligations.ColdResetValues : Prop :=
  ∀ s : State, ∃ t, exec .firstPower s = .next t ∧
    (s.phase = .mainLost → s.storeValid = false → exec .mainPowerReturn s = .next t) ∧
    t.phase = .running ∧ t.storeValid = true ∧ t.backupLow = false ∧ t.lastReset = .cold ∧
    t.clock = { state := .unset, time := 0, lastBoundary := none, resetTime := none, restartTime := none } ∧
    (∀ b, b = t.lineup.active ∨ b = t.lineup.staged →
      b.version = 0 ∧ b.entries = [] ∧ (∀ r ∈ b.tariff.tiers.toList, r = 0) ∧ b.tariff.holdRate = 0) ∧
    t.lineup.effective = 0 ∧ t.lineup.scheduled = none ∧ t.lineup.previous = none ∧ t.lineup.sourcesInUse = [] ∧
    t.carrier.slotIndex = none ∧ t.carrier.frameTapSets = 0 ∧ t.carrier.cursor = 0 ∧ t.carrier.answers = [] ∧
    t.carrier.reserved = 0 ∧ t.carrier.expectation = none ∧
    t.taps = [] ∧ (∀ n ∈ upTo 32, transponderOf t n = absentTransponder) ∧
    t.sched.next = [] ∧ t.sched.current = [] ∧ t.sched.state = .stopped ∧ t.sched.orderSelected = .linear ∧
    t.sched.orderInForce = .linear ∧ t.sched.cursor = 0 ∧ t.sched.passCount = 0 ∧
    (∀ n ∈ upTo 32, probeMark t n = false) ∧ t.sched.inFlight = none ∧
    t.accounts = [] ∧ t.commandQueue = [] ∧ (∀ n ∈ upTo 32, switchFault t n = false) ∧
    (∀ n ∈ upTo 32, (nodeOf t n).state = .unknown ∧ (nodeOf t n).restoreTimer = none ∧ (nodeOf t n).tally = 0 ∧
      (nodeOf t n).current = none ∧ (nodeOf t n).previous = none ∧ (nodeOf t n).power = false ∧
      (nodeOf t n).levelStep = false ∧
      (nodeOf t n).thresholds = {
        missLimit := 3, degradedPercent := 25, outagePercent := 60, restoreHold := 120,
        powerThreshold := 500, powerHysteresis := 10, levelStep := 30 }) ∧
    (∀ i ∈ upTo 64, (inputOf t i).debounced = .unknown ∧ (inputOf t i).steady = 0 ∧ (inputOf t i).partialMark = true ∧
      (inputOf t i).lost = false ∧ (inputOf t i).verdictDue = none ∧ (inputOf t i).high = (inputOf s i).high) ∧
    t.sample.minute = none ∧ t.meter.balanceOverflow = false ∧ t.meter.boundaryTariff = none ∧ t.events = [] ∧
    t.journal = { records := [], reserved := 0, nextSequence := 1, high := false } ∧
    (∀ i ∈ List.range 234, alarmOf t.alarms i = {
      level := 0, kind := .following, condition := false, state := .idle,
      reported := none, transient := false, clearOwed := false }) ∧
    t.alarms.express.toList = [none, none] ∧ (∀ k ∈ List.range 8, vecGet t.alarms.composites k none = none ∧
      vecGet t.alarms.latches k false = false) ∧ t.alarms.queue = [] ∧
    t.link.receiver = .hunting ∧ t.link.linkError = false ∧ t.link.inbound = [] ∧ t.link.waiting = none ∧
    t.link.busy = [] ∧ t.link.line = none ∧ t.link.restartOwed = false ∧
    t.link.notice = some { kind := .cold, clockState := .unset, resetTime := none, restartTime := none } ∧
    t.due = {
      monitorEnds := [], eventEnds := [], boundaries := [], tallies := [], purchases := [], restartStep := false,
      gapRecord := false } ∧
    t.pending = s.pending

/-- A retained reset, by its three causes: the pin, main power returning to a valid store, and the sending of the last
byte of the RESTART reply (R193, R194). The retained store of Table 12-3 is kept, the clock with it (R10), REMOVING
records are freed (R70), a scheduled switchover is cancelled with its reservation (R32), and working state takes its
reset values (R32, R48, R70, R87, R106, R127, R141, R172, R187, R195), with the RESTARTED report queued (R195). JOURNAL_HIGH
and BALANCE_OVERFLOW are absent until they are judged as working state comes up (R143, R172). The model's own readings are
that each source-presence pin keeps its level (log entry 2), that the deliveries not yet taken are dropped (log entry 3),
and that the reset time stands when the part had already stopped (log entry 13). -/
def Obligations.RetainedResetKeepsTheStore : Prop :=
  ∀ (s : State) (kind : ResetKind) (cause : Instr),
    (kind = .pin ∧ cause = .resetPin ∧ s.phase ≠ .mainLost) ∨
      (kind = .power ∧ cause = .mainPowerReturn ∧ s.phase = .mainLost ∧ s.storeValid = true) ∨
      (kind = .restart ∧ cause = .outboundFrameDone ∧ s.phase = .running ∧ s.link.restartOwed = true ∧
        restartReplyOnLine s.link = true) →
    ∃ t, exec cause s = .next t ∧ t.phase = .comingUp ∧ t.lastReset = kind ∧ t.storeValid = s.storeValid ∧
      t.backupLow = s.backupLow ∧
      t.clock.state = s.clock.state ∧ t.clock.time = s.clock.time ∧ t.clock.lastBoundary = s.clock.lastBoundary ∧
      (s.clock.state = .unset → t.clock.resetTime = none ∧ t.clock.restartTime = none) ∧
      (s.clock.state = .set →
        t.clock.resetTime = (if s.phase = .running then some s.clock.time else s.clock.resetTime) ∧
          t.clock.restartTime = s.clock.restartTime) ∧
      t.lineup = {
        active := s.lineup.active, staged := s.lineup.active, effective := s.lineup.effective,
        scheduled := none, previous := none, sourcesInUse := sourcesOf s.lineup.active } ∧
      t.carrier = {
        slotIndex := none, frameTapSets := 0, cursor := 0, answers := [], reserved := 0, expectation := none,
        modulator := [] } ∧
      t.taps.map (fun r => (r.address, r.node, r.model, r.ports)) =
        (s.taps.filter fun r => r.state != .removing).map (fun r => (r.address, r.node, r.model, r.ports)) ∧
      (∀ r ∈ t.taps, r.state = .unknown ∧ r.miss = 0 ∧ r.last = none ∧ r.current = none ∧ r.previous = none ∧
        r.version = none ∧ r.stale = true ∧
        r.switching = {
          desired := deriveSetting t r, confirmed := none, serial := 0, inFlight := false, sent := none, attempts := 0,
          fault := false }) ∧
      t.commandQueue = (t.taps.filter fun r => r.ports.toList.any (·.isSome)).map (·.address) ∧
      (∀ n ∈ upTo 32, transponderOf t n = { absentTransponder with address :=
        if (transponderOf s n).state = .removing then none else (transponderOf s n).address }) ∧
      t.sched.next = s.sched.next ∧ t.sched.current = s.sched.next ∧ t.sched.orderSelected = s.sched.orderSelected ∧
      t.sched.orderInForce = s.sched.orderSelected ∧ t.sched.cursor = 0 ∧ t.sched.passCount = 0 ∧
      t.sched.inFlight = none ∧ (∀ n ∈ upTo 32, probeMark t n = false) ∧
      t.sched.state = (if s.sched.state = .stopped then .stopped else .running) ∧
      t.accounts = s.accounts.map (fun a => { a with latch := .none }) ∧
      (∀ n ∈ upTo 32, nodeOf t n = {
        state := .unknown, thresholds := (nodeOf s n).thresholds, restoreTimer := none, tally := 0, current := none,
        previous := none, power := false, levelStep := false }) ∧
      (∀ i ∈ upTo 64, inputOf t i = {
        high := (inputOf s i).high, debounced := .unknown, steady := 0, partialMark := true, lost := false,
        verdictDue := none }) ∧
      t.sample.minute = none ∧ t.meter = { balanceOverflow := false, boundaryTariff := none } ∧ t.events = s.events ∧
      t.journal.records = s.journal.records ∧ t.journal.nextSequence = s.journal.nextSequence ∧
      t.journal.reserved = s.journal.reserved - (if s.lineup.scheduled.isSome then 1 else 0) ∧ t.journal.high = false ∧
      (∀ i ∈ List.range 234, alarmOf t.alarms i = {
        level := (alarmOf s.alarms i).level,
        kind := (alarmOf s.alarms i).kind, condition := false, state := .idle, reported := none, transient := false,
        clearOwed := false }) ∧
      t.alarms.express = s.alarms.express ∧ t.alarms.composites = s.alarms.composites ∧
      (∀ k ∈ List.range 8, vecGet t.alarms.latches k false = false) ∧ t.alarms.queue = [] ∧
      t.link.receiver = .hunting ∧ t.link.linkError = false ∧ t.link.inbound = [] ∧ t.link.waiting = none ∧
      t.link.busy = [] ∧ t.link.line = none ∧ t.link.restartOwed = false ∧
      t.link.notice = some {
        kind := kind, clockState := s.clock.state, resetTime := t.clock.resetTime,
        restartTime := t.clock.restartTime } ∧
      t.due = {
        monitorEnds := [], eventEnds := [], boundaries := [], tallies := [], purchases := [], restartStep := false,
        gapRecord := false } ∧
      t.pending = s.pending

/-- The supplies. At the loss of main power the part stops running and the reset time is recorded while SET (R10); a part that
was coming up stops with the reset time it has (log entry 13). A backup voltage already below retention level at that
moment, or falling below it while main power is absent, marks the store invalid, and then the clock is no longer held while
everything else stands (R2; log entries 5 and 24). While main power is present a low backup voltage disturbs nothing (R2),
and main power cannot return (log entry 8). -/
def Obligations.LossOfMainPowerAndOfBackup : Prop :=
  ∀ s : State,
    let stopped : State := { s with
      phase := .mainLost,
      clock := { s.clock with
        resetTime :=
          if s.phase = .running ∧ s.clock.state = .set then some s.clock.time else s.clock.resetTime } }
    (s.phase ≠ .mainLost →
      (s.backupLow = false ∨ s.storeValid = false → exec .mainPowerLoss s = .next stopped) ∧
      (s.backupLow = true → s.storeValid = true → ∃ clock count,
        exec .mainPowerLoss s =
          .next { stopped with storeValid := false, clock := clock, freeCount := count }) ∧
      exec .backupBelowRetention s = .next { s with backupLow := true } ∧ exec .mainPowerReturn s = .next s) ∧
    (s.phase = .mainLost →
      exec .mainPowerLoss s = .next s ∧
      (s.storeValid = true → ∃ clock count,
        exec .backupBelowRetention s =
          .next { s with backupLow := true, storeValid := false, clock := clock, freeCount := count }) ∧
      (s.storeValid = false → exec .backupBelowRetention s = .next { s with backupLow := true }))

/-- Working state comes up (R10): the part runs, the restart time is recorded while SET, the RESTARTED report carries the
times, JOURNAL_HIGH and BALANCE_OVERFLOW are judged (R143, R172), and the two steps of the restart are owed while SET
(R142, R160). The two conditions are given to the Alarm Controller one after the other, in one order or the other (log
entry 6). The Meter's step then writes the GAP record if a slot is free, and skips it for good otherwise (R142).
That the two steps are commands of their own behind RESTART_UP, so that the Meter finds the journal as it then stands, is
log entry 20. -/
def Obligations.ComingUpAndTheGapRecord : Prop :=
  (∀ s : State, s.phase = .comingUp →
    let set := s.clock.state = .set
    let clock : Clock := { s.clock with
      resetTime := if set then s.clock.resetTime else none,
      restartTime := if set then some s.clock.time else none }
    ∃ high overflow alarms count, exec .restartUp s = .next { s with
        phase := .running,
        clock := clock,
        link := { s.link with notice := some {
          kind := s.lastReset, clockState := s.clock.state,
          resetTime := clock.resetTime, restartTime := clock.restartTime } },
        journal := { s.journal with high := high },
        meter := { s.meter with balanceOverflow := overflow },
        alarms := alarms,
        due := { s.due with restartStep := set, gapRecord := set },
        freeCount := count } ∧
      high = decide (768 ≤ s.journal.records.length + s.journal.reserved) ∧
      overflow = s.accounts.any (·.overflow) ∧
      (alarms = alarmsAfter s.clock.time [(journalHighSource, high), (balanceOverflowSource, overflow)] s.alarms ∨
        alarms = alarmsAfter s.clock.time [(balanceOverflowSource, overflow), (journalHighSource, high)] s.alarms) ∧
      (alarmOf alarms journalHighSource).condition = high ∧
      (alarmOf alarms balanceOverflowSource).condition = overflow) ∧
  (∀ (s : State) (r t : Nat), s.phase = .running → s.due.gapRecord = true → s.clock.resetTime = some r →
    s.clock.restartTime = some t →
    let taken : State := { s with due := { s.due with gapRecord := false } }
    exec .gapRecord s = .next
      (if s.journal.records.length + s.journal.reserved < 1024 then
        putJournal { s.journal with
          records := s.journal.records ++ [{ sequence := s.journal.nextSequence, time := t, body := .gap r t }],
          nextSequence := if s.journal.nextSequence = 4294967295 then 1 else s.journal.nextSequence + 1 } taken
      else taken))

/-! ### Channel line-up -/

/-- LINEUP_PUT (R16): its four checks in their order, and the entry put at its place in channel order, in the place of
the entry with the same channel. -/
def Obligations.LineupPut : Prop :=
  ∀ (tag : Byte) (channel slot source kind : Nat) (tier : Option Nat) (label : List Byte) (s u : State),
    let c := Instr.lineupPut tag channel slot source kind tier label
    let held := u.lineup.staged.entries
    let e : LineupEntry := {
      channel := channel, slot := slot, source := source, kind := if kind = 0 then .tiered else .ppv, tier := tier,
      label := label }
    executes c s u →
    exec c s =
        (if u.lineup.scheduled.isSome then replies c (refusal .scheduled) u
        else if ¬((1 ≤ channel ∧ channel ≤ 999) ∧ (1 ≤ slot ∧ slot ≤ 150) ∧ (1 ≤ source ∧ source ≤ 64) ∧
            (kind = 0 ∧ tier.any (· ≤ 15) = true ∨ kind = 1 ∧ tier = none) ∧
            label.length ≤ 8 ∧ ∀ b ∈ label, 32 ≤ b.toNat ∧ b.toNat ≤ 126) then
          replies c (refusal .outOfRange) u
        else if ∃ x ∈ held, x.slot = slot ∧ x.channel ≠ channel then replies c (refusal .conflict) u
        else if 160 ≤ held.length ∧ ∀ x ∈ held, x.channel ≠ channel then replies c (refusal .tableFull) u
        else
          replies c (replyOk [.uint 2 (putEntry e held).length])
            { u with lineup := { u.lineup with staged := { u.lineup.staged with entries := putEntry e held } } }) ∧
      (rising (held.map (·.channel)) →
        rising ((putEntry e held).map (·.channel)) ∧
          (∀ x, x ∈ putEntry e held ↔ x = e ∨ (x ∈ held ∧ x.channel ≠ channel)) ∧
          (putEntry e held).length = if ∃ x ∈ held, x.channel = channel then held.length else held.length + 1)

/-- LINEUP_DROP: its three checks in their order, and the entry removed from STAGED with its slot free again and ACTIVE
untouched (R17). TIER_RATE_SET: one rate of STAGED's tariff changes, that of the tier, or for target 16 the hold rate
(R18, R196). -/
def Obligations.LineupDropAndTierRateSet : Prop :=
  (∀ (tag : Byte) (channel : Nat) (s u : State),
    let c := Instr.lineupDrop tag channel
    let held := u.lineup.staged.entries
    let kept := held.filter fun x => x.channel ≠ channel
    executes c s u →
    exec c s =
      if u.lineup.scheduled.isSome then replies c (refusal .scheduled) u
      else if ¬(1 ≤ channel ∧ channel ≤ 999) then replies c (refusal .outOfRange) u
      else if ∀ x ∈ held, x.channel ≠ channel then replies c (refusal .notFound) u
      else
        replies c (replyOk [.uint 2 kept.length])
          { u with lineup := { u.lineup with staged := { u.lineup.staged with entries := kept } } }) ∧
  (∀ (channel : Nat) (b : Bank), bankSound b → ∀ x ∈ b.entries, x.channel = channel →
    ∀ y ∈ b.entries.filter (fun e => e.channel ≠ channel), y.slot ≠ x.slot) ∧
  (∀ (tag : Byte) (target rate : Nat) (s u : State),
    let c := Instr.tierRateSet tag target rate
    executes c s u →
    (u.lineup.scheduled.isSome → exec c s = replies c (refusal .scheduled) u) ∧
    (u.lineup.scheduled = none → 16 < target ∨ 1000000 < rate → exec c s = replies c (refusal .outOfRange) u) ∧
    (u.lineup.scheduled = none → target ≤ 16 → rate ≤ 1000000 → ∃ tariff : Tariff,
      exec c s = replies c (replyOk [.uint 1 target, .uint 4 rate])
        { u with lineup := { u.lineup with staged := { u.lineup.staged with tariff := tariff } } } ∧
      tariff.holdRate = (if target = 16 then rate else u.lineup.staged.tariff.holdRate) ∧
      ∀ k, k < 16 → vecGet tariff.tiers k 0 = if k = target then rate else vecGet u.lineup.staged.tariff.tiers k 0))

/-- SWITCHOVER_SCHEDULE (R20, R21): its five checks in their order, and the scheduling with its reservation (R166). -/
def Obligations.SwitchoverSchedule : Prop :=
  ∀ (tag : Byte) (time : Nat) (s u : State),
    let c := Instr.switchoverSchedule tag time
    let version := if u.lineup.active.version = 255 then 1 else u.lineup.active.version + 1
    executes c s u →
    (u.clock.state = .unset → exec c s = replies c (refusal .timeUnset) u) ∧
    (u.clock.state = .set →
      (u.lineup.scheduled.isSome → exec c s = replies c (refusal .scheduled) u) ∧
      (u.lineup.scheduled = none →
        (¬(time % 900 = 0 ∧ u.clock.time < time ∧ time ≤ 4294967295) →
          exec c s = replies c (refusal .outOfRange) u) ∧
        (time % 900 = 0 → u.clock.time < time → time ≤ 4294967295 →
          (rising (u.events.map (·.id)) → ∀ e ∈ u.events, isPpv e.channel u.lineup.staged = false →
            (∀ x ∈ u.events, isPpv x.channel u.lineup.staged = false → e.id ≤ x.id) →
            exec c s = replies c { status := .conflict, fields := [.uint 1 e.id] } u) ∧
          ((∀ e ∈ u.events, isPpv e.channel u.lineup.staged = true) →
            (1024 ≤ u.journal.records.length + u.journal.reserved →
              exec c s = replies c (refusal .journalFull) u) ∧
            (u.journal.records.length + u.journal.reserved < 1024 →
              exec c s = replies c (replyOk [.uint 4 time, .uint 1 version])
                (putJournal { u.journal with reserved := u.journal.reserved + 1 }
                  { u with
                    lineup := { u.lineup with
                      scheduled := some time,
                      staged := { u.lineup.staged with version := version } } }))))))

/-- SWITCHOVER_CANCEL (R22): the schedule ends with its reservation, and STAGED keeps its contents; without a schedule
it is refused. If the switchover is taken first the cancel is refused, and if the cancel is taken first the boundary
passes. -/
def Obligations.SwitchoverCancel : Prop :=
  ∀ (tag : Byte) (s u : State),
    let c := Instr.switchoverCancel tag
    (executes c s u → u.lineup.scheduled = none → exec c s = replies c (refusal .wrongState) u) ∧
    (executes c s u → u.lineup.scheduled.isSome → reservationsSound u →
      exec c s = replies c (replyOk [])
          (putJournal { u.journal with reserved := u.journal.reserved - 1 }
            { u with
              lineup := { u.lineup with
                scheduled := none,
                staged := { u.lineup.staged with version := u.lineup.active.version } } }) ∧
        ∀ (t : State) (b : Nat) (rest : List Nat), exec c s = .next t → t.due.boundaries = b :: rest →
          exec .switchoverTake t = .next { t with due := { t.due with boundaries := rest } }) ∧
    (∀ (t v : State) (b : Nat) (rest : List Nat), s.phase = .running → s.due.boundaries = b :: rest →
      s.lineup.scheduled = some b → exec .switchoverTake s = .next t → executes c t v →
      exec c t = replies c (refusal .wrongState) v)

/-- SWITCHOVER_TAKE (R23, R24): at the scheduled boundary the bank comes into force with its notices: the SWITCHOVER
record on its reservation, the carousel's restart, the stale marks and settings of the taps, and SOURCE_LOST of every
input (R124). A tap not in REMOVING is recomputed when its stale mark changes or when it holds a grant for an event whose
channel changed its slot or left the line-up, and the taps that join the command queue join its tail in ascending order of
address (R101). The alarms take JOURNAL_HIGH and then SOURCE_LOST in ascending order of input (log entry 14). Another
boundary leaves everything but its delivery. -/
def Obligations.SwitchoverTake : Prop :=
  ∀ (s : State) (b : Nat) (rest : List Nat), s.phase = .running → s.due.boundaries = b :: rest →
    (s.lineup.scheduled ≠ some b →
      exec .switchoverTake s = .next { s with due := { s.due with boundaries := rest } }) ∧
    (s.lineup.scheduled = some b → 1 ≤ s.journal.reserved → rising (s.taps.map (·.address)) →
      let old := s.lineup.active
      let new := s.lineup.staged
      let lineup : Lineup := {
        active := new, staged := new, effective := b, scheduled := none,
        previous := some { tariff := old.tariff, endTime := b },
        sourcesInUse := sourcesOf new }
      let high : Bool := decide (768 ≤ s.journal.records.length + s.journal.reserved)
      let slot (bank : Bank) (e : EventRec) : Option Nat :=
        (bank.entries.find? fun x => x.channel = e.channel).map (·.slot)
      let named := (s.events.filter fun e => slot new e = none ∨ slot old e ≠ slot new e).map (·.id)
      let holds (x : TapSetting) : Bool := decide (∃ p ∈ x.toList, ∃ g ∈ p.grants, g.event ∈ named)
      let stale (r : TapRec) : Bool :=
        if r.state = .removing then r.stale else decide (r.version ≠ some new.version)
      let rebuilt (r : TapRec) : Bool :=
        r.state != .removing &&
          (stale r != r.stale || holds r.switching.desired || r.switching.confirmed.any holds)
      let desired (r : TapRec) : TapSetting :=
        if rebuilt r then deriveSetting { s with lineup := lineup } { r with stale := stale r } else r.switching.desired
      let agrees (r : TapRec) : Bool := confirms r.switching.confirmed (desired r)
      let lost (i : Nat) : Bool :=
        decide ((inputOf s i).debounced = .lost) && new.entries.any fun e => e.source = i
      exec .switchoverTake s = .next { s with
        lineup := lineup,
        journal := {
          records := s.journal.records ++
            [{ sequence := s.journal.nextSequence, time := b, body := .switchover new.version }],
          reserved := s.journal.reserved - 1,
          nextSequence := if s.journal.nextSequence = 4294967295 then 1 else s.journal.nextSequence + 1,
          high := high },
        carrier := { s.carrier with cursor := 0 },
        taps := s.taps.map fun r => { r with
          stale := stale r,
          switching := { r.switching with
            desired := desired r,
            attempts :=
              if rebuilt r ∧ agrees r = s.commandQueue.contains r.address then 0 else r.switching.attempts } },
        commandQueue :=
          (s.commandQueue.filter fun a => ∀ r ∈ s.taps, r.address = a → ¬(rebuilt r ∧ agrees r)) ++
            (s.taps.filter fun r => rebuilt r ∧ ¬agrees r ∧ r.address ∉ s.commandQueue).map (·.address),
        inputs := vecMapIdx (fun k r => { r with lost := lost (k + 1) }) s.inputs,
        alarms := alarmsAfter s.clock.time
          ((journalHighSource, high) :: (upTo 64).map fun i => (sourceLostSource i, lost i)) s.alarms,
        due := { s.due with boundaries := rest } })

/-- R26: the tariff for an interval by the four cases, and that a question for an interval from the effective time of
ACTIVE on is answered alike before and after a switchover is taken. -/
def Obligations.TariffDoesNotDependOnTheTaking : Prop :=
  (∀ (t : Nat) (l : Lineup),
    ((∃ b ∈ l.scheduled, b ≤ t) → tariffFor t l = l.staged.tariff) ∧
    ((∀ b ∈ l.scheduled, t < b) →
      (l.effective ≤ t → tariffFor t l = l.active.tariff) ∧
      (t < l.effective →
        (∀ p ∈ l.previous, t < p.endTime → tariffFor t l = p.tariff) ∧
        ((∀ p ∈ l.previous, p.endTime ≤ t) → tariffFor t l = l.active.tariff)))) ∧
  (∀ (s u : State) (b : Nat) (rest : List Nat), s.phase = .running → s.due.boundaries = b :: rest →
    s.lineup.scheduled = some b → exec .switchoverTake s = .next u →
    ∀ t, s.lineup.effective ≤ t → tariffFor t u.lineup = tariffFor t s.lineup)

/-! ### Control Carrier -/

/-- SLOT_OPEN for the slots of fixed use (R33): a carousel slot sends the slice at the cursor and moves the cursor on
(R28, R29, R35); the contention slot sends IDLE with contention open and expects a PURCHASE (R34, R42). While a reply is
still expected no slot opens (log entry 8). -/
def Obligations.CarouselAndContentionSlots : Prop :=
  ∀ s : State, s.phase = .running →
    (s.carrier.expectation.isSome → exec .slotOpen s = .next s) ∧
    (s.carrier.expectation = none →
      let index := match s.carrier.slotIndex with
        | none => 0
        | some k => if k = 15 then 0 else k + 1
      let bank := s.lineup.active
      let m := (bank.entries.length + 3) / 4
      let k := s.carrier.cursor
      (index = 0 ∨ index = 8 →
        let header := k = 0 ∨ m < k
        let slice : Slice :=
          if header then .header bank.version bank.entries.length s.lineup.effective
          else .entries bank.version k ((bank.entries.drop (4 * (k - 1))).take 4)
        exec .slotOpen s = .next { s with
          carrier := { s.carrier with
            slotIndex := some index,
            frameTapSets := if index = 0 then 0 else s.carrier.frameTapSets,
            cursor := if header then (if m = 0 then 0 else 1) else if k < m then k + 1 else 0,
            modulator := packetBytes (.slice slice) } }) ∧
      (index = 15 →
        exec .slotOpen s = .next { s with
          carrier := { s.carrier with
            slotIndex := some 15,
            expectation := some { owner := .eventTable, address := none, kind := .purchase },
            modulator := packetBytes (.idle true) } }))

/-- SLOT_OPEN for a working slot: the arbiter's choice by the cases of R36 and Table 3-3 among the three offers (R37),
the steps of a TAP_SET (R96) and of a POLL (R58, R60), and the expectation each records (R34). The Switching Engine's
offer is the oldest tap of the command queue that has a record, is not in flight and whose node is not in OUTAGE (R95). -/
def Obligations.WorkingSlotChoosesByCase : Prop :=
  (∀ (s u : State) (k : Nat) (poll : Option PollInFlight),
    s.phase = .running → s.carrier.expectation = none → s.carrier.slotIndex = some k → k < 14 → k ≠ 7 →
    pollOffer { s with carrier := { s.carrier with slotIndex := some (k + 1) } } = (u, poll) →
      (∀ a rest, u.carrier.answers = a :: rest →
        exec .slotOpen s = .next { u with
          carrier := { u.carrier with answers := rest, modulator := packetBytes (.answer a) } }) ∧
      (u.carrier.answers = [] →
        (∀ t, switchingOffer u = some t → u.carrier.frameTapSets < 4 ∨ poll = none →
          let serial := if t.switching.serial = 255 then 0 else t.switching.serial + 1
          exec .slotOpen s = .next { u with
            taps := u.taps.map fun r =>
              if r.address = t.address then
                { r with
                  switching := { r.switching with
                    serial := if r.switching.serial = 255 then 0 else r.switching.serial + 1,
                    sent := some r.switching.desired,
                    inFlight := true } }
              else r,
            carrier := { u.carrier with
              frameTapSets := u.carrier.frameTapSets + 1,
              expectation := some { owner := .switchingEngine, address := some t.address, kind := .ack },
              modulator := packetBytes (.tapSet t.address serial t.switching.desired) } }) ∧
        (∀ p, poll = some p → switchingOffer u = none ∨ 4 ≤ u.carrier.frameTapSets →
          exec .slotOpen s = .next { u with
            sched := { u.sched with
              inFlight := some p,
              cursor := u.sched.cursor + 1,
              probeMarks :=
                if p.probe then vecModify u.sched.probeMarks (p.entry.node - 1) fun _ => true
                else u.sched.probeMarks },
            carrier := { u.carrier with
              expectation := some {
                owner := .pollScheduler, address := some p.entry.address,
                kind := if p.entry.kind = .tap then .tapStatus else .transponderStatus },
              modulator := packetBytes (.poll p.entry.address) } }) ∧
        (poll = none → switchingOffer u = none →
          exec .slotOpen s = .next { u with
            carrier := { u.carrier with modulator := packetBytes (.idle false) } }))) ∧
  (∀ (s : State) (t : TapRec),
    switchingOffer s = some t ↔
      ∃ older younger, s.commandQueue = older ++ t.address :: younger ∧ findTap t.address s.taps = some t ∧
        (nodeOf s t.node).state ≠ .outage ∧ t.switching.inFlight = false ∧
        ∀ a ∈ older, ∀ r, findTap a s.taps = some r → (nodeOf s r.node).state = .outage ∨ r.switching.inFlight = true)

/-- The result of a reply window (R43, R45, R46): nothing is done without an expectation; the classification of what was
received; and a PURCHASE of the contention slot reserves an answer place and is handed on, or is dropped. -/
def Obligations.ReplyWindowsAndContention : Prop :=
  (∀ (e : Expectation) (energy : Bool) (message : Option (List Byte)) (m : UpMessage),
    (classify e energy message = .good m ↔
      ∃ bs, message = some bs ∧ readUpMessage bs = some m ∧ upKind m = e.kind ∧
        (∀ a ∈ e.address, upAddress m = a) ∧ (e.address = none → addressInRange (upAddress m) = true)) ∧
    (classify e energy message = .none ↔ energy = false ∧ message = none)) ∧
  (∀ (s : State) (energy : Bool) (message : Option (List Byte)), s.phase = .running →
    (s.carrier.expectation = none → exec (.replyWindowClose energy message) s = .next s) ∧
    (∀ e, s.carrier.expectation = some e → e.owner = .eventTable →
      (∀ p, classify e energy message = .good (.purchase p) →
        s.carrier.answers.length + s.carrier.reserved < 8 →
        exec (.replyWindowClose energy message) s = .next { s with
          carrier := { s.carrier with expectation := none, reserved := s.carrier.reserved + 1 },
          due := { s.due with purchases := s.due.purchases ++ [p] } }) ∧
      ((∀ p, classify e energy message ≠ .good (.purchase p)) ∨
          8 ≤ s.carrier.answers.length + s.carrier.reserved →
        exec (.replyWindowClose energy message) s = .next { s with
          carrier := { s.carrier with expectation := none } })))

/-- Upstream messages on the wire (Tables 3-4 and 12-9): bytes are read as a message exactly when they are its type byte,
address, fields and check, with every field in its range. -/
def Obligations.UpstreamMessagesAreReadExactly : Prop :=
  ∀ (bs : List Byte) (m : UpMessage), readUpMessage bs = some m ↔ upInRange m ∧ bs = upBytes m

/-- An ACK's window (R97, R98): a successful delivery confirms the sent setting and clears the fault; a failure counts an
attempt while the tap is queued, and the fourth sets the fault. The tap's place in the queue follows, and SWITCH_FAULT
of its node is given (R103). -/
def Obligations.DeliveryIsJudged : Prop :=
  ∀ (s : State) (t : TapRec) (energy : Bool) (message : Option (List Byte)) (e : Expectation),
    s.phase = .running → s.carrier.expectation = some e → e.owner = .switchingEngine → e.address = some t.address →
    findTap t.address s.taps = some t →
      let a := t.address
      let r := t.switching
      let closed (f : SwitchRec → SwitchRec) (queue : List Nat) : State := { s with
        carrier := { s.carrier with expectation := none },
        taps := s.taps.map fun x =>
          if x.address = a then { x with switching := f { x.switching with sent := none, inFlight := false } } else x,
        commandQueue := queue }
      let without := s.commandQueue.filter fun x => x ≠ a
      let delivered := ∃ sent serial ports, r.sent = some sent ∧
        classify e energy message = .good (.ack a serial ports) ∧ serial = r.serial ∧ sameSetting ports sent = true
      (∀ sent, r.sent = some sent → delivered → rising (s.taps.map (·.address)) →
        exec (.replyWindowClose energy message) s = .next
          (giveCondition (switchFaultSource t.node)
            (s.taps.any fun x => x.node = t.node && x.address ≠ a && x.switching.fault)
            (closed (fun x => { x with confirmed := some sent, attempts := 0, fault := false })
              (if sameSetting sent r.desired then without
              else if t.state = .removing then s.commandQueue
              else without ++ [a])))) ∧
      (¬delivered →
        (a ∉ s.commandQueue → exec (.replyWindowClose energy message) s = .next (closed id s.commandQueue)) ∧
        (a ∈ s.commandQueue → r.attempts + 1 < 4 → rising (s.taps.map (·.address)) →
          exec (.replyWindowClose energy message) s = .next
            (closed (fun x => { x with attempts := r.attempts + 1 }) (without ++ [a]))) ∧
        (a ∈ s.commandQueue → 4 ≤ r.attempts + 1 →
          exec (.replyWindowClose energy message) s = .next
            (giveCondition (switchFaultSource t.node) true
              (closed (fun x => { x with attempts := 4, fault := true, confirmed := none }) without))))

/-! ### Tap Directory and polling -/

/-- TAP_ADD (R52): its three checks in their order, and the record created at its place by address, with an entry at the
tail of the next-pass list and the switching record of R92. TAP_REMOVE (R53): its three checks; a tap that is taken enters
REMOVING, its entry leaves the next-pass list, its node is re-evaluated (R68), and it is withdrawn from switching
(R102). -/
def Obligations.TapAddAndRemove : Prop :=
  (∀ (tag : Byte) (address node model : Nat) (s u : State),
    let c := Instr.tapAdd tag address node model
    let made : TapRec := {
      address := address, node := node,
      model := match model with
        | 0 => .onoff
        | 1 => .tiered
        | _ => .event,
      ports := Vector.replicate 4 none, state := .unknown, miss := 0, last := none, current := none, previous := none,
      version := none, stale := true,
      switching := {
        desired := settingOff, confirmed := none, serial := 0, inFlight := false, sent := none, attempts := 0,
        fault := false } }
    executes c s u →
    exec c s =
        (if ¬((1 ≤ address ∧ address ≤ 16777214) ∧ (1 ≤ node ∧ node ≤ 32) ∧ model ≤ 2) then
          replies c (refusal .outOfRange) u
        else if (∃ t ∈ u.taps, t.address = address) ∨ (∃ n ∈ upTo 32, (transponderOf u n).address = some address) then
          replies c (refusal .existing) u
        else if 512 ≤ u.taps.length then replies c (refusal .tableFull) u
        else
          replies c (replyOk [])
            { u with
              taps := insertTap made u.taps,
              sched := { u.sched with
                next := u.sched.next ++ [{ kind := .tap, address := address, node := node }] } }) ∧
      (rising (u.taps.map (·.address)) → (∀ t ∈ u.taps, t.address ≠ address) →
        rising ((insertTap made u.taps).map (·.address)) ∧
          ∀ t, t ∈ insertTap made u.taps ↔ t = made ∨ t ∈ u.taps)) ∧
  (∀ (tag : Byte) (address : Nat) (s u : State),
    let c := Instr.tapRemove tag address
    executes c s u →
    (¬(1 ≤ address ∧ address ≤ 16777214) → exec c s = replies c (refusal .outOfRange) u) ∧
    (1 ≤ address → address ≤ 16777214 →
      (findTap address u.taps = none → exec c s = replies c (refusal .notFound) u) ∧
      (∀ t, findTap address u.taps = some t →
        (t.state = .removing ∨ (∃ p ∈ t.ports.toList, p ≠ none) → exec c s = replies c (refusal .wrongState) u) ∧
        (t.state ≠ .removing → (∀ p ∈ t.ports.toList, p = none) →
          let v := reevaluate t.node { u with
            sched := { u.sched with
              next := u.sched.next.filter fun e => ¬(e.kind = .tap ∧ e.address = address) },
            taps := u.taps.map fun r => if r.address = address then { r with state := .removing } else r }
          exec c s = replies c (replyOk [])
            (giveCondition (switchFaultSource t.node)
              (v.taps.any fun r => r.node = t.node && r.address ≠ address && r.switching.fault)
              { v with
                commandQueue := v.commandQueue.filter fun x => x ≠ address,
                taps := v.taps.map fun r =>
                  if r.address = address then
                    { r with switching := { r.switching with attempts := 0, fault := false } }
                  else r })))))

/-- TRANSPONDER_SET: its two checks in their order, and the seven rows of its table (R54). That an address of 0 is given and
out of range, not none, is log entry 29. -/
def Obligations.TransponderSet : Prop :=
  ∀ (tag : Byte) (node : Nat) (address : Option Nat) (s u : State),
    let c := Instr.transponderSet tag node address
    let r := transponderOf u node
    let taken := ∃ a ∈ address, (∃ t ∈ u.taps, t.address = a) ∨
      ∃ m ∈ upTo 32, m ≠ node ∧ (transponderOf u m).address = some a
    executes c s u →
    (¬((1 ≤ node ∧ node ≤ 32) ∧ ∀ a ∈ address, 1 ≤ a ∧ a ≤ 16777214) →
      exec c s = replies c (refusal .outOfRange) u) ∧
    (1 ≤ node → node ≤ 32 → (∀ a ∈ address, 1 ≤ a ∧ a ≤ 16777214) →
      (taken → exec c s = replies c (refusal .existing) u) ∧
      (¬taken →
        (∀ a, r.address = none → address = some a →
          exec c s = replies c (replyOk [])
            { u with
              transponders := vecModify u.transponders (node - 1) fun _ =>
                { address := some a, state := .unknown, miss := 0, last := none, current := none, previous := none },
              sched := { u.sched with
                next := u.sched.next ++ [{ kind := .transponder, address := a, node := node }] } }) ∧
        (r.address = none → address = none → exec c s = replies c (replyOk []) u) ∧
        (∀ held, r.address = some held → r.state ≠ .removing →
          (address = some held → exec c s = replies c (replyOk []) u) ∧
          (address = none →
            exec c s = replies c (replyOk [])
              { u with
                transponders := vecModify u.transponders (node - 1) fun x => { x with state := .removing },
                sched := { u.sched with
                  next := u.sched.next.filter fun e => ¬(e.kind = .transponder ∧ e.node = node) } }) ∧
          (∀ a, address = some a → a ≠ held → exec c s = replies c (refusal .wrongState) u)) ∧
        (r.address ≠ none → r.state = .removing →
          exec c s = if address = none then replies c (replyOk []) u else replies c (refusal .wrongState) u)))

/-- POLL_START: taken in STOPPED and SUSPENDING, refused in RUNNING, and everything the suspension left stands (R62). -/
def Obligations.PollStart : Prop :=
  ∀ (tag : Byte) (s u : State),
    let c := Instr.pollStart tag
    executes c s u →
    exec c s =
      if u.sched.state = .running then replies c (refusal .wrongState) u
      else replies c (replyOk []) { u with sched := { u.sched with state := .running } }

/-- POLL_ORDER (R57) and POLL_SUSPEND (R63): the order selected alone changes; a RUNNING scheduler stops at once, or
suspends while a poll is in flight, and the reply carries the state reached. -/
def Obligations.PollOrderAndSuspend : Prop :=
  (∀ (tag : Byte) (order : Nat) (s u : State),
    let c := Instr.pollOrder tag order
    executes c s u →
    exec c s =
      if order = 0 then replies c (replyOk []) { u with sched := { u.sched with orderSelected := .linear } }
      else if order = 1 then replies c (replyOk []) { u with sched := { u.sched with orderSelected := .spread } }
      else replies c (refusal .outOfRange) u) ∧
  (∀ (tag : Byte) (s u : State),
    let c := Instr.pollSuspend tag
    executes c s u →
    exec c s =
      if u.sched.state ≠ .running then replies c (refusal .wrongState) u
      else if u.sched.inFlight = none then
        replies c (replyOk [.uint 1 0]) { u with sched := { u.sched with state := .stopped } }
      else replies c (replyOk [.uint 1 2]) { u with sched := { u.sched with state := .suspending } })

/-- The orders of a pass (R57): a LINEAR pass visits each position in turn; a SPREAD pass makes N visits, N the smallest
power of two that is at least L, each at the position whose digits are the visit's in reverse, and so meets each of the N
positions exactly once. -/
def Obligations.PassOrdersVisitEachPositionOnce : Prop :=
  (∀ l k : Nat, visitCount .linear l = l ∧ visitPosition .linear l k = k) ∧
  ∀ l : Nat, l ≤ 544 → ∃ bits, bits ≤ 10 ∧ visitCount .spread l = 2 ^ bits ∧ l ≤ 2 ^ bits ∧
    (∀ b, l ≤ 2 ^ b → bits ≤ b) ∧
    (∀ k i, k < 2 ^ bits → i < bits →
      (visitPosition .spread l k).testBit i = k.testBit (bits - 1 - i)) ∧
    ((List.range (visitCount .spread l)).map (visitPosition .spread l)).Perm (List.range (visitCount .spread l))

/-- The scheduler's offer (R58, R60) and the pass end (R59). A visit is stepped over when its position is at or above L,
when its unit is gone or in REMOVING, and when its node is in OUTAGE with its probe mark set; with the mark clear it is a
probe. The first visit from the cursor that is not stepped over is offered and the cursor stands at it; when none remains
a pass end is taken and the new pass is looked at once, the cursor moving past everything it steps over; with both lists
empty there is no pass end. The conditions of a transponder that a pass end removes are withdrawn (R120), in ascending
order of node (log entry 14). -/
def Obligations.PollOffersAndPassEnds : Prop :=
  (∀ (s : State) (k : Nat),
    visitOffer s k =
      match s.sched.current[visitPosition s.sched.orderInForce s.sched.current.length k]? with
      | none => none
      | some e =>
        if e.kind = .tap ∧ ∀ t ∈ findTap e.address s.taps, t.state = .removing then none
        else if e.kind = .transponder ∧
            ((transponderOf s e.node).address ≠ some e.address ∨ (transponderOf s e.node).state = .removing) then none
        else if (nodeOf s e.node).state ≠ .outage then some { entry := e, probe := false }
        else if vecGet s.sched.probeMarks (e.node - 1) false = true then none
        else some { entry := e, probe := true }) ∧
  ∀ s : State,
    let visits := visitCount s.sched.orderInForce s.sched.current.length
    let atCursor (k : Nat) : State := { s with sched := { s.sched with cursor := k } }
    (s.sched.state ≠ .running → pollOffer s = (s, none)) ∧
    (s.sched.state = .running →
      (∀ k p, s.sched.cursor ≤ k → k < visits → visitOffer s k = some p →
        (∀ j, s.sched.cursor ≤ j → j < k → visitOffer s j = none) → pollOffer s = (atCursor k, some p)) ∧
      ((∀ k, s.sched.cursor ≤ k → k < visits → visitOffer s k = none) →
        (s.sched.current = [] → s.sched.next = [] → pollOffer s = (atCursor (max s.sched.cursor visits), none)) ∧
        (s.sched.current ≠ [] ∨ s.sched.next ≠ [] → ∃ v k poll,
          pollOffer s = ({ v with sched := { v.sched with cursor := k } }, poll) ∧
          v.sched = {
            next := s.sched.next, current := s.sched.next, state := .running,
            orderSelected := s.sched.orderSelected, orderInForce := s.sched.orderSelected, cursor := 0,
            passCount := if s.sched.passCount = 4294967295 then 0 else s.sched.passCount + 1,
            probeMarks := Vector.replicate 32 false, inFlight := s.sched.inFlight } ∧
          v.taps = s.taps.filter (fun t => t.state ≠ .removing) ∧
          (∀ n ∈ upTo 32,
            let gone := (transponderOf s n).state = .removing
            transponderOf v n = (if gone then absentTransponder else transponderOf s n) ∧
            nodeOf v n =
              if gone ∧ (transponderOf s n).address.isSome then
                { nodeOf s n with current := none, previous := none, power := false, levelStep := false }
              else nodeOf s n) ∧
          (∀ p, poll = some p → k < visitCount v.sched.orderInForce v.sched.current.length ∧
            visitOffer v k = some p ∧ ∀ j, j < k → visitOffer v j = none) ∧
          (poll = none →
            k = visitCount v.sched.orderInForce v.sched.current.length ∧ ∀ j, j < k → visitOffer v j = none) ∧
          v.alarms = alarmsAfter s.clock.time
            (((upTo 32).filter fun n =>
                (transponderOf s n).address.isSome && decide ((transponderOf s n).state = .removing)).flatMap fun n =>
              [(nodePowerSource n, false), (nodeLevelStepSource n, false)]) s.alarms ∧
          { v with
            taps := s.taps, transponders := s.transponders, sched := s.sched, nodes := s.nodes,
            alarms := s.alarms } = s)))

/-- A poll's reply landed on a tap (R65, R66, Table 4-5, and R67 for a tap in REMOVING): the classification, the landing,
the miss count and the state, then the node's re-evaluation on a change (R68), reconciliation of a GOOD STATUS (R100) and
the probe answer of a probe (R61). The poll in flight ends, and SUSPENDING becomes STOPPED (R63). -/
def Obligations.PollRepliesLandOnTaps : Prop :=
  ∀ (s : State) (e : Expectation) (t : TapRec) (energy : Bool) (message : Option (List Byte)),
    s.phase = .running → s.carrier.expectation = some e → e.owner = .pollScheduler → e.address = some t.address →
    findTap t.address s.taps = some t →
      let a := t.address
      let probe := s.sched.inFlight.any (·.probe)
      let landed (f : TapRec → TapRec) : State := { s with
        carrier := { s.carrier with expectation := none },
        taps := s.taps.map fun r => if r.address = a then f r else r }
      let close (v : State) : Host.Outcome State Fault Refusal := .next { v with
        sched := { v.sched with
          inFlight := none, state := if v.sched.state = .suspending then .stopped else v.sched.state } }
      let judged (state : UnitState) (v : State) : State := if t.state = state then v else reevaluate t.node v
      let answered (v : State) : State := if probe then probeAnswer t.node a v else v
      (∀ status, classify e energy message = .good (.tapStatus status) →
        let land (r : TapRec) : TapRec := { r with
          previous := r.current, current := some status, version := some status.version, last := some .good }
        exec (.replyWindowClose energy message) s =
          if t.state = .removing then close (landed land)
          else
            close (answered (reconcile a status.ports
              (judged .online (landed fun r => { land r with miss := 0, state := .online }))))) ∧
      (classify e energy message = .garbled →
        exec (.replyWindowClose energy message) s =
          if t.state = .removing then close (landed fun r => { r with last := some .garbled })
          else
            close (answered
              (judged .online (landed fun r => { r with last := some .garbled, miss := 0, state := .online })))) ∧
      (classify e energy message = .none →
        let miss := min 15 (t.miss + 1)
        let state := if miss < (nodeOf s t.node).thresholds.missLimit then UnitState.missing else .silent
        exec (.replyWindowClose energy message) s =
          if t.state = .removing then close (landed fun r => { r with last := some .none })
          else
            close (judged state (landed fun r => { r with last := some .none, miss := miss, state := state })))

/-- A poll's reply landed on a transponder (R67): as a tap's for state and miss count; a GOOD reading shifts the two readings
and is handed to the Outage Monitor, which judges NODE_POWER and NODE_LEVEL_STEP from it (R120 to R122). -/
def Obligations.PollRepliesLandOnTransponders : Prop :=
  ∀ (s : State) (e : Expectation) (a n : Nat) (energy : Bool) (message : Option (List Byte)),
    s.phase = .running → s.carrier.expectation = some e → e.owner = .pollScheduler → e.address = some a →
    findTap a s.taps = none → transponderNode a s = some n →
      let r := transponderOf s n
      let node := nodeOf s n
      let landed (f : TransponderRec → TransponderRec) : State := { s with
        carrier := { s.carrier with expectation := none },
        sched := { s.sched with
          inFlight := none, state := if s.sched.state = .suspending then .stopped else s.sched.state },
        transponders := vecModify s.transponders (n - 1) f }
      let answered (v : State) : State := if s.sched.inFlight.any (·.probe) then probeAnswer n a v else v
      (∀ x reading, classify e energy message = .good (.transponderStatus x reading) →
        let land (q : TransponderRec) : TransponderRec := { q with
          previous := q.current, current := some reading, last := some .good }
        let clear := min 999 (node.thresholds.powerThreshold + node.thresholds.powerHysteresis)
        let power :=
          if reading.voltage < node.thresholds.powerThreshold then true
          else if clear ≤ reading.voltage then false
          else node.power
        let stepped := match node.current with
          | none => false
          | some old => decide (node.thresholds.levelStep ≤ min 900 (reading.level - old.level).natAbs)
        exec (.replyWindowClose energy message) s =
          if r.state = .removing then .next (landed land)
          else
            let v := landed fun q => { land q with miss := 0, state := .online }
            .next (answered
              (giveCondition (nodeLevelStepSource n) stepped (giveCondition (nodePowerSource n) power
                { v with nodes := vecModify v.nodes (n - 1) fun q => { q with
                  previous := node.current, current := some reading, power := power, levelStep := stepped } })))) ∧
      (classify e energy message = .garbled →
        exec (.replyWindowClose energy message) s =
          if r.state = .removing then .next (landed fun q => { q with last := some .garbled })
          else .next (answered (landed fun q => { q with last := some .garbled, miss := 0, state := .online }))) ∧
      (classify e energy message = .none →
        let miss := min 15 (r.miss + 1)
        let state := if miss < node.thresholds.missLimit then UnitState.missing else .silent
        exec (.replyWindowClose energy message) s =
          if r.state = .removing then .next (landed fun q => { q with last := some .none })
          else .next (landed fun q => { q with last := some .none, miss := miss, state := state }))

/-! ### Accounts and switching -/

/-- The derivation of a port's desired setting by Table 6-1 (R90), with the grants of R91; the equality of settings, the
grants taken in any order (R89); and recomputation with the queue update (R93, R94, Table 6-3): the desired setting is
replaced, and the tap joins, keeps its place in, or leaves the command queue; a tap in REMOVING and an address without a
tap are left alone (R102). -/
def Obligations.SettingsAreDerivedAndQueued : Prop :=
  (∀ (s : State) (t : TapRec) (p : Nat), 1 ≤ p → p ≤ 4 →
    let bound := (vecGet t.ports (p - 1) none).bind fun k => findAccount k s.accounts
    let setting := portOf (deriveSetting s t) p
    let off : PortSetting := { on := false, tiers := 0#16, grants := [] }
    (bound = none → setting = off) ∧
    ∀ a, bound = some a →
      (a.state ≠ .active → setting = off) ∧
      (a.state = .active → t.model = .onoff →
        setting = { on := a.tiers.getLsbD 0, tiers := 0#16, grants := [] }) ∧
      (a.state = .active → t.model = .tiered → setting = { on := true, tiers := a.tiers, grants := [] }) ∧
      (a.state = .active → t.model = .event → t.stale = true →
        setting = { on := true, tiers := a.tiers, grants := [] }) ∧
      (a.state = .active → t.model = .event → t.stale = false →
        setting.on = true ∧ setting.tiers = a.tiers ∧
          setting.grants = a.purchases.filterMap fun b =>
            match s.events.find? fun e => e.id = b.event with
            | none => none
            | some e => (slotOf e.channel s.lineup.active).map fun slot => { event := b.event, slot := slot })) ∧
  (∀ x y : TapSetting,
    sameSetting x y = true ↔
      ∀ p, p < 4 →
        let q := vecGet x p { on := false, tiers := 0#16, grants := [] }
        let r := vecGet y p { on := false, tiers := 0#16, grants := [] }
        q.on = r.on ∧ q.tiers = r.tiers ∧ ∀ g, g ∈ q.grants ↔ g ∈ r.grants) ∧
  (∀ (confirmed : Option TapSetting) (y : TapSetting),
    confirms confirmed y = true ↔ ∃ x, confirmed = some x ∧ sameSetting x y = true) ∧
  (∀ (s : State) (a : Nat),
    ((∀ t, findTap a s.taps = some t → t.state = .removing) → recompute a s = s) ∧
    (∀ t, findTap a s.taps = some t → t.state ≠ .removing → rising (s.taps.map (·.address)) →
      let desired := deriveSetting s t
      let agrees := ∃ x, t.switching.confirmed = some x ∧ sameSetting x desired = true
      let changed (attempts : Nat) (queue : List Nat) : State := { s with
        commandQueue := queue,
        taps := s.taps.map fun r =>
          if r.address = a then
            { r with switching := { r.switching with desired := desired, attempts := attempts } }
          else r }
      (a ∉ s.commandQueue → agrees → recompute a s = changed t.switching.attempts s.commandQueue) ∧
      (a ∉ s.commandQueue → ¬agrees → recompute a s = changed 0 (s.commandQueue ++ [a])) ∧
      (a ∈ s.commandQueue → agrees → recompute a s = changed 0 (s.commandQueue.filter fun x => x ≠ a)) ∧
      (a ∈ s.commandQueue → ¬agrees → recompute a s = changed t.switching.attempts s.commandQueue)))

/-- A GOOD STATUS reconciled (R99, R100): the stale mark is evaluated, with a recomputation when it changes; a STATUS equal
to the desired setting confirms it, clears the fault and takes the tap from the queue, and a different one queues it. -/
def Obligations.StatusIsReconciled : Prop :=
  ∀ (s : State) (a : Nat) (t : TapRec) (ports : TapSetting),
    findTap a s.taps = some t → rising (s.taps.map (·.address)) →
      let stale := decide (t.version ≠ some s.lineup.active.version)
      let v :=
        if t.stale = stale then s
        else recompute a { s with
          taps := s.taps.map fun r => if r.address = a then { r with stale := stale } else r }
      ∃ w, findTap a v.taps = some w ∧ w.stale = stale ∧
        let changed (f : SwitchRec → SwitchRec) (queue : List Nat) : State := { v with
          commandQueue := queue,
          taps := v.taps.map fun r => if r.address = a then { r with switching := f r.switching } else r }
        (sameSetting ports w.switching.desired = true →
          reconcile a ports s =
            giveCondition (switchFaultSource t.node)
              (v.taps.any fun r => r.node = t.node && r.address ≠ a && r.switching.fault)
              (changed (fun r => { r with confirmed := some w.switching.desired, fault := false, attempts := 0 })
                (v.commandQueue.filter fun x => x ≠ a))) ∧
        (sameSetting ports w.switching.desired = false →
          reconcile a ports s =
            changed (fun r => { r with attempts := 0 })
              (if a ∈ v.commandQueue then v.commandQueue else v.commandQueue ++ [a]))

/-- ACCOUNT_OPEN (R76): its five checks in their order, and the record created with its port bound and its tap
recomputed (R79). -/
def Obligations.AccountOpen : Prop :=
  ∀ (tag : Byte) (account address port : Nat) (tiers : TierSet) (state : Nat) (s u : State),
    let c := Instr.accountOpen tag account address port tiers state
    let made : Account := {
      number := account, address := address, port := port, state := if state = 0 then .active else .hold,
      tiers := tiers, purchases := [], balance := 0, residue := 0, credited := 0, overflow := false, latch := .none }
    let inRange := (1 ≤ account ∧ account ≤ 99999999) ∧ (1 ≤ address ∧ address ≤ 16777214) ∧ (1 ≤ port ∧ port ≤ 4) ∧
      state ≤ 1
    executes c s u →
    (¬inRange → exec c s = replies c (refusal .outOfRange) u) ∧
    (inRange →
      ((∃ a ∈ u.accounts, a.number = account) → exec c s = replies c (refusal .existing) u) ∧
      ((∀ a ∈ u.accounts, a.number ≠ account) →
        (findTap address u.taps = none → exec c s = replies c (refusal .notFound) u) ∧
        (∀ t, findTap address u.taps = some t →
          (t.state = .removing → exec c s = replies c (refusal .wrongState) u) ∧
          (t.state ≠ .removing →
            (vecGet t.ports (port - 1) none ≠ none → exec c s = replies c (refusal .existing) u) ∧
            (vecGet t.ports (port - 1) none = none →
              exec c s = replies c (replyOk [])
                (recompute address { u with
                  accounts := insertAccount made u.accounts,
                  taps := u.taps.map fun r =>
                    if r.address = address then
                      { r with ports := vecModify r.ports (port - 1) fun _ => some account }
                    else r }) ∧
              (rising (u.accounts.map (·.number)) →
                rising ((insertAccount made u.accounts).map (·.number)) ∧
                  ∀ a, a ∈ insertAccount made u.accounts ↔ a = made ∨ a ∈ u.accounts))))))

/-- The four service-state requests: the number checks, and the moves of Table 5-3 with the tap recomputed and the new state
replied; in every other state the request is refused (R77, R79). ACCOUNT_TIERS is taken in any state: it replaces the
entitlement set, has the tap recomputed and echoes the set (R78). -/
def Obligations.ServiceStatesAndEntitlement : Prop :=
  (∀ (tag : Byte) (k : Nat) (s u : State) (c : Instr) (takenIn : List AccountState) (target : AccountState) (code : Nat),
    (c, takenIn, target, code) ∈
      [(Instr.accountHold tag k, [AccountState.active], AccountState.hold, 1),
        (Instr.accountResume tag k, [.hold], .active, 0),
        (Instr.accountCut tag k, [.active, .hold], .cut, 2),
        (Instr.accountRestore tag k, [.cut], .active, 0)] →
    executes c s u →
    (¬(1 ≤ k ∧ k ≤ 99999999) → exec c s = replies c (refusal .outOfRange) u) ∧
    (1 ≤ k → k ≤ 99999999 →
      (findAccount k u.accounts = none → exec c s = replies c (refusal .notFound) u) ∧
      (∀ a, findAccount k u.accounts = some a →
        (a.state ∉ takenIn → exec c s = replies c (refusal .wrongState) u) ∧
        (a.state ∈ takenIn →
          exec c s = replies c (replyOk [.uint 1 code])
            (recompute a.address { u with
              accounts := u.accounts.map fun r => if r.number = k then { r with state := target } else r }))))) ∧
  (∀ (tag : Byte) (k : Nat) (tiers : TierSet) (s u : State),
    let c := Instr.accountTiers tag k tiers
    executes c s u →
    (¬(1 ≤ k ∧ k ≤ 99999999) → exec c s = replies c (refusal .outOfRange) u) ∧
    (1 ≤ k → k ≤ 99999999 →
      (findAccount k u.accounts = none → exec c s = replies c (refusal .notFound) u) ∧
      (∀ a, findAccount k u.accounts = some a →
        exec c s = replies c (replyOk [.uint 2 tiers.toNat])
          (recompute a.address { u with
            accounts := u.accounts.map fun r => if r.number = k then { r with tiers := tiers } else r }))))

/-- ACCOUNT_CLOSE (R82): the first of its four conditions that fails is named in the refusal; a close that is taken frees the
record and the port, has the tap recomputed, and judges BALANCE_OVERFLOW when the freed flag was set (R134). -/
def Obligations.AccountClose : Prop :=
  ∀ (tag : Byte) (k : Nat) (s u : State),
    let c := Instr.accountClose tag k
    let refused (condition : Nat) : Host.Outcome State Fault Refusal :=
      replies c { status := .wrongState, fields := [.uint 1 condition] } u
    executes c s u →
    (¬(1 ≤ k ∧ k ≤ 99999999) → exec c s = replies c (refusal .outOfRange) u) ∧
    (1 ≤ k → k ≤ 99999999 →
      (findAccount k u.accounts = none → exec c s = replies c (refusal .notFound) u) ∧
      (∀ a, findAccount k u.accounts = some a →
        let freed := recompute a.address { u with
          accounts := u.accounts.filter fun r => r.number ≠ k,
          taps := u.taps.map fun r =>
            if r.address = a.address then { r with ports := vecModify r.ports (a.port - 1) fun _ => none } else r }
        exec c s =
          if a.state ≠ .cut then refused 0
          else if a.balance ≠ 0 then refused 1
          else if a.purchases ≠ [] then refused 2
          else if a.latch ≠ .cut ∧ a.latch ≠ .none then refused 3
          else if a.overflow then
            let present := freed.accounts.any (·.overflow)
            replies c (replyOk []) (giveCondition balanceOverflowSource present
              { freed with meter := { freed.meter with balanceOverflow := present } })
          else replies c (replyOk []) freed))

/-! ### Outage Monitor -/

/-- The node state machine: what a node's entry into a state leaves and gives (R115), re-evaluation by the counts (R109,
R111, R112, R114), the probe answer (R113), the expiry of the restore hold (R114), and NODE_CONFIG with its clamping, its
re-evaluation and NODE_POWER judged anew (R108, R121; log entry 14). An expiry is due when the tick has made the timer of a
RESTORING node absent (log entry 4), and without one RESTORE_HOLD_EXPIRY changes nothing (log entry 8). -/
def Obligations.NodeStatesFollowTheCounts : Prop :=
  (∀ (s : State) (n : Nat), 1 ≤ n → n ≤ 32 →
    let p (u : State) := u.taps.countP fun t =>
      t.node = n ∧ (t.state = .online ∨ t.state = .missing ∨ t.state = .silent)
    let silent (u : State) := u.taps.countP fun t => t.node = n ∧ t.state = .silent
    let limits := (nodeOf s n).thresholds
    let outage (u : State) := limits.outagePercent * p u ≤ silent u * 100
    let judged (u : State) : NodeState :=
      if p u = 0 then .unknown
      else if outage u then .outage
      else if limits.degradedPercent * p u ≤ silent u * 100 then .degraded
      else .normal
    let enter (state : NodeState) (timer : Option Nat) (u : State) : State :=
      let v : State := { u with
        nodes := vecModify u.nodes (n - 1) fun r => { r with state := state, restoreTimer := timer } }
      if state = .outage ∨ state = .restoring then
        giveCondition (nodeOutageSource n) true (giveCondition (nodeDegradedSource n) false v)
      else
        giveCondition (nodeDegradedSource n) (decide (state = .degraded))
          (giveCondition (nodeOutageSource n) false v)
    let state := (nodeOf s n).state
    (state = .unknown ∨ state = .normal ∨ state = .degraded → reevaluate n s = enter (judged s) none s) ∧
    (state = .outage → reevaluate n s = if p s = 0 then enter .unknown none s else s) ∧
    (state = .restoring → reevaluate n s =
      if p s = 0 then enter .unknown none s else if outage s then enter .outage none s else s) ∧
    (∀ probe,
      let u : State := { s with taps := s.taps.map fun t =>
        if t.node = n ∧ t.state = .silent ∧ t.address ≠ probe then { t with state := .unknown, miss := 0 } else t }
      (state = .outage → probeAnswer n probe s =
        if p u = 0 then enter .unknown none u
        else if limits.restoreHold = 0 then enter (judged u) none u
        else enter .restoring (some limits.restoreHold) u) ∧
      (state ≠ .outage → probeAnswer n probe s = s)) ∧
    (s.phase = .running → exec (.restoreHoldExpiry n) s =
      if state = .restoring ∧ (nodeOf s n).restoreTimer = none then .next (enter (judged s) none s) else .next s)) ∧
  (∀ (tag : Byte) (node missLimit degradedPercent outagePercent restoreHold powerThreshold powerHysteresis levelStep : Nat)
    (s u : State),
    let c := Instr.nodeConfig tag node missLimit degradedPercent outagePercent restoreHold powerThreshold
      powerHysteresis levelStep
    let outage := max 1 (min 100 outagePercent)
    let applied : Thresholds := {
      missLimit := max 1 (min 15 missLimit), degradedPercent := min (max 1 (min 100 degradedPercent)) outage,
      outagePercent := outage, restoreHold := min 3600 restoreHold, powerThreshold := min 999 powerThreshold,
      powerHysteresis := min 100 powerHysteresis, levelStep := max 5 (min 200 levelStep) }
    executes c s u →
    (¬(1 ≤ node ∧ node ≤ 32) → exec c s = replies c (refusal .outOfRange) u) ∧
    (1 ≤ node → node ≤ 32 →
      let v := reevaluate node
        { u with nodes := vecModify u.nodes (node - 1) fun r => { r with thresholds := applied } }
      let power := match (nodeOf u node).current with
        | none => (nodeOf u node).power
        | some reading =>
          if reading.voltage < applied.powerThreshold then true
          else if min 999 (applied.powerThreshold + applied.powerHysteresis) ≤ reading.voltage then false
          else (nodeOf u node).power
      exec c s =
        replies c
          (replyOk [.uint 1 applied.missLimit, .uint 1 applied.degradedPercent, .uint 1 applied.outagePercent,
            .uint 2 applied.restoreHold, .uint 2 applied.powerThreshold, .uint 2 applied.powerHysteresis,
            .uint 2 applied.levelStep])
          (giveCondition (nodePowerSource node) power
            { v with nodes := vecModify v.nodes (node - 1) fun r => { r with power := power } })))

/-- A minute end taken by the monitor (R117 to R119): the sample is fixed unless it already belongs to the minute, or
to a later one (log entry 19), the tallies of its nodes rise, and a marked minute end hands every node's tally to the
Meter and zeroes it. Source supervision (R123, R124): a change of level restarts the input's count, and while the part
does not run it changes the pin alone (log entry 15); the verdict of the third whole second sets the debounced state,
and SOURCE_LOST is judged from it and the sources in use. The verdict is a step of its own after its tick (log entry
4), and with none due SOURCE_DEBOUNCE_VERDICT changes nothing (log entry 8). -/
def Obligations.MinuteSamplesAndSources : Prop :=
  (∀ (s : State) (m : MinuteEnd) (rest : List MinuteEnd), s.phase = .running → s.due.monitorEnds = m :: rest →
    rising s.sample.nodes → (∀ n ∈ s.sample.nodes, 1 ≤ n ∧ n ≤ 32) →
      let sample : MinuteSample :=
        if ∀ held ∈ s.sample.minute, held < m.time then {
          minute := some m.time,
          nodes := (upTo 32).filter fun n => (nodeOf s n).state = .outage,
          inputs := (upTo 64).filter fun i => (inputOf s i).debounced = .lost }
        else s.sample
      let tally (n : Nat) : Nat :=
        if n ∈ sample.nodes then min 15 ((nodeOf s n).tally + 1) else (nodeOf s n).tally
      ∃ t, exec .monitorMinuteEnd s = .next t ∧ t.sample = sample ∧
        (∀ n ∈ upTo 32, nodeOf t n = { nodeOf s n with tally := if m.marked then 0 else tally n }) ∧
        t.due = { s.due with
          monitorEnds := rest,
          tallies := s.due.tallies ++
            if m.marked then (upTo 32).map fun n => { node := n, start := m.time - 900, tally := tally n } else [] } ∧
        { t with sample := s.sample, nodes := s.nodes, due := s.due } = s) ∧
  (∀ (s : State) (i : Nat), 1 ≤ i → i ≤ 64 →
    let r := inputOf s i
    let put (f : InputRec → InputRec) : State := { s with inputs := vecModify s.inputs (i - 1) f }
    (∀ high : Bool,
      (s.phase = .running → exec (.sourceLevelChange i high) s =
        if r.high = high then .next s
        else .next (put fun x => { x with high := high, steady := 0, partialMark := true })) ∧
      (s.phase ≠ .running → exec (.sourceLevelChange i high) s = .next (put fun x => { x with high := high }))) ∧
    (s.phase = .running →
      (r.verdictDue = none → exec (.sourceDebounceVerdict i) s = .next s) ∧
      (∀ high, r.verdictDue = some high →
        let debounced := if high then Debounced.present else .lost
        let lost := !high && s.lineup.sourcesInUse.contains i
        exec (.sourceDebounceVerdict i) s =
          .next (giveCondition (sourceLostSource i) lost
            (put fun x => { x with debounced := debounced, verdictDue := none, lost := lost })))))

/-! ### Meter -/

/-- The saturating balance update (R133) with BALANCE_OVERFLOW (R134), and the law of the residue over any run of accruals
of one account (R130, R131): the charges of the run add up to the whole part of everything owed, and the residue is what is
left of it. The OVERFLOW record is written, with JOURNAL_HIGH judged, before BALANCE_OVERFLOW is given (log entry 14). -/
def Obligations.ChargesAndBalances : Prop :=
  (∀ (s : State) (a : Account) (amount : Int) (needed : Nat),
    findAccount a.number s.accounts = some a → rising (s.accounts.map (·.number)) →
      let sum := a.balance + amount
      let balance := max (-2000000000) (min 2000000000 sum)
      let put (overflow : Bool) : State := { s with accounts := s.accounts.map fun r =>
        if r.number = a.number then { r with balance := balance, overflow := overflow } else r }
      (-2000000000 ≤ sum ∧ sum ≤ 2000000000 ∨ a.overflow = true →
        balanceUpdate a.number amount needed s = put a.overflow) ∧
      (¬(-2000000000 ≤ sum ∧ sum ≤ 2000000000) → a.overflow = false →
        let written :=
          if s.journal.records.length + s.journal.reserved + needed < 1024 then
            putJournal { s.journal with
              records := s.journal.records ++
                [{ sequence := s.journal.nextSequence, time := s.clock.time, body := .overflow a.number }],
              nextSequence := nextSequence s.journal.nextSequence } (put true)
          else put true
        balanceUpdate a.number amount needed s =
          giveCondition balanceOverflowSource true
            { written with meter := { written.meter with balanceOverflow := true } })) ∧
  (∀ (s : State) (a : Account) (rate : Nat) (tallies : List Nat),
    findAccount a.number s.accounts = some a → rising (s.accounts.map (·.number)) → a.latch = .active rate →
    a.residue ≤ 14 → a.credited ≤ 65535 → -2000000000 ≤ a.balance → (∀ t ∈ tallies, t ≤ 15) →
      let owed := (tallies.map fun t => rate * (15 - t)).sum + a.residue
      a.balance + ((owed / 15 : Nat) : Int) ≤ 2000000000 →
      findAccount a.number (tallies.foldl (fun u t => accrue a.number t u) s).accounts =
        some { a with
          balance := a.balance + ((owed / 15 : Nat) : Int),
          residue := owed % 15,
          credited := min 65535 (a.credited + tallies.sum) })

/-- METER_TALLY_TAKE (R129 to R136): the boundary tariff is fixed once for its boundary, and one held for a later
boundary is used as it stands (log entry 19); each account of the node is accrued by its latch, and re-latched from
its state and the tariff held; accounts of other nodes stand. The accounts that clip for the first time get OVERFLOW
records, in ascending order, as long as the journal has room (R133), and for each JOURNAL_HIGH (R170) and
BALANCE_OVERFLOW (R134) are given. That the record is written, with JOURNAL_HIGH judged, before BALANCE_OVERFLOW is
given is log entry 14. -/
def Obligations.MeterTallyTake : Prop :=
  ∀ (s : State) (m : TallyMessage) (rest : List TallyMessage),
    s.phase = .running → s.due.tallies = m :: rest → rising (s.accounts.map (·.number)) →
      let b := m.start + 900
      let held : Option BoundaryTariff :=
        if ∀ x ∈ s.meter.boundaryTariff, x.start < b then some { start := b, tariff := tariffFor b s.lineup }
        else s.meter.boundaryTariff
      let served (a : Account) : Bool := (findTap a.address s.taps).any fun r => r.node = m.node
      let owed (a : Account) : Nat := match a.latch with
        | .active rate => rate * (15 - m.tally) + a.residue
        | .hold rate => rate * 15 + a.residue
        | .cut => a.residue
        | .none => a.residue
      let accrues (a : Account) : Bool := a.latch != .cut && a.latch != .none
      let sum (a : Account) : Int := a.balance + ((owed a / 15 : Nat) : Int)
      let clips (a : Account) : Bool :=
        accrues a && !decide (-2000000000 ≤ sum a ∧ sum a ≤ 2000000000) && !a.overflow
      let clipping := s.accounts.filter fun a => served a && clips a
      let used := s.journal.records.length + s.journal.reserved
      let recorded := clipping.take (1024 - used)
      ∃ (t : State) (tariff : Tariff), exec .meterTallyTake s = .next t ∧
        held.map (·.tariff) = some tariff ∧
        t.meter = {
          boundaryTariff := held, balanceOverflow := s.meter.balanceOverflow || !clipping.isEmpty } ∧
        t.accounts.map (·.number) = s.accounts.map (·.number) ∧
        (∀ a ∈ s.accounts, ¬served a → a ∈ t.accounts) ∧
        (∀ a ∈ s.accounts, served a → ∃ x ∈ t.accounts,
          (x.number, x.address, x.port, x.state, x.tiers, x.purchases) =
            (a.number, a.address, a.port, a.state, a.tiers, a.purchases) ∧
          x.latch = (match a.state with
            | .active =>
              .active (((List.range 16).filter fun k => a.tiers.getLsbD k).map fun k => vecGet tariff.tiers k 0).sum
            | .hold => .hold tariff.holdRate
            | .cut => .cut) ∧
          (¬accrues a → x.balance = a.balance ∧ x.residue = a.residue ∧ x.credited = a.credited ∧
            x.overflow = a.overflow) ∧
          (accrues a →
            x.balance = max (-2000000000) (min 2000000000 (sum a)) ∧ x.residue = owed a % 15 ∧
            x.credited = min 65535 (a.credited + match a.latch with
              | .active _ => m.tally
              | _ => 0) ∧
            x.overflow = (a.overflow || clips a))) ∧
        (∃ written, t.journal.records = s.journal.records ++ written ∧
          written.map (fun r => (r.time, r.body)) = recorded.map (fun a => (s.clock.time, .overflow a.number)) ∧
          written.map (·.sequence) =
            (List.range recorded.length).map (fun i => nextSequence^[i] s.journal.nextSequence)) ∧
        t.journal.nextSequence = nextSequence^[recorded.length] s.journal.nextSequence ∧
        t.journal.reserved = s.journal.reserved ∧
        t.journal.high = (if recorded = [] then s.journal.high else decide (768 ≤ used + recorded.length)) ∧
        t.alarms = alarmsAfter s.clock.time
          ((List.range clipping.length).flatMap fun i =>
            (if i < recorded.length then [(journalHighSource, decide (768 ≤ used + i + 1))] else []) ++
              [(balanceOverflowSource, true)]) s.alarms ∧
        t.due = { s.due with tallies := rest } ∧
        { t with
          accounts := s.accounts, meter := s.meter, journal := s.journal, alarms := s.alarms, due := s.due } = s

/-- CYCLE_CLOSE (R138, R139): the range check, the room check with its detail, and the whole batch: one record for each
account of the range in ascending order under consecutive numbers, and the money fields cleared. JOURNAL_HIGH is given
behind each record (R170), and BALANCE_OVERFLOW at the end (R134). -/
def Obligations.CycleClose : Prop :=
  ∀ (tag : Byte) (low high : Nat) (s u : State),
    let c := Instr.cycleClose tag low high
    let chosen := u.accounts.filter fun a => low ≤ a.number ∧ a.number ≤ high
    let k := chosen.length
    let free := 1024 - u.journal.records.length - u.journal.reserved
    let inRange := (1 ≤ low ∧ low ≤ 99999999) ∧ (1 ≤ high ∧ high ≤ 99999999) ∧ low ≤ high
    executes c s u →
    (¬inRange → exec c s = replies c (refusal .outOfRange) u) ∧
    (inRange → free < k →
      exec c s = replies c { status := .journalFull, fields := [.uint 2 k, .uint 2 free] } u) ∧
    (inRange → k ≤ free → rising (u.accounts.map (·.number)) →
      ∃ (t : State) (written : List JournalRec),
        exec c s = replies c
          (replyOk (.uint 2 k :: if k = 0 then [.uint 1 0] else [.uint 1 1, .uint 4 u.journal.nextSequence])) t ∧
        t.accounts = u.accounts.map (fun a =>
          if low ≤ a.number ∧ a.number ≤ high then { a with balance := 0, credited := 0, overflow := false } else a) ∧
        t.journal.records = u.journal.records ++ written ∧
        written.map (fun r => (r.time, r.body)) =
          chosen.map (fun a => (u.clock.time, .cycleClose a.number a.balance a.credited a.overflow)) ∧
        written.map (·.sequence) = (List.range k).map (fun i => nextSequence^[i] u.journal.nextSequence) ∧
        t.journal.nextSequence = nextSequence^[k] u.journal.nextSequence ∧
        t.journal.reserved = u.journal.reserved ∧
        t.journal.high = (if k = 0 then u.journal.high
          else decide (768 ≤ u.journal.records.length + k + u.journal.reserved)) ∧
        t.meter = { u.meter with balanceOverflow := t.accounts.any (·.overflow) } ∧
        (alarmOf t.alarms balanceOverflowSource).condition = t.meter.balanceOverflow ∧
        t.alarms = alarmsAfter u.clock.time
          ((List.range k).map (fun i =>
              (journalHighSource, decide (768 ≤ u.journal.records.length + i + 1 + u.journal.reserved))) ++
            [(balanceOverflowSource, t.meter.balanceOverflow)]) u.alarms ∧
        { t with accounts := u.accounts, journal := u.journal, meter := u.meter, alarms := u.alarms } = u)

/-! ### Events and purchases -/

/-- EVENT_ADD (R146): its seven checks in their order, and the record created. A close time beyond 4,294,967,295 in the 4-byte
field of the reply is log entry 25. -/
def Obligations.EventAdd : Prop :=
  ∀ (tag : Byte) (id channel start duration window price threshold : Nat) (s u : State),
    let c := Instr.eventAdd tag id channel start duration window price threshold
    let ends := start + 60 * duration
    let made : EventRec := {
      id := id, channel := channel, start := start, duration := duration, window := window, price := price,
      threshold := threshold, state := .onSale, counters := Vector.replicate 32 0, holders := [] }
    let overlaps (h : EventRec) : Prop :=
      h.channel = channel ∧ h.start < ends ∧ start < h.start + 60 * h.duration
    let ppv (b : Bank) : Prop := ∃ x, b.entries.find? (fun e => e.channel = channel) = some x ∧ x.kind = .ppv
    executes c s u →
    (u.clock.state = .unset → exec c s = replies c (refusal .timeUnset) u) ∧
    (u.clock.state = .set →
      (¬((1 ≤ id ∧ id ≤ 255) ∧ (1 ≤ channel ∧ channel ≤ 999) ∧ (1 ≤ duration ∧ duration ≤ 480) ∧ window ≤ 60 ∧
          price ≤ 50000000 ∧ (1 ≤ threshold ∧ threshold ≤ 480) ∧ start % 60 = 0 ∧ u.clock.time < start ∧
          ends ≤ 4294967280) → exec c s = replies c (refusal .outOfRange) u) ∧
      ((1 ≤ id ∧ id ≤ 255) ∧ (1 ≤ channel ∧ channel ≤ 999) ∧ (1 ≤ duration ∧ duration ≤ 480) ∧ window ≤ 60 ∧
          price ≤ 50000000 ∧ (1 ≤ threshold ∧ threshold ≤ 480) ∧ start % 60 = 0 ∧ u.clock.time < start ∧
          ends ≤ 4294967280 →
        ((∃ e ∈ u.events, e.id = id) → exec c s = replies c (refusal .existing) u) ∧
        ((∀ e ∈ u.events, e.id ≠ id) →
          (¬ppv u.lineup.active → exec c s = replies c (refusal .conflict) u) ∧
          (ppv u.lineup.active →
            ((∃ b ∈ u.lineup.scheduled, b < ends) → ¬ppv u.lineup.staged →
              exec c s = replies c (refusal .conflict) u) ∧
            ((∀ b ∈ u.lineup.scheduled, b < ends → ppv u.lineup.staged) →
              (∀ h ∈ u.events, overlaps h → (∀ x ∈ u.events, overlaps x → h.id ≤ x.id) →
                rising (u.events.map (·.id)) →
                exec c s = replies c { status := .conflict, fields := [.uint 1 h.id] } u) ∧
              ((∀ h ∈ u.events, ¬overlaps h) →
                (32 ≤ u.events.length → exec c s = replies c (refusal .tableFull) u) ∧
                (u.events.length < 32 →
                  exec c s = replies c (replyOk [.uint 4 ends, .uint 4 (start + 60 * window)])
                    { u with events := insertEvent made u.events } ∧
                  (rising (u.events.map (·.id)) →
                    rising ((insertEvent made u.events).map (·.id)) ∧
                      ∀ e, e ∈ insertEvent made u.events ↔ e = made ∨ e ∈ u.events))))))))

/-- Purchases: the six steps of an acceptance (R150), the nine cases of a plant purchase with its answer in its reserved place
(R151, R46), and the ten checks of PURCHASE_ENTER in their order (R153). That the handed purchases are decided in the
order in which they were handed, the oldest first, is log entry 3. -/
def Obligations.PurchasesAreDecided : Prop :=
  (∀ (s : State) (a : Account) (e : EventRec) (origin : Origin) (counter : Option Nat),
    findAccount a.number s.accounts = some a → rising (s.accounts.map (·.number)) →
    s.journal.records.length + s.journal.reserved + 2 ≤ 1024 →
      let charged := balanceUpdate a.number e.price 2 s
      let recorded := putJournal { charged.journal with
        records := charged.journal.records ++
          [{ sequence := charged.journal.nextSequence, time := s.clock.time,
             body := .purchase a.number e.id e.price origin }],
        nextSequence := nextSequence charged.journal.nextSequence } charged
      let reserved := putJournal { recorded.journal with reserved := recorded.journal.reserved + 1 } recorded
      acceptPurchase a e origin counter s = recompute a.address { reserved with
        accounts := reserved.accounts.map fun r =>
          if r.number = a.number then
            { r with purchases := r.purchases ++
              [{ event := e.id, price := e.price, time := s.clock.time, origin := origin, counter := counter }] }
          else r,
        events := reserved.events.map fun r =>
          if r.id = e.id then { r with holders := r.holders ++ [a.number] } else r }) ∧
  (∀ (s : State) (p : PlantPurchase) (rest : List PlantPurchase), s.phase = .running → s.due.purchases = p :: rest →
    let u : State := { s with due := { s.due with purchases := rest } }
    let answered (verdict : Verdict) (v : State) : Host.Outcome State Fault Refusal := .next { v with
      carrier := { v.carrier with
        answers := v.carrier.answers ++
          [{ address := p.address, port := p.port, event := p.event, verdict := verdict }],
        reserved := v.carrier.reserved - 1 } }
    let bound := (boundAccount s p.address p.port).bind fun k => findAccount k s.accounts
    (findEvent p.event s.events = none → exec .purchaseDecide s = answered (.refused .closed) u) ∧
    (∀ e, findEvent p.event s.events = some e →
      (bound = none → exec .purchaseDecide s = answered (.refused .notActive) u) ∧
      (∀ a, bound = some a → exec .purchaseDecide s =
        if ∃ b ∈ a.purchases, b.event = p.event then answered .accepted u
        else if e.state = .runningClosed then answered (.refused .closed) u
        else if a.state ≠ .active then answered (.refused .notActive) u
        else if (findTap a.address s.taps).any (·.model ≠ .event) = true then answered (.refused .notCapable) u
        else if 2 ≤ a.purchases.length then answered (.refused .limit) u
        else if 1024 < s.journal.records.length + s.journal.reserved + 2 then answered .deferred u
        else answered .accepted (acceptPurchase a e .plant (some p.counter) u)))) ∧
  (∀ (tag : Byte) (k id : Nat) (s u : State),
    let c := Instr.purchaseEnter tag k id
    executes c s u →
    (u.clock.state = .unset → exec c s = replies c (refusal .timeUnset) u) ∧
    (u.clock.state = .set →
      (¬((1 ≤ k ∧ k ≤ 99999999) ∧ (1 ≤ id ∧ id ≤ 255)) → exec c s = replies c (refusal .outOfRange) u) ∧
      (1 ≤ k → k ≤ 99999999 → 1 ≤ id → id ≤ 255 →
        (findAccount k u.accounts = none ∨ findEvent id u.events = none →
          exec c s = replies c (refusal .notFound) u) ∧
        (∀ a e, findAccount k u.accounts = some a → findEvent id u.events = some e →
          exec c s =
            if ∃ b ∈ a.purchases, b.event = id then replies c (refusal .existing) u
            else if a.state ≠ .active ∨ e.state = .runningClosed then replies c (refusal .wrongState) u
            else if (findTap a.address u.taps).any (·.model ≠ .event) = true then replies c (refusal .notCapable) u
            else if 2 ≤ a.purchases.length then replies c (refusal .tableFull) u
            else if 1024 < u.journal.records.length + u.journal.reserved + 2 then
              replies c {
                status := .journalFull,
                fields := [.uint 2 (1024 - u.journal.records.length - u.journal.reserved)] } u
            else
              replies c
                (replyOk [.uint 4 e.price, .uint 4 (balanceUpdate k e.price 2 u).journal.nextSequence])
                (acceptPurchase a e .host none u)))))

/-- How events move and end: a minute end counts, advances and settles every held event (R147 to R149, R155); the step at a
restart credits the downtime, advances and settles (R160); EVENT_CANCEL refunds every holder in full (R157). The alarms
take changes of JOURNAL_HIGH and BALANCE_OVERFLOW alone (R170, R134). A sample held
for a later minute is used as it stands (log entry 19), and the step at a restart is a command of its own (log entry 20). -/
def Obligations.EventsAdvanceAndEnd : Prop :=
  (∀ (s : State) (m : MinuteEnd) (rest : List MinuteEnd),
    s.phase = .running → s.due.eventEnds = m :: rest → reservationsSound s → bindingsSound s →
      let sample : MinuteSample :=
        if ∀ held ∈ s.sample.minute, held < m.time then {
          minute := some m.time,
          nodes := (upTo 32).filter fun n => (nodeOf s n).state = .outage,
          inputs := (upTo 64).filter fun i => (inputOf s i).debounced = .lost }
        else s.sample
      let counted (e : EventRec) : EventRec :=
        if e.state ≠ .onSale ∧ m.time ≤ endTime e then
          { e with counters := vecMapIdx (fun i v =>
            if (∃ source ∈ sourceOf e.channel s.lineup.active, source ∈ sample.inputs) ∨ i + 1 ∈ sample.nodes then
              min e.duration (v + 1)
            else v) e.counters }
        else e
      let after (e : EventRec) : EventRec :=
        let opened := if e.state = .onSale ∧ e.start ≤ m.time then EventState.runningOpen else e.state
        { counted e with
          state := if opened = .runningOpen ∧ closeTime e ≤ m.time then .runningClosed else opened }
      ∃ t, exec .eventMinuteEnd s = .next t ∧ t.sample = sample ∧ t.due = { s.due with eventEnds := rest } ∧
        t.events = (s.events.filter fun e => m.time < endTime e).map after ∧
        endsEvents .settled (settlementOwes s) ((s.events.filter fun e => endTime e ≤ m.time).map after)
          (s.events.filter fun e => (after e).state ≠ e.state ∨ endTime e ≤ m.time) s t) ∧
  (∀ (s : State) (down up : Nat),
    s.phase = .running → s.due.restartStep = true → s.clock.resetTime = some down → s.clock.restartTime = some up →
    reservationsSound s → bindingsSound s →
      let credit (e : EventRec) : Nat := (min up (endTime e) - max down e.start + 59) / 60
      let after (e : EventRec) : EventRec :=
        let opened := if e.state = .onSale ∧ e.start ≤ up then EventState.runningOpen else e.state
        { e with
          counters := vecMap (fun v => min e.duration (v + credit e)) e.counters,
          state := if opened = .runningOpen ∧ closeTime e ≤ up then .runningClosed else opened }
      ∃ t, exec .restartEventStep s = .next t ∧ t.sample = s.sample ∧
        t.due = { s.due with restartStep := false } ∧
        t.events = (s.events.filter fun e => up < endTime e).map after ∧
        endsEvents .settled (settlementOwes s) ((s.events.filter fun e => endTime e ≤ up).map after)
          (s.events.filter fun e => endTime e ≤ up) s t) ∧
  (∀ (tag : Byte) (id : Nat) (s u : State),
    let c := Instr.eventCancel tag id
    executes c s u →
    (¬(1 ≤ id ∧ id ≤ 255) → exec c s = replies c (refusal .outOfRange) u) ∧
    (1 ≤ id → id ≤ 255 →
      (findEvent id u.events = none → exec c s = replies c (refusal .notFound) u) ∧
      (∀ e, findEvent id u.events = some e → reservationsSound u → bindingsSound u →
        ∃ t, exec c s = replies c (replyOk [.uint 2 e.holders.length]) t ∧ t.sample = u.sample ∧ t.due = u.due ∧
          t.events = u.events.filter (fun x => x.id ≠ id) ∧
          endsEvents .cancelled (fun _ _ => true) [e] [e] u t)))

/-! ### Billing Journal -/

/-- JOURNAL_RELEASE (R169): the record named and every older one leave the list in one step, and the reply tells what is
left; a number not held is refused, as a repeated release is. -/
def Obligations.JournalRelease : Prop :=
  ∀ (tag : Byte) (q : Nat) (s u : State),
    let c := Instr.journalRelease tag q
    executes c s u →
    (q = 0 → exec c s = replies c (refusal .outOfRange) u) ∧
    (q ≠ 0 →
      ((∀ r ∈ u.journal.records, r.sequence ≠ q) → exec c s = replies c (refusal .notFound) u) ∧
      (∀ older r newer, u.journal.records = older ++ r :: newer → r.sequence = q → (∀ x ∈ older, x.sequence ≠ q) →
        exec c s =
            replies c
              (replyOk ([.uint 2 (older.length + 1)] ++
                (match newer.head? with
                  | none => [.uint 1 0]
                  | some x => [.uint 1 1, .uint 4 x.sequence]) ++
                [.uint 2 newer.length, .uint 2 (1024 - newer.length - u.journal.reserved)]))
              (putJournal { u.journal with records := newer } u) ∧
          (journalSound u.journal → ∀ x ∈ newer, x.sequence ≠ q)))

/-! ### Alarms -/

/-- A condition change (R173, R181, R182) and the report queue's arbiter (R179, R180): a value already held changes nothing; a
change moves its source by its state (R181; log entry 26), and a LATCHED source that clears reports it or owes it; the change
is carried through the composites in ascending index (R176), each taking its own by the same machine, and one whose two
operands both change being recomputed once, after both (log entry 28); the queue is then filled one report at a time, in the arbiter's order, until it is full or nothing remains. -/
def Obligations.ConditionChangesAndReports : Prop :=
  (∀ (a : Alarms) (now i : Nat) (present : Bool), i < 234 →
    let r := alarmOf a i
    ((alarmOf a i).condition = present → alarmsGive now i present a = a) ∧
    ((alarmOf a i).condition ≠ present →
      alarmsGive now i present a = fill now (cascade now (List.range 8) [i] (takeCondition now i present a))) ∧
    (∃ state reported transient clearOwed queue,
      takeCondition now i present a = { a with
        sources := vecModify a.sources i fun _ => { r with
          condition := present, state := state, reported := reported, transient := transient,
          clearOwed := clearOwed },
        queue := queue } ∧
      (state, reported, transient, clearOwed, queue) =
        match r.state, present with
        | .idle, true =>
          if r.level = 0 then (.idle, r.reported, r.transient, r.clearOwed, a.queue)
          else (.pending, r.reported, false, r.clearOwed, a.queue)
        | .pending, false =>
          if r.kind = .following then (.idle, r.reported, false, r.clearOwed, a.queue)
          else (.pending, r.reported, true, r.clearOwed, a.queue)
        | .latched, false =>
          if a.queue.length < 16 then (.idle, none, r.transient, r.clearOwed, a.queue ++ [.cleared i now])
          else (.idle, none, r.transient, true, a.queue)
        | other, _ => (other, r.reported, r.transient, r.clearOwed, a.queue))) ∧
  (∀ (a : Alarms) (now k : Nat) (ks changed : List Nat), k < 8 →
    cascade now [] changed a = a ∧
    (vecGet a.composites k none = none → cascade now (k :: ks) changed a = cascade now ks changed a) ∧
    (∀ d, vecGet a.composites k none = some d →
      let x := (alarmOf a d.a).condition
      let y := (alarmOf a d.b).condition
      let value := match d.op with
        | .and => x && y
        | .or => x || y
        | .xor => x != y
        | .andNot => x && !y
      let latch := vecGet a.latches k false || (d.hold && value)
      let present := value || (d.hold && latch)
      let latched : Alarms := { a with latches := vecModify a.latches k fun _ => latch }
      (d.a ∉ changed → d.b ∉ changed → cascade now (k :: ks) changed a = cascade now ks changed a) ∧
      (d.a ∈ changed ∨ d.b ∈ changed →
        ((alarmOf a (226 + k)).condition = present →
          cascade now (k :: ks) changed a = cascade now ks changed latched) ∧
        ((alarmOf a (226 + k)).condition ≠ present →
          cascade now (k :: ks) changed a =
            cascade now ks ((226 + k) :: changed) (takeCondition now (226 + k) present latched))))) ∧
  (∀ (a : Alarms) (now i : Nat) (present : Bool), i < 226 → alarmsSound a →
    let b := alarmsGive now i present a
    (alarmOf b i).condition = present ∧
      (∀ k, k < 226 → k ≠ i → (alarmOf b k).condition = (alarmOf a k).condition) ∧
      b.composites = a.composites ∧ b.express = a.express ∧ (compositesSound a → compositesSound b)) ∧
  (∀ (a : Alarms) (i : Nat), i < 234 →
    let level := (a.sources.toList.filterMap fun r => if r.state = .opened then r.reported else none).foldl max 0
    let able (k : Nat) : Prop :=
      (alarmOf a k).state = .pending ∧ (alarmOf a k).clearOwed = false ∧
        (level < (alarmOf a k).level ∨ a.express.toList.contains (some k) = true)
    serviceLevel a = level ∧
    (nextRaise a = some i ↔
      able i ∧
        (vecGet a.express 0 none = some i ∨
          ((∀ k, vecGet a.express 0 none = some k → ¬able k) ∧
            (vecGet a.express 1 none = some i ∨
              ((∀ k, vecGet a.express 1 none = some k → ¬able k) ∧ 1 ≤ (alarmOf a i).level ∧
                (alarmOf a i).level ≤ 3 ∧
                ∀ k, k < 234 → able k → 1 ≤ (alarmOf a k).level → (alarmOf a k).level ≤ 3 →
                  (alarmOf a k).level < (alarmOf a i).level ∨
                    ((alarmOf a k).level = (alarmOf a i).level ∧ i ≤ k))))))) ∧
  (∀ (a : Alarms) (now : Nat),
    (∀ i, nextRaise a = some i → i < 234 →
      takeReport now a = some { a with
        sources := vecModify a.sources i fun r =>
          { r with state := .opened, reported := some r.level, transient := false },
        queue := a.queue ++ [.raised i (alarmOf a i).level (alarmOf a i).condition (alarmOf a i).transient
          (a.express.toList.contains (some i)) now] }) ∧
    (nextRaise a = none →
      (∀ i, i < 234 → (alarmOf a i).clearOwed = true → (∀ k, k < i → (alarmOf a k).clearOwed = false) →
        takeReport now a = some { a with
          sources := vecModify a.sources i fun r => { r with clearOwed := false },
          queue := a.queue ++ [.cleared i now] }) ∧
      ((∀ k, k < 234 → (alarmOf a k).clearOwed = false) → takeReport now a = none)) ∧
    (16 ≤ a.queue.length → fill now a = a) ∧
    (takeReport now a = none → fill now a = a) ∧
    (∀ b, a.queue.length < 16 → takeReport now a = some b → fill now a = fill now b) ∧
    (16 ≤ (fill now a).queue.length ∨ takeReport now (fill now a) = none))

/-- ALARM_SET (R174): its two checks in their order, and every source of the range given the level and kind by its state, the
queue then filled. -/
def Obligations.AlarmSet : Prop :=
  ∀ (tag : Byte) (low high level kind : Nat) (s u : State),
    let c := Instr.alarmSet tag low high level kind
    let inRange := low ≤ 233 ∧ high ≤ 233 ∧ low ≤ high ∧ level ≤ 3 ∧ kind ≤ 1
    let following := kind = 1
    let held := ∃ x ∈ u.alarms.express.toList, ∃ i ∈ x, low ≤ i ∧ i ≤ high
    let given (r : AlarmRec) : AlarmRec := { r with level := level, kind := if following then .following else .latching }
    let idle (r : AlarmRec) : AlarmRec := { given r with state := .idle, transient := false }
    executes c s u →
    (¬inRange → exec c s = replies c (refusal .outOfRange) u) ∧
    (inRange → level ≠ 3 → held → exec c s = replies c (refusal .conflict) u) ∧
    (inRange → level = 3 ∨ ¬held → ∃ sources,
      exec c s = replies c (replyOk [.uint 2 (high - low + 1)])
        { u with alarms := fill u.clock.time { u.alarms with sources := sources } } ∧
      ∀ i, i < 234 →
        let r := alarmOf u.alarms i
        vecGet sources i coldAlarm =
          if low ≤ i ∧ i ≤ high then
            match r.state with
            | .idle =>
              if level ≠ 0 ∧ r.condition = true then { given r with state := .pending, transient := false } else given r
            | .pending => if level = 0 ∨ (following ∧ r.condition = false) then idle r else given r
            | .opened => if level = 0 then { given r with state := .idle, reported := none } else given r
            | .deferred => if level = 0 then { given r with state := .idle, reported := none } else given r
            | .latched => if level = 0 then { given r with state := .idle, reported := none } else given r
          else r)

/-- Composites: COMPOSITE_DEFINE (R175) and COMPOSITE_RELEASE (R177) with their checks in their order. Each recomputes the
composite, takes a change of its condition by its own record, carries it to the composites above (R176; log entry 28), fills
the queue and replies the condition; the conditions of the sources below the composite stand. A hold choice of 0 is set, and
a condition of 0 in the reply is present (log entry 10); a hold byte that is neither 0 nor 1 is OUT_OF_RANGE before CONFLICT
is checked (log entry 27). -/
def Obligations.CompositesDefinedAndReleased : Prop :=
  let recomputed (now k : Nat) (present : Bool) (a : Alarms) : Alarms :=
    fill now
      (if (alarmOf a (226 + k)).condition = present then a
      else cascade now (List.range 8) [226 + k] (takeCondition now (226 + k) present a))
  (∀ (tag : Byte) (index operation a b hold : Nat) (s u : State),
    let c := Instr.compositeDefine tag index operation a b hold
    let inRange := index ≤ 7 ∧ a ≤ 233 ∧ b ≤ 233 ∧ operation ≤ 3 ∧ hold ≤ 1
    executes c s u →
    (¬inRange → exec c s = replies c (refusal .outOfRange) u) ∧
    (inRange → 226 + index ≤ a ∨ 226 + index ≤ b → exec c s = replies c (refusal .conflict) u) ∧
    (inRange → a < 226 + index → b < 226 + index → alarmsSound u.alarms →
      let x := (alarmOf u.alarms a).condition
      let y := (alarmOf u.alarms b).condition
      let present := match operation with
        | 0 => x && y
        | 1 => x || y
        | 2 => x != y
        | _ => x && !y
      let made : CompositeDef := {
        op := match operation with
          | 0 => .and
          | 1 => .or
          | 2 => .xor
          | _ => .andNot,
        a := a, b := b, hold := decide (hold = 0) }
      let alarms := recomputed u.clock.time index present { u.alarms with
        composites := vecModify u.alarms.composites index fun _ => some made,
        latches := vecModify u.alarms.latches index fun _ => decide (hold = 0) && present }
      exec c s = replies c (replyOk [.uint 1 (if present then 0 else 1)]) { u with alarms := alarms } ∧
      vecGet alarms.composites index none = some made ∧
      vecGet alarms.latches index false = (decide (hold = 0) && present) ∧
      (alarmOf alarms (226 + index)).condition = present ∧
      ∀ i, i < 226 + index → (alarmOf alarms i).condition = (alarmOf u.alarms i).condition)) ∧
  (∀ (tag : Byte) (index : Nat) (s u : State),
    let c := Instr.compositeRelease tag index
    executes c s u →
    (7 < index → exec c s = replies c (refusal .outOfRange) u) ∧
    (index ≤ 7 → vecGet u.alarms.composites index none = none → exec c s = replies c (refusal .notFound) u) ∧
    (∀ d, index ≤ 7 → vecGet u.alarms.composites index none = some d → alarmsSound u.alarms →
      let present := compositeValue u.alarms d
      let alarms := recomputed u.clock.time index present { u.alarms with
        latches := vecModify u.alarms.latches index fun _ => d.hold && present }
      exec c s = replies c (replyOk [.uint 1 (if present then 0 else 1)]) { u with alarms := alarms } ∧
      vecGet alarms.latches index false = (d.hold && present) ∧
      (alarmOf alarms (226 + index)).condition = present ∧
      ∀ i, i < 226 + index → (alarmOf alarms i).condition = (alarmOf u.alarms i).condition))

/-- ALARM_EXPRESS (R178), ALARM_ACK (R183) and ALARM_DEFER (R184): their checks in their order, the slot or the source's new
state, and the queue filled. -/
def Obligations.ExpressAcknowledgeDefer : Prop :=
  (∀ (tag : Byte) (slot : Nat) (source : Option Nat) (s u : State),
    let c := Instr.alarmExpress tag slot source
    let now := vecGet u.alarms.express slot none
    executes c s u →
    exec c s =
      if ¬(slot ≤ 1 ∧ ∀ i ∈ source, i ≤ 233) then replies c (refusal .outOfRange) u
      else if ∃ i ∈ source, (alarmOf u.alarms i).level ≠ 3 then replies c (refusal .conflict) u
      else if source ≠ none ∧ vecGet u.alarms.express (1 - slot) none = source then replies c (refusal .conflict) u
      else if now ≠ source ∧ ∃ i ∈ now, (alarmOf u.alarms i).state = .opened then replies c (refusal .conflict) u
      else
        replies c (replyOk []) { u with
          alarms := fill u.clock.time { u.alarms with
            express := vecModify u.alarms.express slot fun _ => source } }) ∧
  (∀ (tag : Byte) (i : Nat) (s u : State),
    let r := alarmOf u.alarms i
    let put (f : AlarmRec → AlarmRec) : State := { u with
      alarms := fill u.clock.time { u.alarms with sources := vecModify u.alarms.sources i f } }
    (executes (.alarmAck tag i) s u → exec (.alarmAck tag i) s =
      if 233 < i then replies (.alarmAck tag i) (refusal .outOfRange) u
      else if r.state ≠ .opened ∧ r.state ≠ .deferred then replies (.alarmAck tag i) (refusal .wrongState) u
      else if r.condition then replies (.alarmAck tag i) (replyOk [.uint 1 4]) (put fun x => { x with state := .latched })
      else replies (.alarmAck tag i) (replyOk [.uint 1 0]) (put fun x => { x with state := .idle, reported := none })) ∧
    (executes (.alarmDefer tag i) s u → exec (.alarmDefer tag i) s =
      if 233 < i then replies (.alarmDefer tag i) (refusal .outOfRange) u
      else if r.state = .opened then
        replies (.alarmDefer tag i) (replyOk []) (put fun x => { x with state := .deferred })
      else replies (.alarmDefer tag i) (refusal .wrongState) u))

/-! ### Reading -/

/-- The requests that read: each replies what stands and leaves everything else (R19, R55, R64, R84, R104, R125, R158, R168,
R185). The rules and R196 do not settle every byte of these replies; the model's readings are the codes of two-valued fields
(log entry 10), the sizes, count and presence bytes, places and orders of log entry 18, the close time of EVENT_READ beyond
the last second of a time (log entry 25), the source of an express slot or none (log entry 29) and the confirmed field of ACCOUNT_READ
(log entry 30). -/
def Obligations.ReadsReplyWhatStands : Prop :=
  ∀ (tag : Byte) (s u : State),
    let flag (b : Bool) : Field := Field.uint 1 (if b then 0 else 1)
    let optional (size : Nat) (x : Option Nat) : List Field := match x with
      | none => [Field.uint 1 0]
      | some v => [Field.uint 1 1, Field.uint size v]
    let port (p : PortSetting) : List Field :=
      [Field.uint 1 (if p.on then 1 else 0), Field.uint 2 p.tiers.toNat, Field.uint 1 p.grants.length] ++
        p.grants.flatMap fun g => [Field.uint 1 g.event, Field.uint 1 g.slot]
    let status (x : Option TapStatus) : List Field := match x with
      | none => [Field.uint 1 0]
      | some v => [Field.uint 1 1, Field.uint 3 v.address] ++ v.ports.toList.flatMap port ++
          [Field.uint 1 v.version, Field.uint 1 v.serial, Field.sint 2 v.level]
    let reading (x : Option Reading) : List Field := match x with
      | none => [Field.uint 1 0]
      | some v => [Field.uint 1 1, Field.uint 2 v.voltage, Field.sint 2 v.level]
    (∀ bank low high : Nat, let c := Instr.lineupRead tag bank low high
      executes c s u →
      let b := if bank = 0 then u.lineup.active else u.lineup.staged
      let found := b.entries.filter fun e => low ≤ e.channel ∧ e.channel ≤ high
      exec c s =
        if ¬(bank ≤ 1 ∧ 1 ≤ low ∧ high ≤ 999 ∧ low ≤ high) then replies c (refusal .outOfRange) u
        else
          replies c
            (replyOk ([Field.uint 1 b.version, Field.uint 2 b.entries.length] ++
              (if bank = 0 then [Field.uint 4 u.lineup.effective]
                else match u.lineup.scheduled with
                  | none => [Field.uint 1 0]
                  | some t => [Field.uint 1 1, Field.uint 4 t]) ++
              b.tariff.tiers.toList.map (Field.uint 4 ·) ++ [Field.uint 4 b.tariff.holdRate] ++
              Field.uint 1 (min 32 found.length) :: ((found.take 32).flatMap fun e =>
                [Field.uint 2 e.channel, Field.uint 1 e.slot, Field.uint 1 e.source,
                  Field.uint 1 (if e.kind = .tiered then 0 else 1)] ++
                optional 1 e.tier ++ Field.uint 1 e.label.length :: e.label.map fun x => Field.uint 1 x.toNat) ++
              (match found[32]? with
                | none => [Field.uint 1 0]
                | some e => [Field.uint 1 1, Field.uint 2 e.channel]))) u) ∧
    (∀ address : Nat, let c := Instr.tapRead tag address
      executes c s u →
      (¬(1 ≤ address ∧ address ≤ 16777214) → exec c s = replies c (refusal .outOfRange) u) ∧
      (1 ≤ address → address ≤ 16777214 →
        (∀ t, findTap address u.taps = some t →
          let w := t.switching
          let shown : List Field :=
            [Field.uint 3 t.address, Field.uint 1 t.node, Field.uint 1 (tapModelCode t.model)] ++
            t.ports.toList.flatMap (optional 4) ++
            [Field.uint 1 (unitStateCode t.state), Field.uint 1 t.miss] ++
            optional 1 (t.last.map classificationCode) ++ status t.current ++ status t.previous ++
            optional 1 t.version ++ [flag t.stale] ++ w.desired.toList.flatMap port ++
            (match w.confirmed with
              | none => [Field.uint 1 0]
              | some x => Field.uint 1 1 :: x.toList.flatMap port) ++
            [Field.uint 1 w.serial, flag w.inFlight] ++
            optional 2 ((u.commandQueue.findIdx? fun x => x = t.address).map fun k => k + 1) ++
            [Field.uint 2 w.attempts, flag w.fault]
          exec c s = replies c (replyOk shown) u) ∧
        (findTap address u.taps = none →
          (∀ n, transponderNode address u = some n →
            let r := transponderOf u n
            let shown : List Field :=
              Field.uint 1 n :: optional 3 r.address ++ [Field.uint 1 (unitStateCode r.state), Field.uint 1 r.miss] ++
              optional 1 (r.last.map classificationCode) ++ reading r.current ++ reading r.previous
            exec c s = replies c (replyOk shown) u) ∧
          (transponderNode address u = none → exec c s = replies c (refusal .notFound) u)))) ∧
    (∀ list start : Nat, let c := Instr.pollRead tag list start
      executes c s u →
      let shown := ((if list = 0 then u.sched.current else u.sched.next).drop start).take 32
      exec c s =
        if ¬(list ≤ 1 ∧ start ≤ 543) then replies c (refusal .outOfRange) u
        else
          replies c
            (replyOk ([Field.uint 1 (schedulerStateCode u.sched.state), Field.uint 1 (pollOrderCode u.sched.orderInForce),
              Field.uint 1 (pollOrderCode u.sched.orderSelected), Field.uint 4 u.sched.passCount, Field.uint 2 u.sched.cursor,
              Field.uint 2 (visitCount u.sched.orderInForce u.sched.current.length), Field.uint 2 u.sched.current.length,
              Field.uint 2 u.sched.next.length, Field.uint 1 shown.length] ++
              shown.flatMap fun e => [Field.uint 1 (unitKindCode e.kind), Field.uint 3 e.address, Field.uint 1 e.node])) u) ∧
    (∀ node : Nat, let c := Instr.nodeRead tag node
      executes c s u →
      (¬(1 ≤ node ∧ node ≤ 32) → exec c s = replies c (refusal .outOfRange) u) ∧
      (1 ≤ node → node ≤ 32 →
        let r := nodeOf u node
        let taps (state : UnitState) : Field := Field.uint 2 (u.taps.countP fun t => t.node = node ∧ t.state = state)
        exec c s = replies c
          (replyOk ([Field.uint 1 (nodeStateCode r.state), Field.uint 1 r.thresholds.missLimit,
            Field.uint 1 r.thresholds.degradedPercent, Field.uint 1 r.thresholds.outagePercent,
            Field.uint 2 r.thresholds.restoreHold, Field.uint 2 r.thresholds.powerThreshold,
            Field.uint 2 r.thresholds.powerHysteresis, Field.uint 2 r.thresholds.levelStep] ++
            optional 2 r.restoreTimer ++
            [Field.uint 1 r.tally,
              Field.uint 2 (u.taps.countP fun t =>
                t.node = node ∧ (t.state = .online ∨ t.state = .missing ∨ t.state = .silent)),
              taps .silent, taps .unknown, taps .online, taps .missing, taps .silent, taps .removing] ++
            optional 3 (transponderOf u node).address ++
            reading r.current ++ reading r.previous ++
            [flag (r.state = .outage ∨ r.state = .restoring), flag (r.state = .degraded), flag r.power,
              flag r.levelStep])) u)) ∧
    (∀ low high : Nat, let c := Instr.sourceRead tag low high
      executes c s u →
      exec c s =
        if ¬(1 ≤ low ∧ high ≤ 64 ∧ low ≤ high) then replies c (refusal .outOfRange) u
        else
          replies c
            (replyOk (Field.uint 1 (high + 1 - low) :: ((List.range' low (high + 1 - low)).flatMap fun i =>
              let r := inputOf u i
              let debounced : Nat := match r.debounced with
                | .present => 0
                | .lost => 1
                | .unknown => 2
              [flag r.high, Field.uint 1 debounced, Field.uint 1 r.steady, flag (i ∈ u.lineup.sourcesInUse),
                flag r.lost]))) u) ∧
    (∀ k : Nat, let c := Instr.accountRead tag k
      executes c s u →
      (¬(1 ≤ k ∧ k ≤ 99999999) → exec c s = replies c (refusal .outOfRange) u) ∧
      (1 ≤ k → k ≤ 99999999 →
        (findAccount k u.accounts = none → exec c s = replies c (refusal .notFound) u) ∧
        (∀ a t, findAccount k u.accounts = some a → findTap a.address u.taps = some t →
          exec c s = replies c
            (replyOk ([Field.uint 4 a.number, Field.uint 3 a.address, Field.uint 1 a.port,
                Field.uint 1 (accountStateCode a.state), Field.uint 2 a.tiers.toNat,
                Field.uint 1 a.purchases.length] ++
              (a.purchases.flatMap fun p =>
                [Field.uint 1 p.event, Field.uint 4 p.price, Field.uint 4 p.time,
                  Field.uint 1 (if p.origin = .plant then 0 else 1)] ++ optional 1 p.counter) ++
              [Field.sint 4 a.balance, Field.uint 1 a.residue, Field.uint 2 a.credited, flag a.overflow,
                Field.uint 1 (latchCode a.latch)] ++
              (match a.latch with
                | .active rate => [Field.uint 1 1, Field.uint 4 rate]
                | .hold rate => [Field.uint 1 1, Field.uint 4 rate]
                | .cut => [Field.uint 1 0]
                | .none => [Field.uint 1 0]) ++
              [Field.uint 1 t.node, Field.uint 1 (tapModelCode t.model), flag (portConfirmed t a.port),
                flag t.switching.fault])) u))) ∧
    (∀ event start : Nat, let c := Instr.eventRead tag event start
      executes c s u →
      (¬(1 ≤ event ∧ event ≤ 255 ∧ start ≤ 1023) → exec c s = replies c (refusal .outOfRange) u) ∧
      (1 ≤ event → event ≤ 255 → start ≤ 1023 →
        (findEvent event u.events = none → exec c s = replies c (refusal .notFound) u) ∧
        (∀ e, findEvent event u.events = some e →
          let shown := (e.holders.drop start).take 32
          exec c s = replies c
            (replyOk ([Field.uint 1 e.id, Field.uint 2 e.channel, Field.uint 4 e.start, Field.uint 2 e.duration, Field.uint 1 e.window,
              Field.uint 4 e.price, Field.uint 2 e.threshold, Field.uint 1 (eventStateCode e.state)] ++
              e.counters.toList.map (Field.uint 2 ·) ++
              [Field.uint 4 (e.start + 60 * e.duration), Field.uint 4 (e.start + 60 * e.window), Field.uint 2 e.holders.length,
                Field.uint 1 shown.length] ++
              shown.map (Field.uint 4 ·) ++
              (if start + 32 < e.holders.length then [Field.uint 1 1, Field.uint 2 (start + 32)] else [Field.uint 1 0]))) u))) ∧
    (executes (.eventList tag) s u →
      exec (.eventList tag) s = replies (.eventList tag)
        (replyOk (Field.uint 1 u.events.length :: u.events.flatMap fun e =>
          [Field.uint 1 e.id, Field.uint 2 e.channel, Field.uint 4 e.start, Field.uint 4 (e.start + 60 * e.duration),
            Field.uint 1 (eventStateCode e.state), Field.uint 2 e.holders.length])) u) ∧
    (∀ count : Nat, let c := Instr.journalRead tag count
      executes c s u →
      let shown := u.journal.records.take (max 1 (min 16 count))
      exec c s = replies c
        (replyOk ([Field.uint 2 u.journal.records.length, Field.uint 2 u.journal.reserved,
          Field.uint 2 (1024 - u.journal.records.length - u.journal.reserved), Field.uint 4 u.journal.nextSequence,
          Field.uint 1 shown.length] ++
          shown.flatMap fun r =>
            let kind (k : Nat) : List Field := [Field.uint 4 r.sequence, Field.uint 1 k, Field.uint 4 r.time]
            match r.body with
            | .purchase account event price origin =>
              kind 0 ++ [Field.uint 4 account, Field.uint 1 event, Field.uint 4 price,
                Field.uint 1 (if origin = .plant then 0 else 1)]
            | .refund account event amount cause =>
              kind 1 ++ [Field.uint 4 account, Field.uint 1 event, Field.uint 4 amount,
                Field.uint 1 (if cause = .settled then 0 else 1)]
            | .cycleClose account balance credited overflow =>
              kind 2 ++ [Field.uint 4 account, Field.sint 4 balance, Field.uint 2 credited, flag overflow]
            | .overflow account => kind 3 ++ [Field.uint 4 account]
            | .gap down up => kind 4 ++ [Field.uint 4 down, Field.uint 4 up]
            | .switchover version => kind 5 ++ [Field.uint 1 version])) u) ∧
    (∀ low high : Nat, let c := Instr.alarmQuery tag low high
      executes c s u →
      let lo := min 233 low
      let hi := max lo (min (min 233 (lo + 31)) high)
      let composites := (List.range 8).filter fun k => lo ≤ 226 + k ∧ 226 + k ≤ hi
      exec c s = replies c
        (replyOk ([Field.uint 1 lo, Field.uint 1 hi, Field.uint 1 (serviceLevel u.alarms), Field.uint 2 u.alarms.queue.length] ++
          u.alarms.express.toList.flatMap (optional 1) ++
          Field.uint 1 (hi + 1 - lo) :: ((List.range' lo (hi + 1 - lo)).flatMap fun i =>
            let r := alarmOf u.alarms i
            [Field.uint 1 r.level, Field.uint 1 (if r.kind = .latching then 0 else 1), flag r.condition,
              Field.uint 1 (alarmStateCode r.state)] ++ optional 1 r.reported ++
            [flag r.transient, flag r.clearOwed, flag (some i ∈ u.alarms.express.toList)]) ++
          Field.uint 1 composites.length :: composites.flatMap fun k =>
            (match vecGet u.alarms.composites k none with
              | none => [Field.uint 1 0]
              | some d => [Field.uint 1 1, Field.uint 1 (compositeOpCode d.op), Field.uint 1 d.a, Field.uint 1 d.b,
                  flag d.hold]) ++
            [flag (vecGet u.alarms.latches k false)])) u)

/-! ### Invariants that every step keeps -/

/-- The Line-Up Store stays sound (R13, R14), and so do the Control Carrier, whose answers always find their places (R46,
R47), and the Host Link within Table 12-1. -/
def Obligations.LineupCarrierAndLinkStaySound : Prop :=
  ∀ s t : State, step s = .next t →
    (lineupSound s.lineup → lineupSound t.lineup) ∧ (carrierSound s → carrierSound t) ∧
      (linkSound s.link → linkSound t.link)

/-- The Service Clock stays sound, so that each minute boundary is given out at most once and in rising order (R1, R3, R5,
R6), and so does the Outage Monitor within its tables (R108, R117, R118, R123). -/
def Obligations.ClockAndMonitorStaySound : Prop :=
  ∀ s t : State, step s = .next t → (clockSound s → clockSound t) ∧ (monitorSound s → monitorSound t)

/-- The Tap Directory and the Account Store stay sound: addresses and numbers held once, the next-pass list an arrangement of
the units on record (R50, R52, R56), and each port and its account naming one another (R71 to R74). -/
def Obligations.DirectoryAndAccountsStaySound : Prop :=
  ∀ s t : State, step s = .next t →
    (directorySound s → directorySound t) ∧ (accountsSound s → accountsSound t) ∧ (bindingsSound s → bindingsSound t)

/-- The reservations equal the open purchases plus a scheduled switchover (R166) with the holders lists and purchase lists
describing the same purchases (R144), and the journal keeps its bound and its numbering (R162, R163). -/
def Obligations.ReservationsAndJournalStayExact : Prop :=
  ∀ s t : State, step s = .next t →
    (reservationsSound s → reservationsSound t) ∧ (journalSound s.journal → journalSound t.journal)

/-- The Alarm Controller stays sound: its records, and at most five sources OPEN, at most one of level 1, one of level 2 and
three of level 3, of which two express (R178, R179), with every composite the value of its operands (R176) while every tap
is of a node 1..32. -/
def Obligations.AlarmsStaySound : Prop :=
  ∀ s t : State, step s = .next t → alarmsSound s.alarms →
    alarmsSound t.alarms ∧ (directorySound s → compositesSound s.alarms → compositesSound t.alarms)

/-- Each copy of a condition agrees with its owner's (R173), and the owners' conditions are what their rules say (R103, R115,
R124, R134, R170) while every tap is of a node 1..32, with the switching records sound (R93 to R98, R102). -/
def Obligations.ConditionCopiesAgree : Prop :=
  ∀ s t : State, step s = .next t → switchingSound s →
    switchingSound t ∧ (directorySound s → conditionsSound s → conditionsSound t)

/-- The state after a cold reset is sound in every block. -/
def Obligations.ResetStateIsSound : Prop :=
  lineupSound State.reset.lineup ∧ carrierSound State.reset ∧ linkSound State.reset.link ∧ clockSound State.reset ∧
    monitorSound State.reset ∧ directorySound State.reset ∧ accountsSound State.reset ∧ bindingsSound State.reset ∧
    reservationsSound State.reset ∧ journalSound State.reset.journal ∧ alarmsSound State.reset.alarms ∧
    compositesSound State.reset.alarms ∧ switchingSound State.reset ∧ conditionsSound State.reset
end

