-- ==== Sys2Proof/Laws/Tables.lean ====
section
/-! SUPPORT. Tables of fixed length and keyed records: what a read gives after a write, and what an insertion holds. -/

namespace Sys2Proof.Machine

/-! ### Tables of fixed length -/

theorem vecGet_of_lt {α : Type} {n : Nat} (v : Vector α n) (i : Nat) (d : α) (h : i < n) : vecGet v i d = v[i] := by
  simp [vecGet, List.getD_eq_getElem?_getD, h]

theorem vecGet_of_ge {α : Type} {n : Nat} (v : Vector α n) (i : Nat) (d : α) (h : n ≤ i) : vecGet v i d = d := by
  simp [vecGet, List.getD_eq_getElem?_getD, h]

/-- A read after a change gives the changed entry at its index, and the entry that stood everywhere else. -/
theorem vecGet_vecModify {α : Type} {n : Nat} (v : Vector α n) (i j : Nat) (f : α → α) (d : α) :
    vecGet (vecModify v i f) j d = if i = j ∧ j < n then f (vecGet v j d) else vecGet v j d := by
  by_cases hj : j < n
  · simp only [vecGet, vecModify, List.getD_eq_getElem?_getD]
    have : (v.toList.modify i f)[j]? = (fun a => if i = j then f a else a) <$> v.toList[j]? :=
      List.getElem?_modify f i v.toList j
    simp only [Vector.toList] at this ⊢
    rw [this]
    by_cases hij : i = j <;> simp [hij, hj]
  · rw [vecGet_of_ge _ _ _ (by omega), vecGet_of_ge _ _ _ (by omega)]
    simp [hj]

theorem vecGet_vecMap {α β : Type} {n : Nat} (f : α → β) (v : Vector α n) (i : Nat) (d : α) (e : β) (h : i < n) :
    vecGet (vecMap f v) i e = f (vecGet v i d) := by
  simp [vecGet, vecMap, Vector.toList, List.getD_eq_getElem?_getD, h]

theorem vecGet_vecMapIdx {α β : Type} {n : Nat} (f : Nat → α → β) (v : Vector α n) (i : Nat) (d : α) (e : β)
    (h : i < n) : vecGet (vecMapIdx f v) i e = f i (vecGet v i d) := by
  simp [vecGet, vecMapIdx, Vector.toList, List.getD_eq_getElem?_getD, h]

@[simp] theorem vecGet_replicate {α : Type} (n i : Nat) (a : α) : vecGet (Vector.replicate n a) i a = a := by
  by_cases h : i < n
  · simp [vecGet, Vector.toList, List.getD_eq_getElem?_getD, h]
  · exact vecGet_of_ge _ _ _ (by omega)

theorem mem_upTo {n k : Nat} : k ∈ upTo n ↔ 1 ≤ k ∧ k ≤ n := by
  simp only [upTo, List.mem_map, List.mem_range]
  constructor
  · rintro ⟨a, h, rfl⟩; omega
  · intro h; exact ⟨k - 1, by omega, by omega⟩

theorem nodeOf_modifyNode (n m : Nat) (f : NodeRec → NodeRec) (s : State) (hn : 1 ≤ n) (hm : 1 ≤ m) (h : m ≤ 32) :
    nodeOf (modifyNode n f s) m = if n = m then f (nodeOf s m) else nodeOf s m := by
  simp only [nodeOf, modifyNode, vecGet_vecModify]
  by_cases e : n = m
  · subst e; simp; omega
  · rw [if_neg (by omega), if_neg e]

theorem inputOf_modifyInput (i j : Nat) (f : InputRec → InputRec) (s : State) (hi : 1 ≤ i) (hj : 1 ≤ j) (h : j ≤ 64) :
    inputOf (modifyInput i f s) j = if i = j then f (inputOf s j) else inputOf s j := by
  simp only [inputOf, modifyInput, vecGet_vecModify]
  by_cases e : i = j
  · subst e; simp; omega
  · rw [if_neg (by omega), if_neg e]

theorem transponderOf_modifyTransponder (n m : Nat) (f : TransponderRec → TransponderRec) (s : State) (hn : 1 ≤ n)
    (hm : 1 ≤ m) (h : m ≤ 32) :
    transponderOf (modifyTransponder n f s) m = if n = m then f (transponderOf s m) else transponderOf s m := by
  simp only [transponderOf, modifyTransponder, vecGet_vecModify]
  by_cases e : n = m
  · subst e; simp; omega
  · rw [if_neg (by omega), if_neg e]

/-! ### Keyed records -/

theorem findTap_some {a : Nat} {taps : List TapRec} {t : TapRec} (h : findTap a taps = some t) :
    t ∈ taps ∧ t.address = a :=
  ⟨List.mem_of_find?_eq_some h, by simpa using List.find?_some h⟩

theorem findAccount_some {k : Nat} {accounts : List Account} {a : Account} (h : findAccount k accounts = some a) :
    a ∈ accounts ∧ a.number = k :=
  ⟨List.mem_of_find?_eq_some h, by simpa using List.find?_some h⟩

theorem findEvent_some {k : Nat} {events : List EventRec} {e : EventRec} (h : findEvent k events = some e) :
    e ∈ events ∧ e.id = k :=
  ⟨List.mem_of_find?_eq_some h, by simpa using List.find?_some h⟩

/-- A change of one tap record that keeps addresses is what a later search of that address finds, and nothing to any
other search. -/
theorem findTap_modifyTap (a b : Nat) (f : TapRec → TapRec) (hf : ∀ t, (f t).address = t.address)
    (taps : List TapRec) :
    findTap b (modifyTap a f taps) = (findTap b taps).map fun t => if t.address = a then f t else t := by
  induction taps with
  | nil => rfl
  | cons t ts ih =>
    simp only [findTap, modifyTap, List.map_cons, List.find?_cons] at ih ⊢
    have : (if t.address = a then f t else t).address = t.address := by split <;> simp [hf]
    rw [this]
    by_cases h : t.address = b <;> simp [h, ih]

theorem findAccount_modifyAccount (k l : Nat) (f : Account → Account) (hf : ∀ a, (f a).number = a.number)
    (accounts : List Account) :
    findAccount l (modifyAccount k f accounts) = (findAccount l accounts).map fun a => if a.number = k then f a else a := by
  induction accounts with
  | nil => rfl
  | cons a as ih =>
    simp only [findAccount, modifyAccount, List.map_cons, List.find?_cons] at ih ⊢
    have : (if a.number = k then f a else a).number = a.number := by split <;> simp [hf]
    rw [this]
    by_cases h : a.number = l <;> simp [h, ih]

theorem findEvent_modifyEvent (k l : Nat) (f : EventRec → EventRec) (hf : ∀ e, (f e).id = e.id) (events : List EventRec) :
    findEvent l (modifyEvent k f events) = (findEvent l events).map fun e => if e.id = k then f e else e := by
  induction events with
  | nil => rfl
  | cons e es ih =>
    simp only [findEvent, modifyEvent, List.map_cons, List.find?_cons] at ih ⊢
    have : (if e.id = k then f e else e).id = e.id := by split <;> simp [hf]
    rw [this]
    by_cases h : e.id = l <;> simp [h, ih]

@[simp] theorem modifyTap_addresses (a : Nat) (f : TapRec → TapRec) (hf : ∀ t, (f t).address = t.address)
    (taps : List TapRec) : (modifyTap a f taps).map (·.address) = taps.map (·.address) := by
  simp only [modifyTap, List.map_map]
  refine List.map_congr_left fun t _ => ?_
  simp only [Function.comp]
  split <;> simp [hf]

@[simp] theorem modifyAccount_numbers (k : Nat) (f : Account → Account) (hf : ∀ a, (f a).number = a.number)
    (accounts : List Account) : (modifyAccount k f accounts).map (·.number) = accounts.map (·.number) := by
  simp only [modifyAccount, List.map_map]
  refine List.map_congr_left fun t _ => ?_
  simp only [Function.comp]
  split <;> simp [hf]

@[simp] theorem modifyEvent_ids (k : Nat) (f : EventRec → EventRec) (hf : ∀ e, (f e).id = e.id) (events : List EventRec) :
    (modifyEvent k f events).map (·.id) = events.map (·.id) := by
  simp only [modifyEvent, List.map_map]
  refine List.map_congr_left fun t _ => ?_
  simp only [Function.comp]
  split <;> simp [hf]

end Sys2Proof.Machine
end

