-- ==== Sys2Proof/Laws/Alarms.lean ====
section
/-! SUPPORT. What the Alarm Controller's operations do to a record, and that filling the report queue leaves every
condition, definition, latch and express slot alone, and that the taking of conditions leaves every level and kind alone. -/

namespace Sys2Proof.Machine

theorem alarmOf_modifyAlarm (i j : Nat) (f : AlarmRec → AlarmRec) (a : Alarms) (h : j < 234) :
    alarmOf (modifyAlarm i f a) j = if i = j then f (alarmOf a j) else alarmOf a j := by
  simp only [alarmOf, modifyAlarm, vecGet_vecModify]
  by_cases e : i = j <;> simp [e, h]

/-- A change of a record that leaves its condition alone leaves every condition alone. -/
theorem condition_modifyAlarm (i j : Nat) (f : AlarmRec → AlarmRec) (hf : ∀ r, (f r).condition = r.condition)
    (a : Alarms) : (alarmOf (modifyAlarm i f a) j).condition = (alarmOf a j).condition := by
  by_cases h : j < 234
  · rw [alarmOf_modifyAlarm _ _ _ _ h]; split <;> simp [hf]
  · simp only [alarmOf]; rw [vecGet_of_ge _ _ _ (by omega), vecGet_of_ge _ _ _ (by omega)]

/-- What reports leave alone. -/
structure ReportsOnly (a b : Alarms) : Prop where
  condition : ∀ i, (alarmOf b i).condition = (alarmOf a i).condition
  express : b.express = a.express
  composites : b.composites = a.composites
  latches : b.latches = a.latches

theorem ReportsOnly.refl (a : Alarms) : ReportsOnly a a := ⟨fun _ => rfl, rfl, rfl, rfl⟩

theorem ReportsOnly.trans {a b c : Alarms} (h : ReportsOnly a b) (k : ReportsOnly b c) : ReportsOnly a c :=
  ⟨fun i => (k.condition i).trans (h.condition i), k.express.trans h.express, k.composites.trans h.composites,
    k.latches.trans h.latches⟩

theorem takeRaise_reportsOnly (now i : Nat) (a : Alarms) : ReportsOnly a (takeRaise now i a) :=
  ⟨fun j => condition_modifyAlarm i j
    (fun r => { r with state := .opened, reported := some r.level, transient := false }) (fun _ => rfl) a,
    rfl, rfl, rfl⟩

theorem takeClear_reportsOnly (now i : Nat) (a : Alarms) : ReportsOnly a (takeClear now i a) :=
  ⟨fun j => condition_modifyAlarm i j (fun r => { r with clearOwed := false }) (fun _ => rfl) a, rfl, rfl, rfl⟩

theorem takeReport_reportsOnly {now : Nat} {a b : Alarms} (h : takeReport now a = some b) : ReportsOnly a b := by
  unfold takeReport at h
  split at h
  · cases h; exact takeRaise_reportsOnly _ _ _
  · obtain ⟨i, -, rfl⟩ := Option.map_eq_some_iff.1 h
    exact takeClear_reportsOnly _ _ _

theorem fillQueue_reportsOnly (now fuel : Nat) (a : Alarms) : ReportsOnly a (fillQueue now fuel a) := by
  induction fuel generalizing a with
  | zero => exact .refl a
  | succ n ih =>
    unfold fillQueue
    split
    · split
      · exact (takeReport_reportsOnly ‹_›).trans (ih _)
      · exact .refl a
    · exact .refl a

/-- R180: filling the queue leaves conditions, slots, definitions and latches alone. -/
theorem fill_reportsOnly (now : Nat) (a : Alarms) : ReportsOnly a (fill now a) := fillQueue_reportsOnly now 16 a

theorem conditionStep_condition (present room : Bool) (r : AlarmRec) :
    (conditionStep present room r).condition = present := by
  unfold conditionStep
  cases r.state <;> cases present <;> simp only [] <;> (try split) <;> rfl

/-- R173: the source that takes a condition has it, and every other source has what it had. -/
theorem condition_takeCondition (now i j : Nat) (present : Bool) (a : Alarms) (h : j < 234) :
    (alarmOf (takeCondition now i present a) j).condition = if i = j then present else (alarmOf a j).condition := by
  have : alarmOf (takeCondition now i present a) j =
      alarmOf (modifyAlarm i (conditionStep present (a.queue.length < 16)) a) j := rfl
  rw [this, alarmOf_modifyAlarm _ _ _ _ h]
  split
  · exact conditionStep_condition _ _ _
  · rfl

/-- A composite's recomputation changes the condition of no other source. -/
theorem condition_recomputeComposite (now k j : Nat) (a : Alarms) (h : j < 234) (hj : j ≠ compositeSource k) :
    (alarmOf (recomputeComposite now k a) j).condition = (alarmOf a j).condition := by
  unfold recomputeComposite
  split
  · rfl
  · simp only []
    split
    · rfl
    · rw [condition_takeCondition _ _ _ _ _ h, if_neg (Ne.symm hj)]; rfl

/-- R176: carrying changes through the composites changes the condition of no fixed source. -/
theorem condition_cascade (now j : Nat) (h : j < 226) (ks changed : List Nat) (a : Alarms) :
    (alarmOf (cascade now ks changed a) j).condition = (alarmOf a j).condition := by
  induction ks generalizing changed a with
  | nil => rfl
  | cons k ks ih =>
    unfold cascade
    split
    · rw [ih]; exact condition_recomputeComposite _ _ _ _ (by omega) (by unfold compositeSource; omega)
    · exact ih _ _

/-- R173: after a condition is given, its source has it, and every other fixed source has what it had. -/
theorem condition_alarmsGive (now i j : Nat) (present : Bool) (a : Alarms) (h : j < 226) :
    (alarmOf (alarmsGive now i present a) j).condition = if i = j then present else (alarmOf a j).condition := by
  unfold alarmsGive
  split
  · rename_i e
    split
    · rename_i ij; subst ij; exact e
    · rfl
  · rw [(fill_reportsOnly _ _).condition, condition_cascade _ _ h, condition_takeCondition _ _ _ _ _ (by omega)]

/-! ### Levels, kinds, slots and definitions -/

/-- What conditions and reports leave alone: the host's own settings. -/
structure SettingsStand (a b : Alarms) : Prop where
  level : ∀ i, (alarmOf b i).level = (alarmOf a i).level
  kind : ∀ i, (alarmOf b i).kind = (alarmOf a i).kind
  express : b.express = a.express
  composites : b.composites = a.composites

theorem SettingsStand.refl (a : Alarms) : SettingsStand a a := ⟨fun _ => rfl, fun _ => rfl, rfl, rfl⟩

theorem SettingsStand.trans {a b c : Alarms} (h : SettingsStand a b) (k : SettingsStand b c) : SettingsStand a c :=
  ⟨fun i => (k.level i).trans (h.level i), fun i => (k.kind i).trans (h.kind i), k.express.trans h.express,
    k.composites.trans h.composites⟩

/-- A change of one record that keeps its level and kind, with the queue and the latches changed at will. -/
theorem settingsStand_modifyAlarm (i : Nat) (f : AlarmRec → AlarmRec)
    (hf : ∀ r, (f r).level = r.level ∧ (f r).kind = r.kind) (a : Alarms) (latches : Vector Bool 8) (queue : List AlarmReport) :
    SettingsStand a { modifyAlarm i f a with latches := latches, queue := queue } := by
  have key : ∀ j, (alarmOf (modifyAlarm i f a) j).level = (alarmOf a j).level ∧
      (alarmOf (modifyAlarm i f a) j).kind = (alarmOf a j).kind := by
    intro j
    by_cases h : j < 234
    · rw [alarmOf_modifyAlarm _ _ _ _ h]; split <;> simp [hf]
    · simp only [alarmOf]; rw [vecGet_of_ge _ _ _ (by omega), vecGet_of_ge _ _ _ (by omega)]; simp
  exact ⟨fun j => (key j).1, fun j => (key j).2, rfl, rfl⟩

theorem conditionStep_settings (present room : Bool) (r : AlarmRec) :
    (conditionStep present room r).level = r.level ∧ (conditionStep present room r).kind = r.kind := by
  unfold conditionStep
  cases r.state <;> cases present <;> simp only [] <;> (try split) <;> simp

theorem takeCondition_settings (now i : Nat) (present : Bool) (a : Alarms) :
    SettingsStand a (takeCondition now i present a) :=
  settingsStand_modifyAlarm i _ (conditionStep_settings _ _) a a.latches _

theorem takeReport_settings {now : Nat} {a b : Alarms} (h : takeReport now a = some b) : SettingsStand a b := by
  unfold takeReport at h
  split at h
  · cases h
    exact settingsStand_modifyAlarm _ (fun r => { r with state := .opened, reported := some r.level, transient := false })
      (fun _ => ⟨rfl, rfl⟩) a a.latches _
  · obtain ⟨i, -, rfl⟩ := Option.map_eq_some_iff.1 h
    exact settingsStand_modifyAlarm i (fun r => { r with clearOwed := false }) (fun _ => ⟨rfl, rfl⟩) a a.latches _

theorem fill_settings (now : Nat) (a : Alarms) : SettingsStand a (fill now a) := by
  suffices ∀ fuel b, SettingsStand b (fillQueue now fuel b) from this 16 a
  intro fuel
  induction fuel with
  | zero => exact .refl
  | succ n ih =>
    intro b
    unfold fillQueue
    split
    · split
      · exact (takeReport_settings ‹_›).trans (ih _)
      · exact .refl b
    · exact .refl b

theorem recomputeComposite_settings (now k : Nat) (a : Alarms) : SettingsStand a (recomputeComposite now k a) := by
  unfold recomputeComposite
  split
  · exact .refl a
  · simp only []
    split
    · exact ⟨fun _ => rfl, fun _ => rfl, rfl, rfl⟩
    · refine SettingsStand.trans (b := { a with latches := _ }) ?_ (takeCondition_settings _ _ _ _)
      exact ⟨fun _ => rfl, fun _ => rfl, rfl, rfl⟩

theorem cascade_settings (now : Nat) (ks changed : List Nat) (a : Alarms) :
    SettingsStand a (cascade now ks changed a) := by
  induction ks generalizing changed a with
  | nil => exact .refl a
  | cons k ks ih =>
    unfold cascade
    split
    · exact (recomputeComposite_settings _ _ _).trans (ih _ _)
    · exact ih _ _

/-- R173: a condition given changes no level, kind, express slot or definition. -/
theorem alarmsGive_settings (now i : Nat) (present : Bool) (a : Alarms) : SettingsStand a (alarmsGive now i present a) := by
  unfold alarmsGive
  split
  · exact .refl a
  · exact (takeCondition_settings _ _ _ _).trans ((cascade_settings _ _ _ _).trans (fill_settings _ _))

/-! ### Several changes one after another -/

@[simp] theorem alarmsAfter_nil (now : Nat) (a : Alarms) : alarmsAfter now [] a = a := rfl

@[simp] theorem alarmsAfter_cons (now : Nat) (x : Nat × Bool) (given : List (Nat × Bool)) (a : Alarms) :
    alarmsAfter now (x :: given) a = alarmsAfter now given (alarmsGive now x.1 x.2 a) := rfl

theorem alarmsAfter_append (now : Nat) (xs ys : List (Nat × Bool)) (a : Alarms) :
    alarmsAfter now (xs ++ ys) a = alarmsAfter now ys (alarmsAfter now xs a) := List.foldl_append

theorem alarmsAfter_settings (now : Nat) (given : List (Nat × Bool)) (a : Alarms) :
    SettingsStand a (alarmsAfter now given a) := by
  induction given generalizing a with
  | nil => exact .refl a
  | cons x given ih => exact (alarmsGive_settings _ _ _ _).trans (ih _)

/-- A source that no change names keeps its condition, be it no composite (R173). -/
theorem condition_alarmsAfter_other (now j : Nat) (h : j < 226) (given : List (Nat × Bool)) (a : Alarms)
    (hj : ∀ x ∈ given, x.1 ≠ j) : (alarmOf (alarmsAfter now given a) j).condition = (alarmOf a j).condition := by
  induction given generalizing a with
  | nil => rfl
  | cons x given ih =>
    rw [alarmsAfter_cons, ih _ fun y hy => hj y (by simp [hy]), condition_alarmsGive _ _ _ _ _ h,
      if_neg (hj x (by simp))]

end Sys2Proof.Machine
end

