-- ==== Sys2Proof/Laws/PerInstr.lean ====
section
/-! SUPPORT. The per-command family RequestFrame: the kind, tag and field values of a request fit the fields of its kind,
and make the request again. -/

namespace Sys2Proof.Laws

/-- A request's kind is one of Table 12-4 with a clear most significant bit, its values are as many as the fields of that
kind, and kind, tag and values make the request again. -/
def RequestFrame.Statement (i : Instr) : Prop :=
  ∀ (kind : Nat) (tag : Byte) (values : List FieldValue), requestParts i = some (kind, tag, values) →
    kind < 128 ∧ buildRequest kind tag values = some i ∧
      ∃ forms, requestForms kind = some forms ∧ values.length = forms.length

theorem RequestFrame.firstPower : RequestFrame.Statement (.firstPower) := by
  nofun

theorem RequestFrame.mainPowerLoss : RequestFrame.Statement (.mainPowerLoss) := by
  nofun

theorem RequestFrame.backupBelowRetention : RequestFrame.Statement (.backupBelowRetention) := by
  nofun

theorem RequestFrame.mainPowerReturn : RequestFrame.Statement (.mainPowerReturn) := by
  nofun

theorem RequestFrame.resetPin : RequestFrame.Statement (.resetPin) := by
  nofun

theorem RequestFrame.restartUp : RequestFrame.Statement (.restartUp) := by
  nofun

theorem RequestFrame.restartEventStep : RequestFrame.Statement (.restartEventStep) := by
  nofun

theorem RequestFrame.gapRecord : RequestFrame.Statement (.gapRecord) := by
  nofun

theorem RequestFrame.secondTick : RequestFrame.Statement (.secondTick) := by
  nofun

theorem RequestFrame.monitorMinuteEnd : RequestFrame.Statement (.monitorMinuteEnd) := by
  nofun

theorem RequestFrame.meterTallyTake : RequestFrame.Statement (.meterTallyTake) := by
  nofun

theorem RequestFrame.eventMinuteEnd : RequestFrame.Statement (.eventMinuteEnd) := by
  nofun

theorem RequestFrame.switchoverTake : RequestFrame.Statement (.switchoverTake) := by
  nofun

theorem RequestFrame.sourceLevelChange (input : Nat) (high : Bool) :
    RequestFrame.Statement (.sourceLevelChange input high) := by
  nofun

theorem RequestFrame.sourceDebounceVerdict (input : Nat) : RequestFrame.Statement (.sourceDebounceVerdict input) := by
  nofun

theorem RequestFrame.restoreHoldExpiry (node : Nat) : RequestFrame.Statement (.restoreHoldExpiry node) := by
  nofun

theorem RequestFrame.slotOpen : RequestFrame.Statement (.slotOpen) := by
  nofun

theorem RequestFrame.replyWindowClose (energy : Bool) (message : Option (List Byte)) :
    RequestFrame.Statement (.replyWindowClose energy message) := by
  nofun

theorem RequestFrame.purchaseDecide : RequestFrame.Statement (.purchaseDecide) := by
  nofun

theorem RequestFrame.frameArrival (frame : Frame) (check : BitVec 16) :
    RequestFrame.Statement (.frameArrival frame check) := by
  nofun

theorem RequestFrame.receiveGapTimeout : RequestFrame.Statement (.receiveGapTimeout) := by
  nofun

theorem RequestFrame.outboundFrameDone : RequestFrame.Statement (.outboundFrameDone) := by
  nofun

theorem RequestFrame.frameRefused : RequestFrame.Statement (.frameRefused) := by
  nofun

theorem RequestFrame.status (tag : Byte) : RequestFrame.Statement (.status tag) := by
  rintro _ _ _ ⟨⟩; exact ⟨by decide, rfl, _, rfl, rfl⟩

theorem RequestFrame.restart (tag : Byte) : RequestFrame.Statement (.restart tag) := by
  rintro _ _ _ ⟨⟩; exact ⟨by decide, rfl, _, rfl, rfl⟩

theorem RequestFrame.setTime (tag : Byte) (time : Nat) : RequestFrame.Statement (.setTime tag time) := by
  rintro _ _ _ ⟨⟩; exact ⟨by decide, rfl, _, rfl, rfl⟩

theorem RequestFrame.timeTrim (tag : Byte) (delta : Int) : RequestFrame.Statement (.timeTrim tag delta) := by
  rintro _ _ _ ⟨⟩; exact ⟨by decide, rfl, _, rfl, rfl⟩

theorem RequestFrame.lineupPut (tag : Byte) (channel slot source kind : Nat) (tier : Option Nat) (label : List Byte) :
    RequestFrame.Statement (.lineupPut tag channel slot source kind tier label) := by
  rintro _ _ _ ⟨⟩; exact ⟨by decide, rfl, _, rfl, rfl⟩

theorem RequestFrame.lineupDrop (tag : Byte) (channel : Nat) : RequestFrame.Statement (.lineupDrop tag channel) := by
  rintro _ _ _ ⟨⟩; exact ⟨by decide, rfl, _, rfl, rfl⟩

theorem RequestFrame.tierRateSet (tag : Byte) (target rate : Nat) :
    RequestFrame.Statement (.tierRateSet tag target rate) := by
  rintro _ _ _ ⟨⟩; exact ⟨by decide, rfl, _, rfl, rfl⟩

theorem RequestFrame.lineupRead (tag : Byte) (bank low high : Nat) :
    RequestFrame.Statement (.lineupRead tag bank low high) := by
  rintro _ _ _ ⟨⟩; exact ⟨by decide, rfl, _, rfl, rfl⟩

theorem RequestFrame.switchoverSchedule (tag : Byte) (time : Nat) :
    RequestFrame.Statement (.switchoverSchedule tag time) := by
  rintro _ _ _ ⟨⟩; exact ⟨by decide, rfl, _, rfl, rfl⟩

theorem RequestFrame.switchoverCancel (tag : Byte) : RequestFrame.Statement (.switchoverCancel tag) := by
  rintro _ _ _ ⟨⟩; exact ⟨by decide, rfl, _, rfl, rfl⟩

theorem RequestFrame.tapAdd (tag : Byte) (address node model : Nat) :
    RequestFrame.Statement (.tapAdd tag address node model) := by
  rintro _ _ _ ⟨⟩; exact ⟨by decide, rfl, _, rfl, rfl⟩

theorem RequestFrame.tapRemove (tag : Byte) (address : Nat) : RequestFrame.Statement (.tapRemove tag address) := by
  rintro _ _ _ ⟨⟩; exact ⟨by decide, rfl, _, rfl, rfl⟩

theorem RequestFrame.transponderSet (tag : Byte) (node : Nat) (address : Option Nat) :
    RequestFrame.Statement (.transponderSet tag node address) := by
  rintro _ _ _ ⟨⟩; exact ⟨by decide, rfl, _, rfl, rfl⟩

theorem RequestFrame.tapRead (tag : Byte) (address : Nat) : RequestFrame.Statement (.tapRead tag address) := by
  rintro _ _ _ ⟨⟩; exact ⟨by decide, rfl, _, rfl, rfl⟩

theorem RequestFrame.pollOrder (tag : Byte) (order : Nat) : RequestFrame.Statement (.pollOrder tag order) := by
  rintro _ _ _ ⟨⟩; exact ⟨by decide, rfl, _, rfl, rfl⟩

theorem RequestFrame.pollStart (tag : Byte) : RequestFrame.Statement (.pollStart tag) := by
  rintro _ _ _ ⟨⟩; exact ⟨by decide, rfl, _, rfl, rfl⟩

theorem RequestFrame.pollSuspend (tag : Byte) : RequestFrame.Statement (.pollSuspend tag) := by
  rintro _ _ _ ⟨⟩; exact ⟨by decide, rfl, _, rfl, rfl⟩

theorem RequestFrame.pollRead (tag : Byte) (list start : Nat) :
    RequestFrame.Statement (.pollRead tag list start) := by
  rintro _ _ _ ⟨⟩; exact ⟨by decide, rfl, _, rfl, rfl⟩

theorem RequestFrame.nodeConfig (tag : Byte) (node missLimit degradedPercent outagePercent restoreHold powerThreshold
    powerHysteresis levelStep : Nat) :
    RequestFrame.Statement (.nodeConfig tag node missLimit degradedPercent outagePercent restoreHold powerThreshold
      powerHysteresis levelStep) := by
  rintro _ _ _ ⟨⟩; exact ⟨by decide, rfl, _, rfl, rfl⟩

theorem RequestFrame.nodeRead (tag : Byte) (node : Nat) : RequestFrame.Statement (.nodeRead tag node) := by
  rintro _ _ _ ⟨⟩; exact ⟨by decide, rfl, _, rfl, rfl⟩

theorem RequestFrame.sourceRead (tag : Byte) (low high : Nat) :
    RequestFrame.Statement (.sourceRead tag low high) := by
  rintro _ _ _ ⟨⟩; exact ⟨by decide, rfl, _, rfl, rfl⟩

theorem RequestFrame.accountOpen (tag : Byte) (account address port : Nat) (tiers : TierSet) (state : Nat) :
    RequestFrame.Statement (.accountOpen tag account address port tiers state) := by
  rintro _ _ _ ⟨⟩
  exact ⟨by decide,
    congrArg some (congrArg (fun t => Instr.accountOpen tag account address port t state) (BitVec.eq_of_toNat_eq (by simp))),
    _, rfl, rfl⟩

theorem RequestFrame.accountTiers (tag : Byte) (account : Nat) (tiers : TierSet) :
    RequestFrame.Statement (.accountTiers tag account tiers) := by
  rintro _ _ _ ⟨⟩
  exact ⟨by decide,
    congrArg some (congrArg (fun t => Instr.accountTiers tag account t) (BitVec.eq_of_toNat_eq (by simp))),
    _, rfl, rfl⟩

theorem RequestFrame.accountHold (tag : Byte) (account : Nat) :
    RequestFrame.Statement (.accountHold tag account) := by
  rintro _ _ _ ⟨⟩; exact ⟨by decide, rfl, _, rfl, rfl⟩

theorem RequestFrame.accountResume (tag : Byte) (account : Nat) :
    RequestFrame.Statement (.accountResume tag account) := by
  rintro _ _ _ ⟨⟩; exact ⟨by decide, rfl, _, rfl, rfl⟩

theorem RequestFrame.accountCut (tag : Byte) (account : Nat) : RequestFrame.Statement (.accountCut tag account) := by
  rintro _ _ _ ⟨⟩; exact ⟨by decide, rfl, _, rfl, rfl⟩

theorem RequestFrame.accountRestore (tag : Byte) (account : Nat) :
    RequestFrame.Statement (.accountRestore tag account) := by
  rintro _ _ _ ⟨⟩; exact ⟨by decide, rfl, _, rfl, rfl⟩

theorem RequestFrame.accountClose (tag : Byte) (account : Nat) :
    RequestFrame.Statement (.accountClose tag account) := by
  rintro _ _ _ ⟨⟩; exact ⟨by decide, rfl, _, rfl, rfl⟩

theorem RequestFrame.accountRead (tag : Byte) (account : Nat) :
    RequestFrame.Statement (.accountRead tag account) := by
  rintro _ _ _ ⟨⟩; exact ⟨by decide, rfl, _, rfl, rfl⟩

theorem RequestFrame.cycleClose (tag : Byte) (low high : Nat) :
    RequestFrame.Statement (.cycleClose tag low high) := by
  rintro _ _ _ ⟨⟩; exact ⟨by decide, rfl, _, rfl, rfl⟩

theorem RequestFrame.eventAdd (tag : Byte) (event channel start duration window price threshold : Nat) :
    RequestFrame.Statement (.eventAdd tag event channel start duration window price threshold) := by
  rintro _ _ _ ⟨⟩; exact ⟨by decide, rfl, _, rfl, rfl⟩

theorem RequestFrame.eventCancel (tag : Byte) (event : Nat) : RequestFrame.Statement (.eventCancel tag event) := by
  rintro _ _ _ ⟨⟩; exact ⟨by decide, rfl, _, rfl, rfl⟩

theorem RequestFrame.eventRead (tag : Byte) (event start : Nat) :
    RequestFrame.Statement (.eventRead tag event start) := by
  rintro _ _ _ ⟨⟩; exact ⟨by decide, rfl, _, rfl, rfl⟩

theorem RequestFrame.eventList (tag : Byte) : RequestFrame.Statement (.eventList tag) := by
  rintro _ _ _ ⟨⟩; exact ⟨by decide, rfl, _, rfl, rfl⟩

theorem RequestFrame.purchaseEnter (tag : Byte) (account event : Nat) :
    RequestFrame.Statement (.purchaseEnter tag account event) := by
  rintro _ _ _ ⟨⟩; exact ⟨by decide, rfl, _, rfl, rfl⟩

theorem RequestFrame.journalRead (tag : Byte) (count : Nat) : RequestFrame.Statement (.journalRead tag count) := by
  rintro _ _ _ ⟨⟩; exact ⟨by decide, rfl, _, rfl, rfl⟩

theorem RequestFrame.journalRelease (tag : Byte) (sequence : Nat) :
    RequestFrame.Statement (.journalRelease tag sequence) := by
  rintro _ _ _ ⟨⟩; exact ⟨by decide, rfl, _, rfl, rfl⟩

theorem RequestFrame.alarmSet (tag : Byte) (low high level kind : Nat) :
    RequestFrame.Statement (.alarmSet tag low high level kind) := by
  rintro _ _ _ ⟨⟩; exact ⟨by decide, rfl, _, rfl, rfl⟩

theorem RequestFrame.compositeDefine (tag : Byte) (index operation a b hold : Nat) :
    RequestFrame.Statement (.compositeDefine tag index operation a b hold) := by
  rintro _ _ _ ⟨⟩; exact ⟨by decide, rfl, _, rfl, rfl⟩

theorem RequestFrame.compositeRelease (tag : Byte) (index : Nat) :
    RequestFrame.Statement (.compositeRelease tag index) := by
  rintro _ _ _ ⟨⟩; exact ⟨by decide, rfl, _, rfl, rfl⟩

theorem RequestFrame.alarmExpress (tag : Byte) (slot : Nat) (source : Option Nat) :
    RequestFrame.Statement (.alarmExpress tag slot source) := by
  rintro _ _ _ ⟨⟩; exact ⟨by decide, rfl, _, rfl, rfl⟩

theorem RequestFrame.alarmAck (tag : Byte) (source : Nat) : RequestFrame.Statement (.alarmAck tag source) := by
  rintro _ _ _ ⟨⟩; exact ⟨by decide, rfl, _, rfl, rfl⟩

theorem RequestFrame.alarmDefer (tag : Byte) (source : Nat) : RequestFrame.Statement (.alarmDefer tag source) := by
  rintro _ _ _ ⟨⟩; exact ⟨by decide, rfl, _, rfl, rfl⟩

theorem RequestFrame.alarmQuery (tag : Byte) (low high : Nat) :
    RequestFrame.Statement (.alarmQuery tag low high) := by
  rintro _ _ _ ⟨⟩; exact ⟨by decide, rfl, _, rfl, rfl⟩

theorem RequestFrame.hostLinkByteReceived (byte : Byte) : RequestFrame.Statement (.hostLinkByteReceived byte) := by
  nofun

end Sys2Proof.Laws
end

