-- ==== Sys2Proof/Laws/State.lean ====
section
/-! SUPPORT. What each named update of the state leaves in each field: one lemma per field, so that no later proof
unfolds a record update. -/

namespace Sys2Proof.Machine

/-! ### modifyNode -/

@[simp] theorem modifyNode_phase (n : Nat) (f : NodeRec → NodeRec) (s : State) :
    (modifyNode n f s).phase = s.phase := rfl
@[simp] theorem modifyNode_storeValid (n : Nat) (f : NodeRec → NodeRec) (s : State) :
    (modifyNode n f s).storeValid = s.storeValid := rfl
@[simp] theorem modifyNode_backupLow (n : Nat) (f : NodeRec → NodeRec) (s : State) :
    (modifyNode n f s).backupLow = s.backupLow := rfl
@[simp] theorem modifyNode_lastReset (n : Nat) (f : NodeRec → NodeRec) (s : State) :
    (modifyNode n f s).lastReset = s.lastReset := rfl
@[simp] theorem modifyNode_clock (n : Nat) (f : NodeRec → NodeRec) (s : State) :
    (modifyNode n f s).clock = s.clock := rfl
@[simp] theorem modifyNode_lineup (n : Nat) (f : NodeRec → NodeRec) (s : State) :
    (modifyNode n f s).lineup = s.lineup := rfl
@[simp] theorem modifyNode_carrier (n : Nat) (f : NodeRec → NodeRec) (s : State) :
    (modifyNode n f s).carrier = s.carrier := rfl
@[simp] theorem modifyNode_taps (n : Nat) (f : NodeRec → NodeRec) (s : State) : (modifyNode n f s).taps = s.taps := rfl
@[simp] theorem modifyNode_transponders (n : Nat) (f : NodeRec → NodeRec) (s : State) :
    (modifyNode n f s).transponders = s.transponders := rfl
@[simp] theorem modifyNode_sched (n : Nat) (f : NodeRec → NodeRec) (s : State) :
    (modifyNode n f s).sched = s.sched := rfl
@[simp] theorem modifyNode_accounts (n : Nat) (f : NodeRec → NodeRec) (s : State) :
    (modifyNode n f s).accounts = s.accounts := rfl
@[simp] theorem modifyNode_commandQueue (n : Nat) (f : NodeRec → NodeRec) (s : State) :
    (modifyNode n f s).commandQueue = s.commandQueue := rfl
@[simp] theorem modifyNode_nodes (n : Nat) (f : NodeRec → NodeRec) (s : State) :
    (modifyNode n f s).nodes = vecModify s.nodes (n - 1) f := rfl
@[simp] theorem modifyNode_inputs (n : Nat) (f : NodeRec → NodeRec) (s : State) :
    (modifyNode n f s).inputs = s.inputs := rfl
@[simp] theorem modifyNode_sample (n : Nat) (f : NodeRec → NodeRec) (s : State) :
    (modifyNode n f s).sample = s.sample := rfl
@[simp] theorem modifyNode_meter (n : Nat) (f : NodeRec → NodeRec) (s : State) :
    (modifyNode n f s).meter = s.meter := rfl
@[simp] theorem modifyNode_events (n : Nat) (f : NodeRec → NodeRec) (s : State) :
    (modifyNode n f s).events = s.events := rfl
@[simp] theorem modifyNode_journal (n : Nat) (f : NodeRec → NodeRec) (s : State) :
    (modifyNode n f s).journal = s.journal := rfl
@[simp] theorem modifyNode_alarms (n : Nat) (f : NodeRec → NodeRec) (s : State) :
    (modifyNode n f s).alarms = s.alarms := rfl
@[simp] theorem modifyNode_link (n : Nat) (f : NodeRec → NodeRec) (s : State) : (modifyNode n f s).link = s.link := rfl
@[simp] theorem modifyNode_due (n : Nat) (f : NodeRec → NodeRec) (s : State) : (modifyNode n f s).due = s.due := rfl
@[simp] theorem modifyNode_freeCount (n : Nat) (f : NodeRec → NodeRec) (s : State) :
    (modifyNode n f s).freeCount = s.freeCount := rfl
@[simp] theorem modifyNode_pending (n : Nat) (f : NodeRec → NodeRec) (s : State) :
    (modifyNode n f s).pending = s.pending := rfl

/-! ### modifyInput -/

@[simp] theorem modifyInput_phase (i : Nat) (f : InputRec → InputRec) (s : State) :
    (modifyInput i f s).phase = s.phase := rfl
@[simp] theorem modifyInput_storeValid (i : Nat) (f : InputRec → InputRec) (s : State) :
    (modifyInput i f s).storeValid = s.storeValid := rfl
@[simp] theorem modifyInput_backupLow (i : Nat) (f : InputRec → InputRec) (s : State) :
    (modifyInput i f s).backupLow = s.backupLow := rfl
@[simp] theorem modifyInput_lastReset (i : Nat) (f : InputRec → InputRec) (s : State) :
    (modifyInput i f s).lastReset = s.lastReset := rfl
@[simp] theorem modifyInput_clock (i : Nat) (f : InputRec → InputRec) (s : State) :
    (modifyInput i f s).clock = s.clock := rfl
@[simp] theorem modifyInput_lineup (i : Nat) (f : InputRec → InputRec) (s : State) :
    (modifyInput i f s).lineup = s.lineup := rfl
@[simp] theorem modifyInput_carrier (i : Nat) (f : InputRec → InputRec) (s : State) :
    (modifyInput i f s).carrier = s.carrier := rfl
@[simp] theorem modifyInput_taps (i : Nat) (f : InputRec → InputRec) (s : State) :
    (modifyInput i f s).taps = s.taps := rfl
@[simp] theorem modifyInput_transponders (i : Nat) (f : InputRec → InputRec) (s : State) :
    (modifyInput i f s).transponders = s.transponders := rfl
@[simp] theorem modifyInput_sched (i : Nat) (f : InputRec → InputRec) (s : State) :
    (modifyInput i f s).sched = s.sched := rfl
@[simp] theorem modifyInput_accounts (i : Nat) (f : InputRec → InputRec) (s : State) :
    (modifyInput i f s).accounts = s.accounts := rfl
@[simp] theorem modifyInput_commandQueue (i : Nat) (f : InputRec → InputRec) (s : State) :
    (modifyInput i f s).commandQueue = s.commandQueue := rfl
@[simp] theorem modifyInput_nodes (i : Nat) (f : InputRec → InputRec) (s : State) :
    (modifyInput i f s).nodes = s.nodes := rfl
@[simp] theorem modifyInput_inputs (i : Nat) (f : InputRec → InputRec) (s : State) :
    (modifyInput i f s).inputs = vecModify s.inputs (i - 1) f := rfl
@[simp] theorem modifyInput_sample (i : Nat) (f : InputRec → InputRec) (s : State) :
    (modifyInput i f s).sample = s.sample := rfl
@[simp] theorem modifyInput_meter (i : Nat) (f : InputRec → InputRec) (s : State) :
    (modifyInput i f s).meter = s.meter := rfl
@[simp] theorem modifyInput_events (i : Nat) (f : InputRec → InputRec) (s : State) :
    (modifyInput i f s).events = s.events := rfl
@[simp] theorem modifyInput_journal (i : Nat) (f : InputRec → InputRec) (s : State) :
    (modifyInput i f s).journal = s.journal := rfl
@[simp] theorem modifyInput_alarms (i : Nat) (f : InputRec → InputRec) (s : State) :
    (modifyInput i f s).alarms = s.alarms := rfl
@[simp] theorem modifyInput_link (i : Nat) (f : InputRec → InputRec) (s : State) :
    (modifyInput i f s).link = s.link := rfl
@[simp] theorem modifyInput_due (i : Nat) (f : InputRec → InputRec) (s : State) : (modifyInput i f s).due = s.due := rfl
@[simp] theorem modifyInput_freeCount (i : Nat) (f : InputRec → InputRec) (s : State) :
    (modifyInput i f s).freeCount = s.freeCount := rfl
@[simp] theorem modifyInput_pending (i : Nat) (f : InputRec → InputRec) (s : State) :
    (modifyInput i f s).pending = s.pending := rfl

/-! ### modifyTransponder -/

@[simp] theorem modifyTransponder_phase (n : Nat) (f : TransponderRec → TransponderRec) (s : State) :
    (modifyTransponder n f s).phase = s.phase := rfl
@[simp] theorem modifyTransponder_storeValid (n : Nat) (f : TransponderRec → TransponderRec) (s : State) :
    (modifyTransponder n f s).storeValid = s.storeValid := rfl
@[simp] theorem modifyTransponder_backupLow (n : Nat) (f : TransponderRec → TransponderRec) (s : State) :
    (modifyTransponder n f s).backupLow = s.backupLow := rfl
@[simp] theorem modifyTransponder_lastReset (n : Nat) (f : TransponderRec → TransponderRec) (s : State) :
    (modifyTransponder n f s).lastReset = s.lastReset := rfl
@[simp] theorem modifyTransponder_clock (n : Nat) (f : TransponderRec → TransponderRec) (s : State) :
    (modifyTransponder n f s).clock = s.clock := rfl
@[simp] theorem modifyTransponder_lineup (n : Nat) (f : TransponderRec → TransponderRec) (s : State) :
    (modifyTransponder n f s).lineup = s.lineup := rfl
@[simp] theorem modifyTransponder_carrier (n : Nat) (f : TransponderRec → TransponderRec) (s : State) :
    (modifyTransponder n f s).carrier = s.carrier := rfl
@[simp] theorem modifyTransponder_taps (n : Nat) (f : TransponderRec → TransponderRec) (s : State) :
    (modifyTransponder n f s).taps = s.taps := rfl
@[simp] theorem modifyTransponder_transponders (n : Nat) (f : TransponderRec → TransponderRec) (s : State) :
    (modifyTransponder n f s).transponders = vecModify s.transponders (n - 1) f := rfl
@[simp] theorem modifyTransponder_sched (n : Nat) (f : TransponderRec → TransponderRec) (s : State) :
    (modifyTransponder n f s).sched = s.sched := rfl
@[simp] theorem modifyTransponder_accounts (n : Nat) (f : TransponderRec → TransponderRec) (s : State) :
    (modifyTransponder n f s).accounts = s.accounts := rfl
@[simp] theorem modifyTransponder_commandQueue (n : Nat) (f : TransponderRec → TransponderRec) (s : State) :
    (modifyTransponder n f s).commandQueue = s.commandQueue := rfl
@[simp] theorem modifyTransponder_nodes (n : Nat) (f : TransponderRec → TransponderRec) (s : State) :
    (modifyTransponder n f s).nodes = s.nodes := rfl
@[simp] theorem modifyTransponder_inputs (n : Nat) (f : TransponderRec → TransponderRec) (s : State) :
    (modifyTransponder n f s).inputs = s.inputs := rfl
@[simp] theorem modifyTransponder_sample (n : Nat) (f : TransponderRec → TransponderRec) (s : State) :
    (modifyTransponder n f s).sample = s.sample := rfl
@[simp] theorem modifyTransponder_meter (n : Nat) (f : TransponderRec → TransponderRec) (s : State) :
    (modifyTransponder n f s).meter = s.meter := rfl
@[simp] theorem modifyTransponder_events (n : Nat) (f : TransponderRec → TransponderRec) (s : State) :
    (modifyTransponder n f s).events = s.events := rfl
@[simp] theorem modifyTransponder_journal (n : Nat) (f : TransponderRec → TransponderRec) (s : State) :
    (modifyTransponder n f s).journal = s.journal := rfl
@[simp] theorem modifyTransponder_alarms (n : Nat) (f : TransponderRec → TransponderRec) (s : State) :
    (modifyTransponder n f s).alarms = s.alarms := rfl
@[simp] theorem modifyTransponder_link (n : Nat) (f : TransponderRec → TransponderRec) (s : State) :
    (modifyTransponder n f s).link = s.link := rfl
@[simp] theorem modifyTransponder_due (n : Nat) (f : TransponderRec → TransponderRec) (s : State) :
    (modifyTransponder n f s).due = s.due := rfl
@[simp] theorem modifyTransponder_freeCount (n : Nat) (f : TransponderRec → TransponderRec) (s : State) :
    (modifyTransponder n f s).freeCount = s.freeCount := rfl
@[simp] theorem modifyTransponder_pending (n : Nat) (f : TransponderRec → TransponderRec) (s : State) :
    (modifyTransponder n f s).pending = s.pending := rfl

/-! ### changeAccount -/

@[simp] theorem changeAccount_phase (k : Nat) (f : Account → Account) (s : State) :
    (changeAccount k f s).phase = s.phase := rfl
@[simp] theorem changeAccount_storeValid (k : Nat) (f : Account → Account) (s : State) :
    (changeAccount k f s).storeValid = s.storeValid := rfl
@[simp] theorem changeAccount_backupLow (k : Nat) (f : Account → Account) (s : State) :
    (changeAccount k f s).backupLow = s.backupLow := rfl
@[simp] theorem changeAccount_lastReset (k : Nat) (f : Account → Account) (s : State) :
    (changeAccount k f s).lastReset = s.lastReset := rfl
@[simp] theorem changeAccount_clock (k : Nat) (f : Account → Account) (s : State) :
    (changeAccount k f s).clock = s.clock := rfl
@[simp] theorem changeAccount_lineup (k : Nat) (f : Account → Account) (s : State) :
    (changeAccount k f s).lineup = s.lineup := rfl
@[simp] theorem changeAccount_carrier (k : Nat) (f : Account → Account) (s : State) :
    (changeAccount k f s).carrier = s.carrier := rfl
@[simp] theorem changeAccount_taps (k : Nat) (f : Account → Account) (s : State) :
    (changeAccount k f s).taps = s.taps := rfl
@[simp] theorem changeAccount_transponders (k : Nat) (f : Account → Account) (s : State) :
    (changeAccount k f s).transponders = s.transponders := rfl
@[simp] theorem changeAccount_sched (k : Nat) (f : Account → Account) (s : State) :
    (changeAccount k f s).sched = s.sched := rfl
@[simp] theorem changeAccount_accounts (k : Nat) (f : Account → Account) (s : State) :
    (changeAccount k f s).accounts = modifyAccount k f s.accounts := rfl
@[simp] theorem changeAccount_commandQueue (k : Nat) (f : Account → Account) (s : State) :
    (changeAccount k f s).commandQueue = s.commandQueue := rfl
@[simp] theorem changeAccount_nodes (k : Nat) (f : Account → Account) (s : State) :
    (changeAccount k f s).nodes = s.nodes := rfl
@[simp] theorem changeAccount_inputs (k : Nat) (f : Account → Account) (s : State) :
    (changeAccount k f s).inputs = s.inputs := rfl
@[simp] theorem changeAccount_sample (k : Nat) (f : Account → Account) (s : State) :
    (changeAccount k f s).sample = s.sample := rfl
@[simp] theorem changeAccount_meter (k : Nat) (f : Account → Account) (s : State) :
    (changeAccount k f s).meter = s.meter := rfl
@[simp] theorem changeAccount_events (k : Nat) (f : Account → Account) (s : State) :
    (changeAccount k f s).events = s.events := rfl
@[simp] theorem changeAccount_journal (k : Nat) (f : Account → Account) (s : State) :
    (changeAccount k f s).journal = s.journal := rfl
@[simp] theorem changeAccount_alarms (k : Nat) (f : Account → Account) (s : State) :
    (changeAccount k f s).alarms = s.alarms := rfl
@[simp] theorem changeAccount_link (k : Nat) (f : Account → Account) (s : State) :
    (changeAccount k f s).link = s.link := rfl
@[simp] theorem changeAccount_due (k : Nat) (f : Account → Account) (s : State) :
    (changeAccount k f s).due = s.due := rfl
@[simp] theorem changeAccount_freeCount (k : Nat) (f : Account → Account) (s : State) :
    (changeAccount k f s).freeCount = s.freeCount := rfl
@[simp] theorem changeAccount_pending (k : Nat) (f : Account → Account) (s : State) :
    (changeAccount k f s).pending = s.pending := rfl

/-! ### changeEvent -/

@[simp] theorem changeEvent_phase (e : Nat) (f : EventRec → EventRec) (s : State) :
    (changeEvent e f s).phase = s.phase := rfl
@[simp] theorem changeEvent_storeValid (e : Nat) (f : EventRec → EventRec) (s : State) :
    (changeEvent e f s).storeValid = s.storeValid := rfl
@[simp] theorem changeEvent_backupLow (e : Nat) (f : EventRec → EventRec) (s : State) :
    (changeEvent e f s).backupLow = s.backupLow := rfl
@[simp] theorem changeEvent_lastReset (e : Nat) (f : EventRec → EventRec) (s : State) :
    (changeEvent e f s).lastReset = s.lastReset := rfl
@[simp] theorem changeEvent_clock (e : Nat) (f : EventRec → EventRec) (s : State) :
    (changeEvent e f s).clock = s.clock := rfl
@[simp] theorem changeEvent_lineup (e : Nat) (f : EventRec → EventRec) (s : State) :
    (changeEvent e f s).lineup = s.lineup := rfl
@[simp] theorem changeEvent_carrier (e : Nat) (f : EventRec → EventRec) (s : State) :
    (changeEvent e f s).carrier = s.carrier := rfl
@[simp] theorem changeEvent_taps (e : Nat) (f : EventRec → EventRec) (s : State) :
    (changeEvent e f s).taps = s.taps := rfl
@[simp] theorem changeEvent_transponders (e : Nat) (f : EventRec → EventRec) (s : State) :
    (changeEvent e f s).transponders = s.transponders := rfl
@[simp] theorem changeEvent_sched (e : Nat) (f : EventRec → EventRec) (s : State) :
    (changeEvent e f s).sched = s.sched := rfl
@[simp] theorem changeEvent_accounts (e : Nat) (f : EventRec → EventRec) (s : State) :
    (changeEvent e f s).accounts = s.accounts := rfl
@[simp] theorem changeEvent_commandQueue (e : Nat) (f : EventRec → EventRec) (s : State) :
    (changeEvent e f s).commandQueue = s.commandQueue := rfl
@[simp] theorem changeEvent_nodes (e : Nat) (f : EventRec → EventRec) (s : State) :
    (changeEvent e f s).nodes = s.nodes := rfl
@[simp] theorem changeEvent_inputs (e : Nat) (f : EventRec → EventRec) (s : State) :
    (changeEvent e f s).inputs = s.inputs := rfl
@[simp] theorem changeEvent_sample (e : Nat) (f : EventRec → EventRec) (s : State) :
    (changeEvent e f s).sample = s.sample := rfl
@[simp] theorem changeEvent_meter (e : Nat) (f : EventRec → EventRec) (s : State) :
    (changeEvent e f s).meter = s.meter := rfl
@[simp] theorem changeEvent_events (e : Nat) (f : EventRec → EventRec) (s : State) :
    (changeEvent e f s).events = modifyEvent e f s.events := rfl
@[simp] theorem changeEvent_journal (e : Nat) (f : EventRec → EventRec) (s : State) :
    (changeEvent e f s).journal = s.journal := rfl
@[simp] theorem changeEvent_alarms (e : Nat) (f : EventRec → EventRec) (s : State) :
    (changeEvent e f s).alarms = s.alarms := rfl
@[simp] theorem changeEvent_link (e : Nat) (f : EventRec → EventRec) (s : State) :
    (changeEvent e f s).link = s.link := rfl
@[simp] theorem changeEvent_due (e : Nat) (f : EventRec → EventRec) (s : State) : (changeEvent e f s).due = s.due := rfl
@[simp] theorem changeEvent_freeCount (e : Nat) (f : EventRec → EventRec) (s : State) :
    (changeEvent e f s).freeCount = s.freeCount := rfl
@[simp] theorem changeEvent_pending (e : Nat) (f : EventRec → EventRec) (s : State) :
    (changeEvent e f s).pending = s.pending := rfl

/-! ### freeEvent -/

@[simp] theorem freeEvent_phase (e : Nat) (s : State) : (freeEvent e s).phase = s.phase := rfl
@[simp] theorem freeEvent_storeValid (e : Nat) (s : State) : (freeEvent e s).storeValid = s.storeValid := rfl
@[simp] theorem freeEvent_backupLow (e : Nat) (s : State) : (freeEvent e s).backupLow = s.backupLow := rfl
@[simp] theorem freeEvent_lastReset (e : Nat) (s : State) : (freeEvent e s).lastReset = s.lastReset := rfl
@[simp] theorem freeEvent_clock (e : Nat) (s : State) : (freeEvent e s).clock = s.clock := rfl
@[simp] theorem freeEvent_lineup (e : Nat) (s : State) : (freeEvent e s).lineup = s.lineup := rfl
@[simp] theorem freeEvent_carrier (e : Nat) (s : State) : (freeEvent e s).carrier = s.carrier := rfl
@[simp] theorem freeEvent_taps (e : Nat) (s : State) : (freeEvent e s).taps = s.taps := rfl
@[simp] theorem freeEvent_transponders (e : Nat) (s : State) : (freeEvent e s).transponders = s.transponders := rfl
@[simp] theorem freeEvent_sched (e : Nat) (s : State) : (freeEvent e s).sched = s.sched := rfl
@[simp] theorem freeEvent_accounts (e : Nat) (s : State) : (freeEvent e s).accounts = s.accounts := rfl
@[simp] theorem freeEvent_commandQueue (e : Nat) (s : State) : (freeEvent e s).commandQueue = s.commandQueue := rfl
@[simp] theorem freeEvent_nodes (e : Nat) (s : State) : (freeEvent e s).nodes = s.nodes := rfl
@[simp] theorem freeEvent_inputs (e : Nat) (s : State) : (freeEvent e s).inputs = s.inputs := rfl
@[simp] theorem freeEvent_sample (e : Nat) (s : State) : (freeEvent e s).sample = s.sample := rfl
@[simp] theorem freeEvent_meter (e : Nat) (s : State) : (freeEvent e s).meter = s.meter := rfl
@[simp] theorem freeEvent_events (e : Nat) (s : State) : (freeEvent e s).events = s.events.filter (·.id != e) := rfl
@[simp] theorem freeEvent_journal (e : Nat) (s : State) : (freeEvent e s).journal = s.journal := rfl
@[simp] theorem freeEvent_alarms (e : Nat) (s : State) : (freeEvent e s).alarms = s.alarms := rfl
@[simp] theorem freeEvent_link (e : Nat) (s : State) : (freeEvent e s).link = s.link := rfl
@[simp] theorem freeEvent_due (e : Nat) (s : State) : (freeEvent e s).due = s.due := rfl
@[simp] theorem freeEvent_freeCount (e : Nat) (s : State) : (freeEvent e s).freeCount = s.freeCount := rfl
@[simp] theorem freeEvent_pending (e : Nat) (s : State) : (freeEvent e s).pending = s.pending := rfl

/-! ### modifySwitch -/

@[simp] theorem modifySwitch_phase (a : Nat) (f : SwitchRec → SwitchRec) (s : State) :
    (modifySwitch a f s).phase = s.phase := rfl
@[simp] theorem modifySwitch_storeValid (a : Nat) (f : SwitchRec → SwitchRec) (s : State) :
    (modifySwitch a f s).storeValid = s.storeValid := rfl
@[simp] theorem modifySwitch_backupLow (a : Nat) (f : SwitchRec → SwitchRec) (s : State) :
    (modifySwitch a f s).backupLow = s.backupLow := rfl
@[simp] theorem modifySwitch_lastReset (a : Nat) (f : SwitchRec → SwitchRec) (s : State) :
    (modifySwitch a f s).lastReset = s.lastReset := rfl
@[simp] theorem modifySwitch_clock (a : Nat) (f : SwitchRec → SwitchRec) (s : State) :
    (modifySwitch a f s).clock = s.clock := rfl
@[simp] theorem modifySwitch_lineup (a : Nat) (f : SwitchRec → SwitchRec) (s : State) :
    (modifySwitch a f s).lineup = s.lineup := rfl
@[simp] theorem modifySwitch_carrier (a : Nat) (f : SwitchRec → SwitchRec) (s : State) :
    (modifySwitch a f s).carrier = s.carrier := rfl
@[simp] theorem modifySwitch_taps (a : Nat) (f : SwitchRec → SwitchRec) (s : State) :
    (modifySwitch a f s).taps = modifyTap a (fun t => { t with switching := f t.switching }) s.taps := rfl
@[simp] theorem modifySwitch_transponders (a : Nat) (f : SwitchRec → SwitchRec) (s : State) :
    (modifySwitch a f s).transponders = s.transponders := rfl
@[simp] theorem modifySwitch_sched (a : Nat) (f : SwitchRec → SwitchRec) (s : State) :
    (modifySwitch a f s).sched = s.sched := rfl
@[simp] theorem modifySwitch_accounts (a : Nat) (f : SwitchRec → SwitchRec) (s : State) :
    (modifySwitch a f s).accounts = s.accounts := rfl
@[simp] theorem modifySwitch_commandQueue (a : Nat) (f : SwitchRec → SwitchRec) (s : State) :
    (modifySwitch a f s).commandQueue = s.commandQueue := rfl
@[simp] theorem modifySwitch_nodes (a : Nat) (f : SwitchRec → SwitchRec) (s : State) :
    (modifySwitch a f s).nodes = s.nodes := rfl
@[simp] theorem modifySwitch_inputs (a : Nat) (f : SwitchRec → SwitchRec) (s : State) :
    (modifySwitch a f s).inputs = s.inputs := rfl
@[simp] theorem modifySwitch_sample (a : Nat) (f : SwitchRec → SwitchRec) (s : State) :
    (modifySwitch a f s).sample = s.sample := rfl
@[simp] theorem modifySwitch_meter (a : Nat) (f : SwitchRec → SwitchRec) (s : State) :
    (modifySwitch a f s).meter = s.meter := rfl
@[simp] theorem modifySwitch_events (a : Nat) (f : SwitchRec → SwitchRec) (s : State) :
    (modifySwitch a f s).events = s.events := rfl
@[simp] theorem modifySwitch_journal (a : Nat) (f : SwitchRec → SwitchRec) (s : State) :
    (modifySwitch a f s).journal = s.journal := rfl
@[simp] theorem modifySwitch_alarms (a : Nat) (f : SwitchRec → SwitchRec) (s : State) :
    (modifySwitch a f s).alarms = s.alarms := rfl
@[simp] theorem modifySwitch_link (a : Nat) (f : SwitchRec → SwitchRec) (s : State) :
    (modifySwitch a f s).link = s.link := rfl
@[simp] theorem modifySwitch_due (a : Nat) (f : SwitchRec → SwitchRec) (s : State) :
    (modifySwitch a f s).due = s.due := rfl
@[simp] theorem modifySwitch_freeCount (a : Nat) (f : SwitchRec → SwitchRec) (s : State) :
    (modifySwitch a f s).freeCount = s.freeCount := rfl
@[simp] theorem modifySwitch_pending (a : Nat) (f : SwitchRec → SwitchRec) (s : State) :
    (modifySwitch a f s).pending = s.pending := rfl

/-! ### bindPort -/

@[simp] theorem bindPort_phase (a p : Nat) (b : Option Nat) (s : State) : (bindPort a p b s).phase = s.phase := rfl
@[simp] theorem bindPort_storeValid (a p : Nat) (b : Option Nat) (s : State) :
    (bindPort a p b s).storeValid = s.storeValid := rfl
@[simp] theorem bindPort_backupLow (a p : Nat) (b : Option Nat) (s : State) :
    (bindPort a p b s).backupLow = s.backupLow := rfl
@[simp] theorem bindPort_lastReset (a p : Nat) (b : Option Nat) (s : State) :
    (bindPort a p b s).lastReset = s.lastReset := rfl
@[simp] theorem bindPort_clock (a p : Nat) (b : Option Nat) (s : State) : (bindPort a p b s).clock = s.clock := rfl
@[simp] theorem bindPort_lineup (a p : Nat) (b : Option Nat) (s : State) : (bindPort a p b s).lineup = s.lineup := rfl
@[simp] theorem bindPort_carrier (a p : Nat) (b : Option Nat) (s : State) :
    (bindPort a p b s).carrier = s.carrier := rfl
@[simp] theorem bindPort_taps (a p : Nat) (b : Option Nat) (s : State) :
    (bindPort a p b s).taps = modifyTap a (fun t => { t with ports := vecModify t.ports (p - 1) fun _ => b }) s.taps := rfl
@[simp] theorem bindPort_transponders (a p : Nat) (b : Option Nat) (s : State) :
    (bindPort a p b s).transponders = s.transponders := rfl
@[simp] theorem bindPort_sched (a p : Nat) (b : Option Nat) (s : State) : (bindPort a p b s).sched = s.sched := rfl
@[simp] theorem bindPort_accounts (a p : Nat) (b : Option Nat) (s : State) :
    (bindPort a p b s).accounts = s.accounts := rfl
@[simp] theorem bindPort_commandQueue (a p : Nat) (b : Option Nat) (s : State) :
    (bindPort a p b s).commandQueue = s.commandQueue := rfl
@[simp] theorem bindPort_nodes (a p : Nat) (b : Option Nat) (s : State) : (bindPort a p b s).nodes = s.nodes := rfl
@[simp] theorem bindPort_inputs (a p : Nat) (b : Option Nat) (s : State) : (bindPort a p b s).inputs = s.inputs := rfl
@[simp] theorem bindPort_sample (a p : Nat) (b : Option Nat) (s : State) : (bindPort a p b s).sample = s.sample := rfl
@[simp] theorem bindPort_meter (a p : Nat) (b : Option Nat) (s : State) : (bindPort a p b s).meter = s.meter := rfl
@[simp] theorem bindPort_events (a p : Nat) (b : Option Nat) (s : State) : (bindPort a p b s).events = s.events := rfl
@[simp] theorem bindPort_journal (a p : Nat) (b : Option Nat) (s : State) :
    (bindPort a p b s).journal = s.journal := rfl
@[simp] theorem bindPort_alarms (a p : Nat) (b : Option Nat) (s : State) : (bindPort a p b s).alarms = s.alarms := rfl
@[simp] theorem bindPort_link (a p : Nat) (b : Option Nat) (s : State) : (bindPort a p b s).link = s.link := rfl
@[simp] theorem bindPort_due (a p : Nat) (b : Option Nat) (s : State) : (bindPort a p b s).due = s.due := rfl
@[simp] theorem bindPort_freeCount (a p : Nat) (b : Option Nat) (s : State) :
    (bindPort a p b s).freeCount = s.freeCount := rfl
@[simp] theorem bindPort_pending (a p : Nat) (b : Option Nat) (s : State) :
    (bindPort a p b s).pending = s.pending := rfl

/-! ### giveCondition -/

@[simp] theorem giveCondition_phase (i : Nat) (b : Bool) (s : State) : (giveCondition i b s).phase = s.phase := rfl
@[simp] theorem giveCondition_storeValid (i : Nat) (b : Bool) (s : State) :
    (giveCondition i b s).storeValid = s.storeValid := rfl
@[simp] theorem giveCondition_backupLow (i : Nat) (b : Bool) (s : State) :
    (giveCondition i b s).backupLow = s.backupLow := rfl
@[simp] theorem giveCondition_lastReset (i : Nat) (b : Bool) (s : State) :
    (giveCondition i b s).lastReset = s.lastReset := rfl
@[simp] theorem giveCondition_clock (i : Nat) (b : Bool) (s : State) : (giveCondition i b s).clock = s.clock := rfl
@[simp] theorem giveCondition_lineup (i : Nat) (b : Bool) (s : State) : (giveCondition i b s).lineup = s.lineup := rfl
@[simp] theorem giveCondition_carrier (i : Nat) (b : Bool) (s : State) :
    (giveCondition i b s).carrier = s.carrier := rfl
@[simp] theorem giveCondition_taps (i : Nat) (b : Bool) (s : State) : (giveCondition i b s).taps = s.taps := rfl
@[simp] theorem giveCondition_transponders (i : Nat) (b : Bool) (s : State) :
    (giveCondition i b s).transponders = s.transponders := rfl
@[simp] theorem giveCondition_sched (i : Nat) (b : Bool) (s : State) : (giveCondition i b s).sched = s.sched := rfl
@[simp] theorem giveCondition_accounts (i : Nat) (b : Bool) (s : State) :
    (giveCondition i b s).accounts = s.accounts := rfl
@[simp] theorem giveCondition_commandQueue (i : Nat) (b : Bool) (s : State) :
    (giveCondition i b s).commandQueue = s.commandQueue := rfl
@[simp] theorem giveCondition_nodes (i : Nat) (b : Bool) (s : State) : (giveCondition i b s).nodes = s.nodes := rfl
@[simp] theorem giveCondition_inputs (i : Nat) (b : Bool) (s : State) : (giveCondition i b s).inputs = s.inputs := rfl
@[simp] theorem giveCondition_sample (i : Nat) (b : Bool) (s : State) : (giveCondition i b s).sample = s.sample := rfl
@[simp] theorem giveCondition_meter (i : Nat) (b : Bool) (s : State) : (giveCondition i b s).meter = s.meter := rfl
@[simp] theorem giveCondition_events (i : Nat) (b : Bool) (s : State) : (giveCondition i b s).events = s.events := rfl
@[simp] theorem giveCondition_journal (i : Nat) (b : Bool) (s : State) :
    (giveCondition i b s).journal = s.journal := rfl
@[simp] theorem giveCondition_alarms (i : Nat) (b : Bool) (s : State) :
    (giveCondition i b s).alarms = alarmsGive s.clock.time i b s.alarms := rfl
@[simp] theorem giveCondition_link (i : Nat) (b : Bool) (s : State) : (giveCondition i b s).link = s.link := rfl
@[simp] theorem giveCondition_due (i : Nat) (b : Bool) (s : State) : (giveCondition i b s).due = s.due := rfl
@[simp] theorem giveCondition_freeCount (i : Nat) (b : Bool) (s : State) :
    (giveCondition i b s).freeCount = s.freeCount := rfl
@[simp] theorem giveCondition_pending (i : Nat) (b : Bool) (s : State) :
    (giveCondition i b s).pending = s.pending := rfl

/-! ### putJournal -/

@[simp] theorem putJournal_phase (j : Journal) (s : State) : (putJournal j s).phase = s.phase := rfl
@[simp] theorem putJournal_storeValid (j : Journal) (s : State) : (putJournal j s).storeValid = s.storeValid := rfl
@[simp] theorem putJournal_backupLow (j : Journal) (s : State) : (putJournal j s).backupLow = s.backupLow := rfl
@[simp] theorem putJournal_lastReset (j : Journal) (s : State) : (putJournal j s).lastReset = s.lastReset := rfl
@[simp] theorem putJournal_clock (j : Journal) (s : State) : (putJournal j s).clock = s.clock := rfl
@[simp] theorem putJournal_lineup (j : Journal) (s : State) : (putJournal j s).lineup = s.lineup := rfl
@[simp] theorem putJournal_carrier (j : Journal) (s : State) : (putJournal j s).carrier = s.carrier := rfl
@[simp] theorem putJournal_taps (j : Journal) (s : State) : (putJournal j s).taps = s.taps := rfl
@[simp] theorem putJournal_transponders (j : Journal) (s : State) :
    (putJournal j s).transponders = s.transponders := rfl
@[simp] theorem putJournal_sched (j : Journal) (s : State) : (putJournal j s).sched = s.sched := rfl
@[simp] theorem putJournal_accounts (j : Journal) (s : State) : (putJournal j s).accounts = s.accounts := rfl
@[simp] theorem putJournal_commandQueue (j : Journal) (s : State) :
    (putJournal j s).commandQueue = s.commandQueue := rfl
@[simp] theorem putJournal_nodes (j : Journal) (s : State) : (putJournal j s).nodes = s.nodes := rfl
@[simp] theorem putJournal_inputs (j : Journal) (s : State) : (putJournal j s).inputs = s.inputs := rfl
@[simp] theorem putJournal_sample (j : Journal) (s : State) : (putJournal j s).sample = s.sample := rfl
@[simp] theorem putJournal_meter (j : Journal) (s : State) : (putJournal j s).meter = s.meter := rfl
@[simp] theorem putJournal_events (j : Journal) (s : State) : (putJournal j s).events = s.events := rfl
@[simp] theorem putJournal_journal (j : Journal) (s : State) :
    (putJournal j s).journal = { j with high := journalHigh j } := rfl
@[simp] theorem putJournal_alarms (j : Journal) (s : State) :
    (putJournal j s).alarms = alarmsGive s.clock.time journalHighSource (journalHigh j) s.alarms := rfl
@[simp] theorem putJournal_link (j : Journal) (s : State) : (putJournal j s).link = s.link := rfl
@[simp] theorem putJournal_due (j : Journal) (s : State) : (putJournal j s).due = s.due := rfl
@[simp] theorem putJournal_freeCount (j : Journal) (s : State) : (putJournal j s).freeCount = s.freeCount := rfl
@[simp] theorem putJournal_pending (j : Journal) (s : State) : (putJournal j s).pending = s.pending := rfl

/-! ### judgeOverflow -/

@[simp] theorem judgeOverflow_phase (s : State) : (judgeOverflow s).phase = s.phase := rfl
@[simp] theorem judgeOverflow_storeValid (s : State) : (judgeOverflow s).storeValid = s.storeValid := rfl
@[simp] theorem judgeOverflow_backupLow (s : State) : (judgeOverflow s).backupLow = s.backupLow := rfl
@[simp] theorem judgeOverflow_lastReset (s : State) : (judgeOverflow s).lastReset = s.lastReset := rfl
@[simp] theorem judgeOverflow_clock (s : State) : (judgeOverflow s).clock = s.clock := rfl
@[simp] theorem judgeOverflow_lineup (s : State) : (judgeOverflow s).lineup = s.lineup := rfl
@[simp] theorem judgeOverflow_carrier (s : State) : (judgeOverflow s).carrier = s.carrier := rfl
@[simp] theorem judgeOverflow_taps (s : State) : (judgeOverflow s).taps = s.taps := rfl
@[simp] theorem judgeOverflow_transponders (s : State) : (judgeOverflow s).transponders = s.transponders := rfl
@[simp] theorem judgeOverflow_sched (s : State) : (judgeOverflow s).sched = s.sched := rfl
@[simp] theorem judgeOverflow_accounts (s : State) : (judgeOverflow s).accounts = s.accounts := rfl
@[simp] theorem judgeOverflow_commandQueue (s : State) : (judgeOverflow s).commandQueue = s.commandQueue := rfl
@[simp] theorem judgeOverflow_nodes (s : State) : (judgeOverflow s).nodes = s.nodes := rfl
@[simp] theorem judgeOverflow_inputs (s : State) : (judgeOverflow s).inputs = s.inputs := rfl
@[simp] theorem judgeOverflow_sample (s : State) : (judgeOverflow s).sample = s.sample := rfl
@[simp] theorem judgeOverflow_meter (s : State) :
    (judgeOverflow s).meter = { s.meter with balanceOverflow := anyOverflow s.accounts } := rfl
@[simp] theorem judgeOverflow_events (s : State) : (judgeOverflow s).events = s.events := rfl
@[simp] theorem judgeOverflow_journal (s : State) : (judgeOverflow s).journal = s.journal := rfl
@[simp] theorem judgeOverflow_alarms (s : State) :
    (judgeOverflow s).alarms = alarmsGive s.clock.time balanceOverflowSource (anyOverflow s.accounts) s.alarms := rfl
@[simp] theorem judgeOverflow_link (s : State) : (judgeOverflow s).link = s.link := rfl
@[simp] theorem judgeOverflow_due (s : State) : (judgeOverflow s).due = s.due := rfl
@[simp] theorem judgeOverflow_freeCount (s : State) : (judgeOverflow s).freeCount = s.freeCount := rfl
@[simp] theorem judgeOverflow_pending (s : State) : (judgeOverflow s).pending = s.pending := rfl

/-! ### changeLink -/

@[simp] theorem changeLink_phase (f : Link → Link) (s : State) : (changeLink f s).phase = s.phase := rfl
@[simp] theorem changeLink_storeValid (f : Link → Link) (s : State) : (changeLink f s).storeValid = s.storeValid := rfl
@[simp] theorem changeLink_backupLow (f : Link → Link) (s : State) : (changeLink f s).backupLow = s.backupLow := rfl
@[simp] theorem changeLink_lastReset (f : Link → Link) (s : State) : (changeLink f s).lastReset = s.lastReset := rfl
@[simp] theorem changeLink_clock (f : Link → Link) (s : State) : (changeLink f s).clock = s.clock := rfl
@[simp] theorem changeLink_lineup (f : Link → Link) (s : State) : (changeLink f s).lineup = s.lineup := rfl
@[simp] theorem changeLink_carrier (f : Link → Link) (s : State) : (changeLink f s).carrier = s.carrier := rfl
@[simp] theorem changeLink_taps (f : Link → Link) (s : State) : (changeLink f s).taps = s.taps := rfl
@[simp] theorem changeLink_transponders (f : Link → Link) (s : State) :
    (changeLink f s).transponders = s.transponders := rfl
@[simp] theorem changeLink_sched (f : Link → Link) (s : State) : (changeLink f s).sched = s.sched := rfl
@[simp] theorem changeLink_accounts (f : Link → Link) (s : State) : (changeLink f s).accounts = s.accounts := rfl
@[simp] theorem changeLink_commandQueue (f : Link → Link) (s : State) :
    (changeLink f s).commandQueue = s.commandQueue := rfl
@[simp] theorem changeLink_nodes (f : Link → Link) (s : State) : (changeLink f s).nodes = s.nodes := rfl
@[simp] theorem changeLink_inputs (f : Link → Link) (s : State) : (changeLink f s).inputs = s.inputs := rfl
@[simp] theorem changeLink_sample (f : Link → Link) (s : State) : (changeLink f s).sample = s.sample := rfl
@[simp] theorem changeLink_meter (f : Link → Link) (s : State) : (changeLink f s).meter = s.meter := rfl
@[simp] theorem changeLink_events (f : Link → Link) (s : State) : (changeLink f s).events = s.events := rfl
@[simp] theorem changeLink_journal (f : Link → Link) (s : State) : (changeLink f s).journal = s.journal := rfl
@[simp] theorem changeLink_alarms (f : Link → Link) (s : State) : (changeLink f s).alarms = s.alarms := rfl
@[simp] theorem changeLink_link (f : Link → Link) (s : State) : (changeLink f s).link = f s.link := rfl
@[simp] theorem changeLink_due (f : Link → Link) (s : State) : (changeLink f s).due = s.due := rfl
@[simp] theorem changeLink_freeCount (f : Link → Link) (s : State) : (changeLink f s).freeCount = s.freeCount := rfl
@[simp] theorem changeLink_pending (f : Link → Link) (s : State) : (changeLink f s).pending = s.pending := rfl

/-! ### changeAlarms -/

@[simp] theorem changeAlarms_phase (f : Alarms → Alarms) (s : State) : (changeAlarms f s).phase = s.phase := rfl
@[simp] theorem changeAlarms_storeValid (f : Alarms → Alarms) (s : State) :
    (changeAlarms f s).storeValid = s.storeValid := rfl
@[simp] theorem changeAlarms_backupLow (f : Alarms → Alarms) (s : State) :
    (changeAlarms f s).backupLow = s.backupLow := rfl
@[simp] theorem changeAlarms_lastReset (f : Alarms → Alarms) (s : State) :
    (changeAlarms f s).lastReset = s.lastReset := rfl
@[simp] theorem changeAlarms_clock (f : Alarms → Alarms) (s : State) : (changeAlarms f s).clock = s.clock := rfl
@[simp] theorem changeAlarms_lineup (f : Alarms → Alarms) (s : State) : (changeAlarms f s).lineup = s.lineup := rfl
@[simp] theorem changeAlarms_carrier (f : Alarms → Alarms) (s : State) : (changeAlarms f s).carrier = s.carrier := rfl
@[simp] theorem changeAlarms_taps (f : Alarms → Alarms) (s : State) : (changeAlarms f s).taps = s.taps := rfl
@[simp] theorem changeAlarms_transponders (f : Alarms → Alarms) (s : State) :
    (changeAlarms f s).transponders = s.transponders := rfl
@[simp] theorem changeAlarms_sched (f : Alarms → Alarms) (s : State) : (changeAlarms f s).sched = s.sched := rfl
@[simp] theorem changeAlarms_accounts (f : Alarms → Alarms) (s : State) :
    (changeAlarms f s).accounts = s.accounts := rfl
@[simp] theorem changeAlarms_commandQueue (f : Alarms → Alarms) (s : State) :
    (changeAlarms f s).commandQueue = s.commandQueue := rfl
@[simp] theorem changeAlarms_nodes (f : Alarms → Alarms) (s : State) : (changeAlarms f s).nodes = s.nodes := rfl
@[simp] theorem changeAlarms_inputs (f : Alarms → Alarms) (s : State) : (changeAlarms f s).inputs = s.inputs := rfl
@[simp] theorem changeAlarms_sample (f : Alarms → Alarms) (s : State) : (changeAlarms f s).sample = s.sample := rfl
@[simp] theorem changeAlarms_meter (f : Alarms → Alarms) (s : State) : (changeAlarms f s).meter = s.meter := rfl
@[simp] theorem changeAlarms_events (f : Alarms → Alarms) (s : State) : (changeAlarms f s).events = s.events := rfl
@[simp] theorem changeAlarms_journal (f : Alarms → Alarms) (s : State) : (changeAlarms f s).journal = s.journal := rfl
@[simp] theorem changeAlarms_alarms (f : Alarms → Alarms) (s : State) : (changeAlarms f s).alarms = f s.alarms := rfl
@[simp] theorem changeAlarms_link (f : Alarms → Alarms) (s : State) : (changeAlarms f s).link = s.link := rfl
@[simp] theorem changeAlarms_due (f : Alarms → Alarms) (s : State) : (changeAlarms f s).due = s.due := rfl
@[simp] theorem changeAlarms_freeCount (f : Alarms → Alarms) (s : State) :
    (changeAlarms f s).freeCount = s.freeCount := rfl
@[simp] theorem changeAlarms_pending (f : Alarms → Alarms) (s : State) : (changeAlarms f s).pending = s.pending := rfl

/-! ### answerFrame -/

@[simp] theorem answerFrame_phase (f : Frame) (r : Reply) (s : State) : (answerFrame f r s).phase = s.phase := rfl
@[simp] theorem answerFrame_storeValid (f : Frame) (r : Reply) (s : State) :
    (answerFrame f r s).storeValid = s.storeValid := rfl
@[simp] theorem answerFrame_backupLow (f : Frame) (r : Reply) (s : State) :
    (answerFrame f r s).backupLow = s.backupLow := rfl
@[simp] theorem answerFrame_lastReset (f : Frame) (r : Reply) (s : State) :
    (answerFrame f r s).lastReset = s.lastReset := rfl
@[simp] theorem answerFrame_clock (f : Frame) (r : Reply) (s : State) : (answerFrame f r s).clock = s.clock := rfl
@[simp] theorem answerFrame_lineup (f : Frame) (r : Reply) (s : State) : (answerFrame f r s).lineup = s.lineup := rfl
@[simp] theorem answerFrame_carrier (f : Frame) (r : Reply) (s : State) : (answerFrame f r s).carrier = s.carrier := rfl
@[simp] theorem answerFrame_taps (f : Frame) (r : Reply) (s : State) : (answerFrame f r s).taps = s.taps := rfl
@[simp] theorem answerFrame_transponders (f : Frame) (r : Reply) (s : State) :
    (answerFrame f r s).transponders = s.transponders := rfl
@[simp] theorem answerFrame_sched (f : Frame) (r : Reply) (s : State) : (answerFrame f r s).sched = s.sched := rfl
@[simp] theorem answerFrame_accounts (f : Frame) (r : Reply) (s : State) :
    (answerFrame f r s).accounts = s.accounts := rfl
@[simp] theorem answerFrame_commandQueue (f : Frame) (r : Reply) (s : State) :
    (answerFrame f r s).commandQueue = s.commandQueue := rfl
@[simp] theorem answerFrame_nodes (f : Frame) (r : Reply) (s : State) : (answerFrame f r s).nodes = s.nodes := rfl
@[simp] theorem answerFrame_inputs (f : Frame) (r : Reply) (s : State) : (answerFrame f r s).inputs = s.inputs := rfl
@[simp] theorem answerFrame_sample (f : Frame) (r : Reply) (s : State) : (answerFrame f r s).sample = s.sample := rfl
@[simp] theorem answerFrame_meter (f : Frame) (r : Reply) (s : State) : (answerFrame f r s).meter = s.meter := rfl
@[simp] theorem answerFrame_events (f : Frame) (r : Reply) (s : State) : (answerFrame f r s).events = s.events := rfl
@[simp] theorem answerFrame_journal (f : Frame) (r : Reply) (s : State) : (answerFrame f r s).journal = s.journal := rfl
@[simp] theorem answerFrame_alarms (f : Frame) (r : Reply) (s : State) : (answerFrame f r s).alarms = s.alarms := rfl
@[simp] theorem answerFrame_link (f : Frame) (r : Reply) (s : State) :
    (answerFrame f r s).link = { s.link with waiting := some { kind := replyKind f.kind, tag := f.tag, reply := r }, busyAhead := s.link.busy.length } := rfl
@[simp] theorem answerFrame_due (f : Frame) (r : Reply) (s : State) : (answerFrame f r s).due = s.due := rfl
@[simp] theorem answerFrame_freeCount (f : Frame) (r : Reply) (s : State) :
    (answerFrame f r s).freeCount = s.freeCount := rfl
@[simp] theorem answerFrame_pending (f : Frame) (r : Reply) (s : State) : (answerFrame f r s).pending = s.pending := rfl

/-! ### arrive -/

@[simp] theorem arrive_phase (f : Frame) (s : State) : (arrive f s).phase = s.phase := rfl
@[simp] theorem arrive_storeValid (f : Frame) (s : State) : (arrive f s).storeValid = s.storeValid := rfl
@[simp] theorem arrive_backupLow (f : Frame) (s : State) : (arrive f s).backupLow = s.backupLow := rfl
@[simp] theorem arrive_lastReset (f : Frame) (s : State) : (arrive f s).lastReset = s.lastReset := rfl
@[simp] theorem arrive_clock (f : Frame) (s : State) : (arrive f s).clock = s.clock := rfl
@[simp] theorem arrive_lineup (f : Frame) (s : State) : (arrive f s).lineup = s.lineup := rfl
@[simp] theorem arrive_carrier (f : Frame) (s : State) : (arrive f s).carrier = s.carrier := rfl
@[simp] theorem arrive_taps (f : Frame) (s : State) : (arrive f s).taps = s.taps := rfl
@[simp] theorem arrive_transponders (f : Frame) (s : State) : (arrive f s).transponders = s.transponders := rfl
@[simp] theorem arrive_sched (f : Frame) (s : State) : (arrive f s).sched = s.sched := rfl
@[simp] theorem arrive_accounts (f : Frame) (s : State) : (arrive f s).accounts = s.accounts := rfl
@[simp] theorem arrive_commandQueue (f : Frame) (s : State) : (arrive f s).commandQueue = s.commandQueue := rfl
@[simp] theorem arrive_nodes (f : Frame) (s : State) : (arrive f s).nodes = s.nodes := rfl
@[simp] theorem arrive_inputs (f : Frame) (s : State) : (arrive f s).inputs = s.inputs := rfl
@[simp] theorem arrive_sample (f : Frame) (s : State) : (arrive f s).sample = s.sample := rfl
@[simp] theorem arrive_meter (f : Frame) (s : State) : (arrive f s).meter = s.meter := rfl
@[simp] theorem arrive_events (f : Frame) (s : State) : (arrive f s).events = s.events := rfl
@[simp] theorem arrive_journal (f : Frame) (s : State) : (arrive f s).journal = s.journal := rfl
@[simp] theorem arrive_alarms (f : Frame) (s : State) : (arrive f s).alarms = s.alarms := rfl
@[simp] theorem arrive_due (f : Frame) (s : State) : (arrive f s).due = s.due := rfl
@[simp] theorem arrive_freeCount (f : Frame) (s : State) : (arrive f s).freeCount = s.freeCount := rfl
@[simp] theorem arrive_pending (f : Frame) (s : State) : (arrive f s).pending = s.pending := rfl

/-! ### sendPacket -/

@[simp] theorem sendPacket_phase (p : Packet) (e : Option Expectation) (s : State) :
    (sendPacket p e s).phase = s.phase := rfl
@[simp] theorem sendPacket_storeValid (p : Packet) (e : Option Expectation) (s : State) :
    (sendPacket p e s).storeValid = s.storeValid := rfl
@[simp] theorem sendPacket_backupLow (p : Packet) (e : Option Expectation) (s : State) :
    (sendPacket p e s).backupLow = s.backupLow := rfl
@[simp] theorem sendPacket_lastReset (p : Packet) (e : Option Expectation) (s : State) :
    (sendPacket p e s).lastReset = s.lastReset := rfl
@[simp] theorem sendPacket_clock (p : Packet) (e : Option Expectation) (s : State) :
    (sendPacket p e s).clock = s.clock := rfl
@[simp] theorem sendPacket_lineup (p : Packet) (e : Option Expectation) (s : State) :
    (sendPacket p e s).lineup = s.lineup := rfl
@[simp] theorem sendPacket_carrier (p : Packet) (e : Option Expectation) (s : State) :
    (sendPacket p e s).carrier = { s.carrier with modulator := packetBytes p, expectation := e } := rfl
@[simp] theorem sendPacket_taps (p : Packet) (e : Option Expectation) (s : State) :
    (sendPacket p e s).taps = s.taps := rfl
@[simp] theorem sendPacket_transponders (p : Packet) (e : Option Expectation) (s : State) :
    (sendPacket p e s).transponders = s.transponders := rfl
@[simp] theorem sendPacket_sched (p : Packet) (e : Option Expectation) (s : State) :
    (sendPacket p e s).sched = s.sched := rfl
@[simp] theorem sendPacket_accounts (p : Packet) (e : Option Expectation) (s : State) :
    (sendPacket p e s).accounts = s.accounts := rfl
@[simp] theorem sendPacket_commandQueue (p : Packet) (e : Option Expectation) (s : State) :
    (sendPacket p e s).commandQueue = s.commandQueue := rfl
@[simp] theorem sendPacket_nodes (p : Packet) (e : Option Expectation) (s : State) :
    (sendPacket p e s).nodes = s.nodes := rfl
@[simp] theorem sendPacket_inputs (p : Packet) (e : Option Expectation) (s : State) :
    (sendPacket p e s).inputs = s.inputs := rfl
@[simp] theorem sendPacket_sample (p : Packet) (e : Option Expectation) (s : State) :
    (sendPacket p e s).sample = s.sample := rfl
@[simp] theorem sendPacket_meter (p : Packet) (e : Option Expectation) (s : State) :
    (sendPacket p e s).meter = s.meter := rfl
@[simp] theorem sendPacket_events (p : Packet) (e : Option Expectation) (s : State) :
    (sendPacket p e s).events = s.events := rfl
@[simp] theorem sendPacket_journal (p : Packet) (e : Option Expectation) (s : State) :
    (sendPacket p e s).journal = s.journal := rfl
@[simp] theorem sendPacket_alarms (p : Packet) (e : Option Expectation) (s : State) :
    (sendPacket p e s).alarms = s.alarms := rfl
@[simp] theorem sendPacket_link (p : Packet) (e : Option Expectation) (s : State) :
    (sendPacket p e s).link = s.link := rfl
@[simp] theorem sendPacket_due (p : Packet) (e : Option Expectation) (s : State) : (sendPacket p e s).due = s.due := rfl
@[simp] theorem sendPacket_freeCount (p : Packet) (e : Option Expectation) (s : State) :
    (sendPacket p e s).freeCount = s.freeCount := rfl
@[simp] theorem sendPacket_pending (p : Packet) (e : Option Expectation) (s : State) :
    (sendPacket p e s).pending = s.pending := rfl

/-! ### openSlot -/

@[simp] theorem openSlot_phase (i : Nat) (s : State) : (openSlot i s).phase = s.phase := rfl
@[simp] theorem openSlot_storeValid (i : Nat) (s : State) : (openSlot i s).storeValid = s.storeValid := rfl
@[simp] theorem openSlot_backupLow (i : Nat) (s : State) : (openSlot i s).backupLow = s.backupLow := rfl
@[simp] theorem openSlot_lastReset (i : Nat) (s : State) : (openSlot i s).lastReset = s.lastReset := rfl
@[simp] theorem openSlot_clock (i : Nat) (s : State) : (openSlot i s).clock = s.clock := rfl
@[simp] theorem openSlot_lineup (i : Nat) (s : State) : (openSlot i s).lineup = s.lineup := rfl
@[simp] theorem openSlot_taps (i : Nat) (s : State) : (openSlot i s).taps = s.taps := rfl
@[simp] theorem openSlot_transponders (i : Nat) (s : State) : (openSlot i s).transponders = s.transponders := rfl
@[simp] theorem openSlot_sched (i : Nat) (s : State) : (openSlot i s).sched = s.sched := rfl
@[simp] theorem openSlot_accounts (i : Nat) (s : State) : (openSlot i s).accounts = s.accounts := rfl
@[simp] theorem openSlot_commandQueue (i : Nat) (s : State) : (openSlot i s).commandQueue = s.commandQueue := rfl
@[simp] theorem openSlot_nodes (i : Nat) (s : State) : (openSlot i s).nodes = s.nodes := rfl
@[simp] theorem openSlot_inputs (i : Nat) (s : State) : (openSlot i s).inputs = s.inputs := rfl
@[simp] theorem openSlot_sample (i : Nat) (s : State) : (openSlot i s).sample = s.sample := rfl
@[simp] theorem openSlot_meter (i : Nat) (s : State) : (openSlot i s).meter = s.meter := rfl
@[simp] theorem openSlot_events (i : Nat) (s : State) : (openSlot i s).events = s.events := rfl
@[simp] theorem openSlot_journal (i : Nat) (s : State) : (openSlot i s).journal = s.journal := rfl
@[simp] theorem openSlot_alarms (i : Nat) (s : State) : (openSlot i s).alarms = s.alarms := rfl
@[simp] theorem openSlot_link (i : Nat) (s : State) : (openSlot i s).link = s.link := rfl
@[simp] theorem openSlot_due (i : Nat) (s : State) : (openSlot i s).due = s.due := rfl
@[simp] theorem openSlot_freeCount (i : Nat) (s : State) : (openSlot i s).freeCount = s.freeCount := rfl
@[simp] theorem openSlot_pending (i : Nat) (s : State) : (openSlot i s).pending = s.pending := rfl

/-! ### takePoll -/

@[simp] theorem takePoll_phase (p : PollInFlight) (s : State) : (takePoll p s).phase = s.phase := rfl
@[simp] theorem takePoll_storeValid (p : PollInFlight) (s : State) : (takePoll p s).storeValid = s.storeValid := rfl
@[simp] theorem takePoll_backupLow (p : PollInFlight) (s : State) : (takePoll p s).backupLow = s.backupLow := rfl
@[simp] theorem takePoll_lastReset (p : PollInFlight) (s : State) : (takePoll p s).lastReset = s.lastReset := rfl
@[simp] theorem takePoll_clock (p : PollInFlight) (s : State) : (takePoll p s).clock = s.clock := rfl
@[simp] theorem takePoll_lineup (p : PollInFlight) (s : State) : (takePoll p s).lineup = s.lineup := rfl
@[simp] theorem takePoll_carrier (p : PollInFlight) (s : State) : (takePoll p s).carrier = s.carrier := rfl
@[simp] theorem takePoll_taps (p : PollInFlight) (s : State) : (takePoll p s).taps = s.taps := rfl
@[simp] theorem takePoll_transponders (p : PollInFlight) (s : State) :
    (takePoll p s).transponders = s.transponders := rfl
@[simp] theorem takePoll_accounts (p : PollInFlight) (s : State) : (takePoll p s).accounts = s.accounts := rfl
@[simp] theorem takePoll_commandQueue (p : PollInFlight) (s : State) :
    (takePoll p s).commandQueue = s.commandQueue := rfl
@[simp] theorem takePoll_nodes (p : PollInFlight) (s : State) : (takePoll p s).nodes = s.nodes := rfl
@[simp] theorem takePoll_inputs (p : PollInFlight) (s : State) : (takePoll p s).inputs = s.inputs := rfl
@[simp] theorem takePoll_sample (p : PollInFlight) (s : State) : (takePoll p s).sample = s.sample := rfl
@[simp] theorem takePoll_meter (p : PollInFlight) (s : State) : (takePoll p s).meter = s.meter := rfl
@[simp] theorem takePoll_events (p : PollInFlight) (s : State) : (takePoll p s).events = s.events := rfl
@[simp] theorem takePoll_journal (p : PollInFlight) (s : State) : (takePoll p s).journal = s.journal := rfl
@[simp] theorem takePoll_alarms (p : PollInFlight) (s : State) : (takePoll p s).alarms = s.alarms := rfl
@[simp] theorem takePoll_link (p : PollInFlight) (s : State) : (takePoll p s).link = s.link := rfl
@[simp] theorem takePoll_due (p : PollInFlight) (s : State) : (takePoll p s).due = s.due := rfl
@[simp] theorem takePoll_freeCount (p : PollInFlight) (s : State) : (takePoll p s).freeCount = s.freeCount := rfl
@[simp] theorem takePoll_pending (p : PollInFlight) (s : State) : (takePoll p s).pending = s.pending := rfl

/-! ### endPoll -/

@[simp] theorem endPoll_phase (s : State) : (endPoll s).phase = s.phase := rfl
@[simp] theorem endPoll_storeValid (s : State) : (endPoll s).storeValid = s.storeValid := rfl
@[simp] theorem endPoll_backupLow (s : State) : (endPoll s).backupLow = s.backupLow := rfl
@[simp] theorem endPoll_lastReset (s : State) : (endPoll s).lastReset = s.lastReset := rfl
@[simp] theorem endPoll_clock (s : State) : (endPoll s).clock = s.clock := rfl
@[simp] theorem endPoll_lineup (s : State) : (endPoll s).lineup = s.lineup := rfl
@[simp] theorem endPoll_carrier (s : State) : (endPoll s).carrier = s.carrier := rfl
@[simp] theorem endPoll_taps (s : State) : (endPoll s).taps = s.taps := rfl
@[simp] theorem endPoll_transponders (s : State) : (endPoll s).transponders = s.transponders := rfl
@[simp] theorem endPoll_accounts (s : State) : (endPoll s).accounts = s.accounts := rfl
@[simp] theorem endPoll_commandQueue (s : State) : (endPoll s).commandQueue = s.commandQueue := rfl
@[simp] theorem endPoll_nodes (s : State) : (endPoll s).nodes = s.nodes := rfl
@[simp] theorem endPoll_inputs (s : State) : (endPoll s).inputs = s.inputs := rfl
@[simp] theorem endPoll_sample (s : State) : (endPoll s).sample = s.sample := rfl
@[simp] theorem endPoll_meter (s : State) : (endPoll s).meter = s.meter := rfl
@[simp] theorem endPoll_events (s : State) : (endPoll s).events = s.events := rfl
@[simp] theorem endPoll_journal (s : State) : (endPoll s).journal = s.journal := rfl
@[simp] theorem endPoll_alarms (s : State) : (endPoll s).alarms = s.alarms := rfl
@[simp] theorem endPoll_link (s : State) : (endPoll s).link = s.link := rfl
@[simp] theorem endPoll_due (s : State) : (endPoll s).due = s.due := rfl
@[simp] theorem endPoll_freeCount (s : State) : (endPoll s).freeCount = s.freeCount := rfl
@[simp] theorem endPoll_pending (s : State) : (endPoll s).pending = s.pending := rfl

/-! ### setCursor -/

@[simp] theorem setCursor_phase (k : Nat) (s : State) : (setCursor k s).phase = s.phase := rfl
@[simp] theorem setCursor_storeValid (k : Nat) (s : State) : (setCursor k s).storeValid = s.storeValid := rfl
@[simp] theorem setCursor_backupLow (k : Nat) (s : State) : (setCursor k s).backupLow = s.backupLow := rfl
@[simp] theorem setCursor_lastReset (k : Nat) (s : State) : (setCursor k s).lastReset = s.lastReset := rfl
@[simp] theorem setCursor_clock (k : Nat) (s : State) : (setCursor k s).clock = s.clock := rfl
@[simp] theorem setCursor_lineup (k : Nat) (s : State) : (setCursor k s).lineup = s.lineup := rfl
@[simp] theorem setCursor_carrier (k : Nat) (s : State) : (setCursor k s).carrier = s.carrier := rfl
@[simp] theorem setCursor_taps (k : Nat) (s : State) : (setCursor k s).taps = s.taps := rfl
@[simp] theorem setCursor_transponders (k : Nat) (s : State) : (setCursor k s).transponders = s.transponders := rfl
@[simp] theorem setCursor_sched (k : Nat) (s : State) : (setCursor k s).sched = { s.sched with cursor := k } := rfl
@[simp] theorem setCursor_accounts (k : Nat) (s : State) : (setCursor k s).accounts = s.accounts := rfl
@[simp] theorem setCursor_commandQueue (k : Nat) (s : State) : (setCursor k s).commandQueue = s.commandQueue := rfl
@[simp] theorem setCursor_nodes (k : Nat) (s : State) : (setCursor k s).nodes = s.nodes := rfl
@[simp] theorem setCursor_inputs (k : Nat) (s : State) : (setCursor k s).inputs = s.inputs := rfl
@[simp] theorem setCursor_sample (k : Nat) (s : State) : (setCursor k s).sample = s.sample := rfl
@[simp] theorem setCursor_meter (k : Nat) (s : State) : (setCursor k s).meter = s.meter := rfl
@[simp] theorem setCursor_events (k : Nat) (s : State) : (setCursor k s).events = s.events := rfl
@[simp] theorem setCursor_journal (k : Nat) (s : State) : (setCursor k s).journal = s.journal := rfl
@[simp] theorem setCursor_alarms (k : Nat) (s : State) : (setCursor k s).alarms = s.alarms := rfl
@[simp] theorem setCursor_link (k : Nat) (s : State) : (setCursor k s).link = s.link := rfl
@[simp] theorem setCursor_due (k : Nat) (s : State) : (setCursor k s).due = s.due := rfl
@[simp] theorem setCursor_freeCount (k : Nat) (s : State) : (setCursor k s).freeCount = s.freeCount := rfl
@[simp] theorem setCursor_pending (k : Nat) (s : State) : (setCursor k s).pending = s.pending := rfl

/-! ### setStagedEntries -/

@[simp] theorem setStagedEntries_phase (es : List LineupEntry) (s : State) :
    (setStagedEntries es s).phase = s.phase := rfl
@[simp] theorem setStagedEntries_storeValid (es : List LineupEntry) (s : State) :
    (setStagedEntries es s).storeValid = s.storeValid := rfl
@[simp] theorem setStagedEntries_backupLow (es : List LineupEntry) (s : State) :
    (setStagedEntries es s).backupLow = s.backupLow := rfl
@[simp] theorem setStagedEntries_lastReset (es : List LineupEntry) (s : State) :
    (setStagedEntries es s).lastReset = s.lastReset := rfl
@[simp] theorem setStagedEntries_clock (es : List LineupEntry) (s : State) :
    (setStagedEntries es s).clock = s.clock := rfl
@[simp] theorem setStagedEntries_carrier (es : List LineupEntry) (s : State) :
    (setStagedEntries es s).carrier = s.carrier := rfl
@[simp] theorem setStagedEntries_taps (es : List LineupEntry) (s : State) : (setStagedEntries es s).taps = s.taps := rfl
@[simp] theorem setStagedEntries_transponders (es : List LineupEntry) (s : State) :
    (setStagedEntries es s).transponders = s.transponders := rfl
@[simp] theorem setStagedEntries_sched (es : List LineupEntry) (s : State) :
    (setStagedEntries es s).sched = s.sched := rfl
@[simp] theorem setStagedEntries_accounts (es : List LineupEntry) (s : State) :
    (setStagedEntries es s).accounts = s.accounts := rfl
@[simp] theorem setStagedEntries_commandQueue (es : List LineupEntry) (s : State) :
    (setStagedEntries es s).commandQueue = s.commandQueue := rfl
@[simp] theorem setStagedEntries_nodes (es : List LineupEntry) (s : State) :
    (setStagedEntries es s).nodes = s.nodes := rfl
@[simp] theorem setStagedEntries_inputs (es : List LineupEntry) (s : State) :
    (setStagedEntries es s).inputs = s.inputs := rfl
@[simp] theorem setStagedEntries_sample (es : List LineupEntry) (s : State) :
    (setStagedEntries es s).sample = s.sample := rfl
@[simp] theorem setStagedEntries_meter (es : List LineupEntry) (s : State) :
    (setStagedEntries es s).meter = s.meter := rfl
@[simp] theorem setStagedEntries_events (es : List LineupEntry) (s : State) :
    (setStagedEntries es s).events = s.events := rfl
@[simp] theorem setStagedEntries_journal (es : List LineupEntry) (s : State) :
    (setStagedEntries es s).journal = s.journal := rfl
@[simp] theorem setStagedEntries_alarms (es : List LineupEntry) (s : State) :
    (setStagedEntries es s).alarms = s.alarms := rfl
@[simp] theorem setStagedEntries_link (es : List LineupEntry) (s : State) : (setStagedEntries es s).link = s.link := rfl
@[simp] theorem setStagedEntries_due (es : List LineupEntry) (s : State) : (setStagedEntries es s).due = s.due := rfl
@[simp] theorem setStagedEntries_freeCount (es : List LineupEntry) (s : State) :
    (setStagedEntries es s).freeCount = s.freeCount := rfl
@[simp] theorem setStagedEntries_pending (es : List LineupEntry) (s : State) :
    (setStagedEntries es s).pending = s.pending := rfl

/-! ### returnAnswer -/

@[simp] theorem returnAnswer_phase (p : PlantPurchase) (v : Verdict) (s : State) :
    (returnAnswer p v s).phase = s.phase := rfl
@[simp] theorem returnAnswer_storeValid (p : PlantPurchase) (v : Verdict) (s : State) :
    (returnAnswer p v s).storeValid = s.storeValid := rfl
@[simp] theorem returnAnswer_backupLow (p : PlantPurchase) (v : Verdict) (s : State) :
    (returnAnswer p v s).backupLow = s.backupLow := rfl
@[simp] theorem returnAnswer_lastReset (p : PlantPurchase) (v : Verdict) (s : State) :
    (returnAnswer p v s).lastReset = s.lastReset := rfl
@[simp] theorem returnAnswer_clock (p : PlantPurchase) (v : Verdict) (s : State) :
    (returnAnswer p v s).clock = s.clock := rfl
@[simp] theorem returnAnswer_lineup (p : PlantPurchase) (v : Verdict) (s : State) :
    (returnAnswer p v s).lineup = s.lineup := rfl
@[simp] theorem returnAnswer_taps (p : PlantPurchase) (v : Verdict) (s : State) :
    (returnAnswer p v s).taps = s.taps := rfl
@[simp] theorem returnAnswer_transponders (p : PlantPurchase) (v : Verdict) (s : State) :
    (returnAnswer p v s).transponders = s.transponders := rfl
@[simp] theorem returnAnswer_sched (p : PlantPurchase) (v : Verdict) (s : State) :
    (returnAnswer p v s).sched = s.sched := rfl
@[simp] theorem returnAnswer_accounts (p : PlantPurchase) (v : Verdict) (s : State) :
    (returnAnswer p v s).accounts = s.accounts := rfl
@[simp] theorem returnAnswer_commandQueue (p : PlantPurchase) (v : Verdict) (s : State) :
    (returnAnswer p v s).commandQueue = s.commandQueue := rfl
@[simp] theorem returnAnswer_nodes (p : PlantPurchase) (v : Verdict) (s : State) :
    (returnAnswer p v s).nodes = s.nodes := rfl
@[simp] theorem returnAnswer_inputs (p : PlantPurchase) (v : Verdict) (s : State) :
    (returnAnswer p v s).inputs = s.inputs := rfl
@[simp] theorem returnAnswer_sample (p : PlantPurchase) (v : Verdict) (s : State) :
    (returnAnswer p v s).sample = s.sample := rfl
@[simp] theorem returnAnswer_meter (p : PlantPurchase) (v : Verdict) (s : State) :
    (returnAnswer p v s).meter = s.meter := rfl
@[simp] theorem returnAnswer_events (p : PlantPurchase) (v : Verdict) (s : State) :
    (returnAnswer p v s).events = s.events := rfl
@[simp] theorem returnAnswer_journal (p : PlantPurchase) (v : Verdict) (s : State) :
    (returnAnswer p v s).journal = s.journal := rfl
@[simp] theorem returnAnswer_alarms (p : PlantPurchase) (v : Verdict) (s : State) :
    (returnAnswer p v s).alarms = s.alarms := rfl
@[simp] theorem returnAnswer_link (p : PlantPurchase) (v : Verdict) (s : State) :
    (returnAnswer p v s).link = s.link := rfl
@[simp] theorem returnAnswer_due (p : PlantPurchase) (v : Verdict) (s : State) : (returnAnswer p v s).due = s.due := rfl
@[simp] theorem returnAnswer_freeCount (p : PlantPurchase) (v : Verdict) (s : State) :
    (returnAnswer p v s).freeCount = s.freeCount := rfl
@[simp] theorem returnAnswer_pending (p : PlantPurchase) (v : Verdict) (s : State) :
    (returnAnswer p v s).pending = s.pending := rfl

/-! ### fixSample -/

@[simp] theorem fixSample_phase (t : Nat) (s : State) : (fixSample t s).phase = s.phase := rfl
@[simp] theorem fixSample_storeValid (t : Nat) (s : State) : (fixSample t s).storeValid = s.storeValid := rfl
@[simp] theorem fixSample_backupLow (t : Nat) (s : State) : (fixSample t s).backupLow = s.backupLow := rfl
@[simp] theorem fixSample_lastReset (t : Nat) (s : State) : (fixSample t s).lastReset = s.lastReset := rfl
@[simp] theorem fixSample_clock (t : Nat) (s : State) : (fixSample t s).clock = s.clock := rfl
@[simp] theorem fixSample_lineup (t : Nat) (s : State) : (fixSample t s).lineup = s.lineup := rfl
@[simp] theorem fixSample_carrier (t : Nat) (s : State) : (fixSample t s).carrier = s.carrier := rfl
@[simp] theorem fixSample_taps (t : Nat) (s : State) : (fixSample t s).taps = s.taps := rfl
@[simp] theorem fixSample_transponders (t : Nat) (s : State) : (fixSample t s).transponders = s.transponders := rfl
@[simp] theorem fixSample_sched (t : Nat) (s : State) : (fixSample t s).sched = s.sched := rfl
@[simp] theorem fixSample_accounts (t : Nat) (s : State) : (fixSample t s).accounts = s.accounts := rfl
@[simp] theorem fixSample_commandQueue (t : Nat) (s : State) : (fixSample t s).commandQueue = s.commandQueue := rfl
@[simp] theorem fixSample_nodes (t : Nat) (s : State) : (fixSample t s).nodes = s.nodes := rfl
@[simp] theorem fixSample_inputs (t : Nat) (s : State) : (fixSample t s).inputs = s.inputs := rfl
@[simp] theorem fixSample_meter (t : Nat) (s : State) : (fixSample t s).meter = s.meter := rfl
@[simp] theorem fixSample_events (t : Nat) (s : State) : (fixSample t s).events = s.events := rfl
@[simp] theorem fixSample_journal (t : Nat) (s : State) : (fixSample t s).journal = s.journal := rfl
@[simp] theorem fixSample_alarms (t : Nat) (s : State) : (fixSample t s).alarms = s.alarms := rfl
@[simp] theorem fixSample_link (t : Nat) (s : State) : (fixSample t s).link = s.link := rfl
@[simp] theorem fixSample_due (t : Nat) (s : State) : (fixSample t s).due = s.due := rfl
@[simp] theorem fixSample_freeCount (t : Nat) (s : State) : (fixSample t s).freeCount = s.freeCount := rfl
@[simp] theorem fixSample_pending (t : Nat) (s : State) : (fixSample t s).pending = s.pending := rfl

/-! ### fixBoundaryTariff -/

@[simp] theorem fixBoundaryTariff_phase (b : Nat) (s : State) : (fixBoundaryTariff b s).phase = s.phase := rfl
@[simp] theorem fixBoundaryTariff_storeValid (b : Nat) (s : State) :
    (fixBoundaryTariff b s).storeValid = s.storeValid := rfl
@[simp] theorem fixBoundaryTariff_backupLow (b : Nat) (s : State) :
    (fixBoundaryTariff b s).backupLow = s.backupLow := rfl
@[simp] theorem fixBoundaryTariff_lastReset (b : Nat) (s : State) :
    (fixBoundaryTariff b s).lastReset = s.lastReset := rfl
@[simp] theorem fixBoundaryTariff_clock (b : Nat) (s : State) : (fixBoundaryTariff b s).clock = s.clock := rfl
@[simp] theorem fixBoundaryTariff_lineup (b : Nat) (s : State) : (fixBoundaryTariff b s).lineup = s.lineup := rfl
@[simp] theorem fixBoundaryTariff_carrier (b : Nat) (s : State) : (fixBoundaryTariff b s).carrier = s.carrier := rfl
@[simp] theorem fixBoundaryTariff_taps (b : Nat) (s : State) : (fixBoundaryTariff b s).taps = s.taps := rfl
@[simp] theorem fixBoundaryTariff_transponders (b : Nat) (s : State) :
    (fixBoundaryTariff b s).transponders = s.transponders := rfl
@[simp] theorem fixBoundaryTariff_sched (b : Nat) (s : State) : (fixBoundaryTariff b s).sched = s.sched := rfl
@[simp] theorem fixBoundaryTariff_accounts (b : Nat) (s : State) : (fixBoundaryTariff b s).accounts = s.accounts := rfl
@[simp] theorem fixBoundaryTariff_commandQueue (b : Nat) (s : State) :
    (fixBoundaryTariff b s).commandQueue = s.commandQueue := rfl
@[simp] theorem fixBoundaryTariff_nodes (b : Nat) (s : State) : (fixBoundaryTariff b s).nodes = s.nodes := rfl
@[simp] theorem fixBoundaryTariff_inputs (b : Nat) (s : State) : (fixBoundaryTariff b s).inputs = s.inputs := rfl
@[simp] theorem fixBoundaryTariff_sample (b : Nat) (s : State) : (fixBoundaryTariff b s).sample = s.sample := rfl
@[simp] theorem fixBoundaryTariff_events (b : Nat) (s : State) : (fixBoundaryTariff b s).events = s.events := rfl
@[simp] theorem fixBoundaryTariff_journal (b : Nat) (s : State) : (fixBoundaryTariff b s).journal = s.journal := rfl
@[simp] theorem fixBoundaryTariff_alarms (b : Nat) (s : State) : (fixBoundaryTariff b s).alarms = s.alarms := rfl
@[simp] theorem fixBoundaryTariff_link (b : Nat) (s : State) : (fixBoundaryTariff b s).link = s.link := rfl
@[simp] theorem fixBoundaryTariff_due (b : Nat) (s : State) : (fixBoundaryTariff b s).due = s.due := rfl
@[simp] theorem fixBoundaryTariff_freeCount (b : Nat) (s : State) :
    (fixBoundaryTariff b s).freeCount = s.freeCount := rfl
@[simp] theorem fixBoundaryTariff_pending (b : Nat) (s : State) : (fixBoundaryTariff b s).pending = s.pending := rfl

end Sys2Proof.Machine
end

