-- ==== Sys2Proof/Laws/Steps.lean ====
section
/-! SUPPORT. What each shared operation of the steps can do, said once: requests, the journal's four operations and the
balance update. -/

namespace Sys2Proof.Machine

/-! ### The backup supply (R2) -/

/-- All that the monitor's judgement can give: the state itself, or the state with its store marked invalid and its clock
no longer held, which needs main power absent and a low backup voltage. -/
theorem judgeRetention_cases (s : State) :
    judgeRetention s = s ∨
      (s.phase = .mainLost ∧ s.backupLow = true ∧ s.storeValid = true ∧
        judgeRetention s =
          { s with storeValid := false, clock := unheldClock s.freeCount, freeCount := s.freeCount + 4 }) := by
  unfold judgeRetention
  split
  · rename_i h; exact .inr ⟨h.1, h.2.1, h.2.2, rfl⟩
  · exact .inl rfl

/-! ### Requests (R189, R190) -/

theorem mayExecute_iff (s : State) :
    mayExecute s = true ↔ s.phase = .running ∧ s.link.waiting = none ∧ s.link.restartOwed = false := by
  simp [mayExecute, and_assoc, Option.isNone_iff_eq_none]

/-- All that a claim can give: the state itself with an empty inbound queue, or the state without its oldest frame. -/
theorem claimRequest_cases {f : Frame} {s u : State} (h : claimRequest f s = some u) :
    mayExecute s = true ∧ f.tag ≠ 0#8 ∧
      ((s.link.inbound = [] ∧ u = s) ∨
        ∃ rest, s.link.inbound = f :: rest ∧ u = { s with link := { s.link with inbound := rest } }) := by
  unfold claimRequest at h
  split at h
  · rename_i c
    simp only [Bool.and_eq_true, bne_iff_ne, ne_eq] at c
    refine ⟨c.1, c.2, ?_⟩
    split at h
    · rename_i e; exact .inl ⟨e, by simpa using h.symm⟩
    · rename_i g rest e
      split at h
      · rename_i eq; subst eq; exact .inr ⟨rest, e, by simpa using h.symm⟩
      · cases h
  · cases h

/-- A request that is claimed is executed by its owner, and its reply becomes the waiting reply. -/
theorem serve_claimed {c : Instr} {owner : State → State × Reply} {s u : State}
    (h : claimRequest (requestFrame c) s = some u) :
    serve c owner s = answerFrame (requestFrame c) (owner u).2 (owner u).1 := by
  simp [serve, h]

/-- A request that is not claimed is an arrival of its frame in a running part. -/
theorem serve_unclaimed {c : Instr} {owner : State → State × Reply} {s : State}
    (h : claimRequest (requestFrame c) s = none) :
    serve c owner s = whenRunning (arrive (requestFrame c)) s := by
  simp [serve, h]

theorem whenRunning_of_running {f : State → State} {s : State} (h : s.phase = .running) : whenRunning f s = f s := by
  simp [whenRunning, h]

theorem whenRunning_of_stopped {f : State → State} {s : State} (h : s.phase ≠ .running) : whenRunning f s = s := by
  simp [whenRunning, h]

/-- A property that a step of the blocks keeps is kept whether or not the part runs. -/
theorem whenRunning_keeps {p : State → Prop} {f : State → State} {s : State} (h : p s) (hf : p s → p (f s)) :
    p (whenRunning f s) := by
  unfold whenRunning; split
  · exact hf h
  · exact h

/-- A property that neither the Host Link's own changes nor the owner's step breaks is kept by a request. -/
theorem serve_keeps {p : State → Prop} {c : Instr} {owner : State → State × Reply} {s : State}
    (link : ∀ (t : State) (l : Link), p t → p { t with link := l }) (h : p s) (ho : ∀ u, p u → p (owner u).1) :
    p (serve c owner s) := by
  unfold serve
  split
  · rename_i u hu
    obtain ⟨-, -, ⟨-, rfl⟩ | ⟨rest, -, rfl⟩⟩ := claimRequest_cases hu
    · exact link _ _ (ho _ h)
    · exact link _ _ (ho _ (link _ _ h))
  · exact whenRunning_keeps h fun h => link _ _ h

/-! ### The journal (R163 to R167) -/

theorem plainWrite_cases (time : Nat) (body : RecordBody) (s : State) :
    (1 ≤ journalFree s.journal ∧ plainWrite time body s = putJournal (appendRecord time body s.journal) s) ∨
      (journalFree s.journal = 0 ∧ plainWrite time body s = s) := by
  unfold plainWrite; split
  · exact .inl ⟨‹_›, rfl⟩
  · exact .inr ⟨by omega, rfl⟩

theorem takeReservation_cases (s : State) :
    (1 ≤ journalFree s.journal ∧
        takeReservation s = putJournal { s.journal with reserved := s.journal.reserved + 1 } s) ∨
      (journalFree s.journal = 0 ∧ takeReservation s = s) := by
  unfold takeReservation; split
  · exact .inl ⟨‹_›, rfl⟩
  · exact .inr ⟨by omega, rfl⟩

theorem releaseReservation_cases (s : State) :
    (1 ≤ s.journal.reserved ∧
        releaseReservation s = putJournal { s.journal with reserved := s.journal.reserved - 1 } s) ∨
      (s.journal.reserved = 0 ∧ releaseReservation s = s) := by
  unfold releaseReservation; split
  · exact .inl ⟨‹_›, rfl⟩
  · exact .inr ⟨by omega, rfl⟩

theorem convertReservation_cases (time : Nat) (body : RecordBody) (s : State) :
    (1 ≤ s.journal.reserved ∧
        convertReservation time body s =
          putJournal (appendRecord time body { s.journal with reserved := s.journal.reserved - 1 }) s) ∨
      (s.journal.reserved = 0 ∧ convertReservation time body s = s) := by
  unfold convertReservation; split
  · exact .inl ⟨‹_›, rfl⟩
  · exact .inr ⟨by omega, rfl⟩

/-- What a step may do to the state through the journal: the journal and the alarms alone. -/
def journalOnly (s t : State) : Prop := { t with journal := s.journal, alarms := s.alarms } = s

theorem journalOnly_refl (s : State) : journalOnly s s := rfl

theorem plainWrite_journalOnly (time : Nat) (body : RecordBody) (s : State) : journalOnly s (plainWrite time body s) := by
  obtain ⟨-, h⟩ | ⟨-, h⟩ := plainWrite_cases time body s <;> rw [h] <;> rfl

theorem takeReservation_journalOnly (s : State) : journalOnly s (takeReservation s) := by
  obtain ⟨-, h⟩ | ⟨-, h⟩ := takeReservation_cases s <;> rw [h] <;> rfl

theorem releaseReservation_journalOnly (s : State) : journalOnly s (releaseReservation s) := by
  obtain ⟨-, h⟩ | ⟨-, h⟩ := releaseReservation_cases s <;> rw [h] <;> rfl

theorem convertReservation_journalOnly (time : Nat) (body : RecordBody) (s : State) :
    journalOnly s (convertReservation time body s) := by
  obtain ⟨-, h⟩ | ⟨-, h⟩ := convertReservation_cases time body s <;> rw [h] <;> rfl

/-! ### The balance update (R133) -/

theorem saturate_range (v : Int) : -2000000000 ≤ saturate v ∧ saturate v ≤ 2000000000 := by
  unfold saturate maxBalance; omega

theorem saturate_eq_iff (v : Int) : saturate v = v ↔ -2000000000 ≤ v ∧ v ≤ 2000000000 := by
  unfold saturate maxBalance; omega

/-- What a balance update can touch: accounts, meter, journal and alarms. -/
theorem balanceUpdate_frame (k : Nat) (amount : Int) (needed : Nat) (s : State) :
    { balanceUpdate k amount needed s with
      accounts := s.accounts, meter := s.meter, journal := s.journal, alarms := s.alarms } = s := by
  unfold balanceUpdate
  split
  · rfl
  · simp only []
    split
    · rfl
    · split
      · unfold plainWrite; split <;> rfl
      · rfl

/-! ### Recomputation (R93, R94) -/

/-- What a recomputation can touch: the tap records and the command queue. -/
theorem recompute_frame (a : Nat) (s : State) :
    { recompute a s with taps := s.taps, commandQueue := s.commandQueue } = s := by
  unfold recompute
  split
  · rfl
  · split
    · rfl
    · simp only [queueUpdate]
      split <;> rfl

theorem recompute_absent {a : Nat} {s : State} (h : findTap a s.taps = none) : recompute a s = s := by
  simp [recompute, h]

theorem recompute_removing {a : Nat} {s : State} {t : TapRec} (h : findTap a s.taps = some t)
    (hr : t.state = .removing) : recompute a s = s := by
  simp [recompute, h, hr]

/-- A node's entry into a state touches the node records and the alarms. -/
theorem setNodeState_frame (n : Nat) (state : NodeState) (timer : Option Nat) (s : State) :
    { setNodeState n state timer s with nodes := s.nodes, alarms := s.alarms } = s := by
  unfold setNodeState giveNodeConditions
  simp only []
  split <;> rfl

/-- A re-evaluation touches the node records and the alarms. -/
theorem reevaluate_frame (n : Nat) (s : State) :
    { reevaluate n s with nodes := s.nodes, alarms := s.alarms } = s := by
  unfold reevaluate
  split
  all_goals first
    | exact setNodeState_frame _ _ _ _
    | (split
       · exact setNodeState_frame _ _ _ _
       · first
         | rfl
         | (split
            · exact setNodeState_frame _ _ _ _
            · rfl))

end Sys2Proof.Machine
end

