-- ==== Sys2Proof/Tests/Slice0.lean ====
section
/-! SUPPORT. The model's own tests: ill-formed commands, frames and packets written out from R196, steps of the manual's
worked sequences, and for each statement a state and operands that meet its hypotheses. -/

set_option Elab.async false

namespace Sys2Proof.Machine.Tests

open Sys2Proof Sys2Proof.Machine

/-! ### Ill-formed commands, one for each check -/

theorem test_wf_inputs : (Instr.sourceLevelChange 0 true).wf = false ∧ (Instr.sourceLevelChange 65 true).wf = false ∧
    (Instr.sourceDebounceVerdict 65).wf = false ∧ (Instr.sourceDebounceVerdict 64).wf = true := by decide

theorem test_wf_nodes : (Instr.restoreHoldExpiry 0).wf = false ∧ (Instr.restoreHoldExpiry 33).wf = false ∧
    (Instr.restoreHoldExpiry 32).wf = true := by decide

theorem test_wf_payload :
    (Instr.frameArrival ⟨1, 1, List.replicate 1025 0⟩ 0).wf = false ∧
      (Instr.frameArrival ⟨1, 1, List.replicate 1024 0⟩ 0).wf = true := by decide +kernel

theorem test_wf_tags : (Instr.status 0).wf = false ∧ (Instr.alarmQuery 0 1 2).wf = false ∧ (Instr.status 255).wf = true := by
  decide

theorem test_wf_one_byte : (Instr.pollOrder 1 256).wf = false ∧ (Instr.pollOrder 1 255).wf = true ∧
    (Instr.tapAdd 1 1 1 256).wf = false ∧ (Instr.alarmSet 1 0 0 0 256).wf = false := by decide

theorem test_wf_two_bytes : (Instr.lineupDrop 1 65536).wf = false ∧ (Instr.lineupDrop 1 65535).wf = true := by decide

theorem test_wf_three_bytes : (Instr.tapRead 1 16777216).wf = false ∧ (Instr.tapRead 1 16777215).wf = true ∧
    (Instr.transponderSet 1 1 (some 16777216)).wf = false ∧ (Instr.transponderSet 1 1 none).wf = true := by decide

theorem test_wf_four_bytes : (Instr.setTime 1 4294967296).wf = false ∧ (Instr.setTime 1 4294967295).wf = true := by decide

theorem test_wf_signed : (Instr.timeTrim 1 2147483648).wf = false ∧ (Instr.timeTrim 1 2147483647).wf = true ∧
    (Instr.timeTrim 1 (-2147483649)).wf = false ∧ (Instr.timeTrim 1 (-2147483648)).wf = true := by decide

theorem test_wf_label : (Instr.lineupPut 1 1 1 1 1 none (List.replicate 256 0)).wf = false ∧
    (Instr.lineupPut 1 1 1 1 1 (some 256) []).wf = false := by decide +kernel

/-! ### Frames and packets, their bytes written out from R196 -/

/-- A request as a frame's kind, tag and payload give it. -/
def reads (kind tag : Byte) (payload : List Byte) (c : Instr) : Bool :=
  match decodeRequest ⟨kind, tag, payload⟩ with
  | .ok d => d = c
  | .error _ => false

/-- 1,800,000,870 is 0x6B49D566. -/
theorem test_decode_setTime : reads 0x03 7 [0x6B, 0x49, 0xD5, 0x66] (.setTime 7 1800000870) := by decide

/-- A delta of -30 in two's complement. -/
theorem test_decode_timeTrim : reads 0x04 7 [0xFF, 0xFF, 0xFF, 0xE2] (.timeTrim 7 (-30)) := by decide

/-- Channel 999 on slot 150 from source 64, TIERED, tier 15 present, label "HI". -/
theorem test_decode_lineupPut : reads 0x08 1 [0x03, 0xE7, 150, 64, 0, 1, 15, 2, 0x48, 0x49]
    (.lineupPut 1 999 150 64 0 (some 15) [0x48, 0x49]) := by decide

/-- Kind PPV, no tier, no label. -/
theorem test_decode_lineupPut_ppv : reads 0x08 1 [0x00, 0x14, 5, 3, 1, 0, 0] (.lineupPut 1 20 5 3 1 none []) := by decide

/-- Address 16,777,214, node 32, model EVENT. -/
theorem test_decode_tapAdd : reads 0x10 2 [0xFF, 0xFF, 0xFE, 32, 2] (.tapAdd 2 16777214 32 2) := by decide

theorem test_decode_transponderSet : reads 0x12 2 [9, 1, 0x01, 0x02, 0x03] (.transponderSet 2 9 (some 66051)) ∧
    reads 0x12 2 [9, 0] (.transponderSet 2 9 none) := by decide

theorem test_decode_nodeConfig : reads 0x18 3 [1, 3, 25, 60, 0x00, 0x78, 0x01, 0xF4, 0x00, 0x0A, 0x00, 0x1E]
    (.nodeConfig 3 1 3 25 60 120 500 10 30) := by decide

/-- Account 99,999,999 at tap 100, port 1, tiers 0 and 3, ACTIVE. -/
theorem test_decode_accountOpen : reads 0x20 4 [0x05, 0xF5, 0xE0, 0xFF, 0, 0, 100, 1, 0x00, 0x09, 0]
    (.accountOpen 4 99999999 100 1 0x0009#16 0) := by decide

theorem test_decode_cycleClose : reads 0x28 5 [0, 0, 0, 1, 0x05, 0xF5, 0xE0, 0xFF] (.cycleClose 5 1 99999999) := by decide

theorem test_decode_eventAdd :
    reads 0x30 6 [9, 0, 20, 0x6B, 0x49, 0xD5, 0x48, 0x00, 0x3C, 10, 0, 0, 0x01, 0xF4, 0x00, 0x0A]
      (.eventAdd 6 9 20 1800000840 60 10 500 10) := by decide

theorem test_decode_journalRelease : reads 0x39 8 [0, 0, 0, 42] (.journalRelease 8 42) := by decide

theorem test_decode_alarmExpress : reads 0x43 8 [1, 1, 233] (.alarmExpress 8 1 (some 233)) ∧
    reads 0x43 8 [0, 0] (.alarmExpress 8 0 none) := by decide

theorem test_decode_compositeDefine : reads 0x41 8 [7, 3, 0, 225, 0] (.compositeDefine 8 7 3 0 225 0) := by decide

/-- What a frame that is refused fails. -/
def fails (kind tag : Byte) (payload : List Byte) (e : FrameError) : Bool :=
  match decodeRequest ⟨kind, tag, payload⟩ with
  | .ok _ => false
  | .error f => f = e

/-- R190: tag 0 before the kind, the kind before the length, the length before the presence byte. -/
theorem test_decode_refusals : fails 0x60 0 [] .malformed ∧ fails 0x60 1 [] .unknownKind ∧
    fails 0x03 1 [0, 0, 0] .badLength ∧ fails 0x03 1 [0, 0, 0, 0, 0] .badLength ∧
    fails 0x12 1 [9, 1, 0, 0] .badLength ∧ fails 0x01 1 [0] .badLength := by decide

/-- The well-known check value of the CRC with polynomial 0x1021 and initial value 0xFFFF, over "123456789". -/
theorem test_crc : crc16 [0x31, 0x32, 0x33, 0x34, 0x35, 0x36, 0x37, 0x38, 0x39] = 0x29B1#16 := by decide +kernel

/-- Table 12-6: start byte, length 2, kind, tag and the check over the four bytes behind the start byte. -/
theorem test_frame_layout : (frameBytes ⟨0x01, 0x11, []⟩).take 5 = [0xA5, 0x00, 0x02, 0x01, 0x11] ∧
    (frameBytes ⟨0x01, 0x11, []⟩).drop 5 = crcBytes [0x00, 0x02, 0x01, 0x11] := by decide +kernel

/-- Table 12-9: a POLL and an IDLE with contention open. -/
theorem test_packet_layout : (packetBytes (.poll 100)).take 4 = [0x01, 0x00, 0x00, 0x64] ∧
    (packetBytes (.idle true)).take 5 = [0x05, 0xFF, 0xFF, 0xFF, 0x01] ∧ (packetBytes (.poll 100)).length = 6 := by decide +kernel

/-- R196: a port setting is 4 bytes and 2 for each grant. -/
theorem test_port_layout : (portField { on := true, tiers := 0x0009#16, grants := [{ event := 9, slot := 5 }] }).flatMap
    replyFieldBytes = [1, 0x00, 0x09, 1, 9, 5] := by decide

/-- Table 12-8: an OVERFLOW record. -/
theorem test_record_layout : (recordFields { sequence := 42, time := 1, body := .overflow 7 }).flatMap replyFieldBytes =
    [0, 0, 0, 42, 3, 0, 0, 0, 1, 0, 0, 0, 7] := by decide

/-- Table 12-4: a reply's kind is the request's with its most significant bit inverted. -/
theorem test_reply_kind : replyKind 0x46 = 0xC6#8 := by decide

/-- No word of the opcode table spells a command: its rows have no bits. -/
theorem test_no_word : decodeTableWord 8 0x01 = none := rfl

/-! ### A small head end -/

/-- Channel 10 TIERED on slot 1 from source 1, and channel 20 PPV on slot 5 from source 3. -/
def bank : Bank :=
  { version := 3,
    entries := [
      { channel := 10, slot := 1, source := 1, kind := .tiered, tier := some 0, label := [0x41] },
      { channel := 20, slot := 5, source := 3, kind := .ppv, tier := none, label := [] }],
    tariff := { tiers := vecModify (vecModify coldTariff.tiers 0 fun _ => 10417) 3 fun _ => 3125, holdRate := 1000 } }

/-- A port that is on with tiers 0 and 3 and event 9 on slot 5. -/
def onPort : PortSetting := { on := true, tiers := 0x0009#16, grants := [{ event := 9, slot := 5 }] }

def onSetting : TapSetting := #v[onPort, portOff, portOff, portOff]

/-- Tap 100 of node 1, ONLINE and confirmed, with accounts 7 and 8 on ports 1 and 2. -/
def tap100 : TapRec :=
  { newTap 100 1 .event with
    ports := #v[some 7, some 8, none, none], state := .online, last := some .good, version := some 3, stale := false,
    switching := { freshSwitch onSetting with confirmed := some onSetting } }

/-- Tap 200 of node 1, ONLINE, with every port vacant. -/
def tap200 : TapRec :=
  { newTap 200 1 .tiered with
    state := .online, version := some 3, stale := false,
    switching := { freshSwitch settingOff with confirmed := some settingOff } }

/-- ACTIVE with tiers 0 and 3, latched at 13,542, one purchase open (the account of section 8.7.1). -/
def account7 : Account :=
  { newAccount 7 100 1 0x0009#16 .active with
    purchases := [{ event := 9, price := 500, time := 1800000600, origin := .plant, counter := some 4 }],
    balance := 120000, residue := 7, latch := .active 13542 }

/-- CUT with nothing owed. -/
def account8 : Account := { newAccount 8 100 2 0#16 .cut with latch := .cut }

/-- An hour on channel 20 from 1,800,001,800, bought by account 7. -/
def event9 : EventRec := { newEvent 9 20 1800001800 60 10 500 10 with holders := [7] }

/-- A running head end at 1,800,000,875, in the interval of section 1.6, its frames all sent. -/
def home : State :=
  { State.reset with
    clock := { coldClock with state := .set, time := 1800000875, lastBoundary := some 1800000840 },
    lineup := {
      active := bank, staged := bank, effective := 1799999100, scheduled := none, previous := none,
      sourcesInUse := [1, 3] },
    taps := [tap100, tap200],
    transponders := vecModify State.reset.transponders 1 fun _ => { freshTransponder 300 with state := .online },
    sched := { coldScheduler with
      next := [
        { kind := .tap, address := 100, node := 1 }, { kind := .tap, address := 200, node := 1 },
        { kind := .transponder, address := 300, node := 2 }],
      current := [
        { kind := .tap, address := 100, node := 1 }, { kind := .tap, address := 200, node := 1 },
        { kind := .transponder, address := 300, node := 2 }],
      state := .running },
    accounts := [account7, account8],
    nodes := vecModify State.reset.nodes 0 fun r => { r with state := .normal },
    inputs := vecModify State.reset.inputs 2 fun r =>
      { r with high := true, debounced := .present, steady := 3, partialMark := false },
    events := [event9],
    journal := {
      records := [{ sequence := 41, time := 1800000600, body := .purchase 7 9 500 .plant }], reserved := 1,
      nextSequence := 42, high := false },
    link := { State.reset.link with notice := none } }

/-- The head end with tap 100 changed. -/
def withTap (f : TapRec → TapRec) : State := { home with taps := [f tap100, tap200] }

/-- The head end with account 7 changed. -/
def withAccount7 (f : Account → Account) : State := { home with accounts := [f account7, account8] }

/-- The head end with a switchover scheduled for 1,800,000,900. -/
def scheduledHome : State :=
  { home with
    lineup := { home.lineup with scheduled := some 1800000900, staged := { bank with version := 4 } },
    journal := { home.journal with reserved := 2 } }

/-- The head end with node 1 in OUTAGE and the tap 200 that answered no polls. -/
def darkHome : State :=
  { home with
    taps := [{ tap100 with state := .silent, miss := 3 }, { tap200 with state := .silent, miss := 3 }],
    nodes := vecModify home.nodes 0 fun r => { r with state := .outage },
    alarms := alarmsGive 0 0 true home.alarms }

/-- The head end with an alarm source's record changed. -/
def withAlarm (i : Nat) (f : AlarmRec → AlarmRec) : State := { home with alarms := modifyAlarm i f home.alarms }

/-- The state a command leaves. -/
def after (c : Instr) (s : State) : State :=
  match exec c s with
  | .next t => t
  | .fault _ => s
  | .refused _ => s

/-- The waiting reply behind a command. -/
def replyTo (c : Instr) (s : State) : Option Reply := (after c s).link.waiting.map (·.reply)

/-- The Host Link may execute, nothing is queued, and the request has a tag. -/
def idleFor (s : State) (c : Instr) : Bool := mayExecute s && (requestFrame c).tag != 0#8 && s.link.inbound.isEmpty

/-- A request comes to execution in an idle state as it stands. -/
theorem executes_idle {c : Instr} {s : State} (h : idleFor s c = true) : executes c s s := by
  simp only [idleFor, Bool.and_eq_true, List.isEmpty_iff] at h
  simp [executes, claimRequest, h.1.1, h.1.2, h.2]

/-- Requests that come to execution in a state, each with the reply given. -/
def allServe (s : State) (requests : List (Instr × Reply)) : Prop :=
  ∀ x ∈ requests, executes x.1 s s ∧ replyTo x.1 s = some x.2

theorem allServe_of {s : State} {requests : List (Instr × Reply)}
    (h : (requests.all fun x => idleFor s x.1 && replyTo x.1 s == some x.2) = true) : allServe s requests := by
  intro x hx
  have := List.all_eq_true.1 h x hx
  simp only [Bool.and_eq_true, beq_iff_eq] at this
  exact ⟨executes_idle this.1, this.2⟩

/-! ### The head end is sound in every block -/

theorem test_home_lineup : lineupSound home.lineup := by decide +kernel

theorem test_home_blocks : carrierSound home ∧ linkSound home.link ∧ clockSound home := by decide +kernel

theorem test_home_units : directorySound home ∧ bindingsSound home ∧ switchingSound home := by decide +kernel

theorem test_home_accounts : accountsSound home ∧ reservationsSound home ∧ journalSound home.journal := by decide +kernel

theorem test_home_monitor : monitorSound home := by decide +kernel

theorem test_home_alarms : alarmsSound home.alarms ∧ compositesSound home.alarms := by decide +kernel

theorem test_home_conditions : conditionsSound home := by decide +kernel

theorem test_scheduled_reservations : reservationsSound scheduledHome := by decide +kernel

theorem test_dark_conditions : conditionsSound darkHome ∧ switchingSound darkHome := by decide +kernel

theorem test_home_derives : deriveSetting home tap100 = onSetting := by decide +kernel

/-! ### The queue and the Host Link -/

/-- EveryWellFormedCommandCompletes: commands at the edge of what is well formed, and units the part does not have. -/
theorem test_witness_completes : (Instr.sourceLevelChange 64 true).wf = true ∧ (Instr.restoreHoldExpiry 1).wf = true ∧
    ¬(1 ≤ 0 ∧ 0 ≤ 64) ∧ ¬(1 ≤ 65 ∧ 65 ≤ 64) ∧ ¬(1 ≤ 0 ∧ 0 ≤ 32) ∧ ¬(1 ≤ 33 ∧ 33 ≤ 32) := by decide

/-- The head end with its Host Link changed. -/
def withLink (f : Link → Link) : State := changeLink f home

/-- RequestsTakeTheirTurn: a request alone, as the oldest frame, behind another frame, and in a part that does not run. -/
theorem test_witness_requests_take_their_turn :
    isRequest (.status 1) = true ∧ executes (.status 1) home home ∧
      executes (.status 1) (withLink fun l => { l with inbound := [requestFrame (.status 1)] })
        (withLink fun l => { l with inbound := [] }) ∧
      claimRequest (requestFrame (.status 1)) (withLink fun l => { l with inbound := [requestFrame (.status 2)] }) = none ∧
      ({ home with phase := .comingUp } : State).phase ≠ .running :=
  ⟨by decide, executes_idle (by decide +kernel), rfl, rfl, by decide⟩

/-- Section 12.5, steps 1 and 2: the request is executed at once, and the next one queues behind its reply. -/
theorem test_pipelined_host :
    replyTo (.accountHold 11 7) home = some (replyOk [.uint 1 1]) ∧
      (after (.status 12) (withLink fun l => { l with waiting := some ⟨0xA2, 11, replyOk []⟩ })).link.inbound =
        [requestFrame (.status 12)] := by decide +kernel

/-- A small frame with its right check, and four frames waiting. -/
def frame16 : Frame := ⟨0x01, 16, []⟩

def fullLink (busy : List TaggedReply) : State := withLink fun l => { l with inbound := List.replicate 4 frame16, busy := busy }

def busyReply : TaggedReply := ⟨0x81, 16, refusal .busy⟩

/-- ArrivalsAndDrops, section 12.5 steps 3 and 4: BUSY with the queue full, the link-error flag with both full or with a
bad check. -/
theorem test_witness_arrivals :
    home.phase = .running ∧ (after (.frameArrival frame16 (crc16 (frameBody frame16))) (fullLink [])).link.busy = [busyReply] ∧
      (after (.frameArrival frame16 (crc16 (frameBody frame16)))
        (fullLink (List.replicate 4 busyReply))).link.linkError = true ∧
      (after (.frameArrival frame16 (crc16 (frameBody frame16) + 1)) home).link.linkError = true ∧
      (after (.frameArrival frame16 (crc16 (frameBody frame16))) home).link.inbound = [frame16] := by decide +kernel

/-- A receiver that has the bytes given behind the start byte. -/
def receiving (bs : List Byte) : State := withLink fun l => { l with receiver := .receiving bs }

/-- ArrivalsAndDrops: the receiver in each of its states, with the lengths 2, 1026, 1 and 1027. -/
theorem test_witness_receiver :
    home.link.receiver = .hunting ∧ (receiving [0x04]).link.receiver = .receiving [0x04] ∧
      (after (.hostLinkByteReceived 0xA5) home).link.receiver = .receiving [] ∧
      (after (.hostLinkByteReceived 0x02) (receiving [0x00])).link.receiver = .receiving [0x00, 0x02] ∧
      (after (.hostLinkByteReceived 0x02) (receiving [0x04])).link.receiver = .receiving [0x04, 0x02] ∧
      (after (.hostLinkByteReceived 0x01) (receiving [0x00])).link.linkError = true ∧
      (after (.hostLinkByteReceived 0x03) (receiving [0x04])).link.linkError = true ∧
      (after .receiveGapTimeout (receiving [0x04])).link.receiver = .hunting := by decide +kernel

/-- ReceivedBytesMakeTheirFrame: an empty payload and the longest, in a running part that hunts. -/
theorem test_witness_received_bytes : home.phase = .running ∧ home.link.receiver = .hunting ∧
    frame16.payload.length ≤ 1024 ∧ (List.replicate 1024 (0#8)).length ≤ 1024 := by decide +kernel

/-- The head end with one frame waiting. -/
def holding (f : Frame) : State := withLink fun l => { l with inbound := [f] }

/-- RefusedFrames: a frame for each check, and one that passes. -/
theorem test_witness_refused_frames :
    replyTo .frameRefused (holding ⟨0x60, 0, []⟩) = some (refusal .malformed) ∧
      requestForms (0x60#8).toNat = none ∧ replyTo .frameRefused (holding ⟨0x60, 1, []⟩) = some (refusal .unknownKind) ∧
      requestForms (0x03#8).toNat = some [.uint 4] ∧ readFields [.uint 4] [0, 0, 0] = none ∧
      replyTo .frameRefused (holding ⟨0x03, 1, [0, 0, 0]⟩) = some (refusal .badLength) ∧
      readFields [.uint 4] [0, 0, 0, 9] = some ([.nat 9], false) ∧
      replyTo .frameRefused (holding ⟨0x03, 1, [0, 0, 0, 9]⟩) = none := by decide +kernel

/-- RefusedFrames: a presence byte of 2 is read as bad whether or not it counts its value as present (log entry 7). -/
theorem test_witness_bad_presence :
    requestForms (0x12#8).toNat = some [.uint 1, .optional 3] ∧
      ∃ payload values, readFields [.uint 1, .optional 3] payload = some (values, true) := by
  refine ⟨rfl, ?_⟩
  cases h : Config.badPresenceHasValue 2#8
  · exact ⟨[9, 2], [.nat 9, .option none], by simp [readFields, readField, splitBytes, uintOf, h]⟩
  · exact ⟨[9, 2, 0, 0, 0], [.nat 9, .option none], by simp [readFields, readField, splitBytes, uintOf, h]⟩

/-- FreeLineChoosesInOrder: section 12.5 steps 5, 6 and 9, and the RESTARTED report and the idle line. -/
theorem test_witness_free_line :
    let r : TaggedReply := ⟨0x81, 12, replyOk []⟩
    let line (s : State) : Option OutFrame := (after .outboundFrameDone s).link.line.map (·.frame)
    (home.link.restartOwed && restartReplyOnLine home.link) = false ∧
      line (withLink fun l => { l with waiting := some r, busy := [busyReply], busyAhead := 0 }) = some (.reply r) ∧
      line (withLink fun l => { l with waiting := some r, busy := [busyReply], busyAhead := 1 }) = some (.reply busyReply) ∧
      line (withLink fun l => { l with busy := [busyReply] }) = some (.reply busyReply) ∧
      line (withLink fun l => { l with notice := some ⟨.pin, .unset, none, none⟩ }) =
        some (.restarted ⟨.pin, .unset, none, none⟩) ∧
      line { home with alarms := { home.alarms with queue := [.cleared 3 9] } } = some (.alarm (.cleared 3 9)) ∧
      line home = none := by decide +kernel

/-- StatusAndRestart: the flag is shown set (0) and cleared; RESTART makes restart owed. -/
theorem test_witness_status_restart :
    let s := withLink fun l => { l with linkError := true }
    executes (.status 1) s s ∧ executes (.restart 1) home home ∧
      (after (.status 1) s).link.linkError = false ∧
      (replyTo (.status 1) s).map (fun r => (replyPayload r).length) = some 53 ∧
      (after (.restart 1) home).link.restartOwed = true :=
  ⟨executes_idle (by decide +kernel), executes_idle (by decide +kernel), by decide +kernel⟩

/-! ### The clock (section 1.6) -/

/-- SettingAndTrimmingTheTime: SET_TIME 1,800,000,870 after a cold reset, and while SET. -/
theorem test_witness_set_time :
    allServe State.reset [(.setTime 1 1800000870, replyOk []), (.setTime 1 4294967295, replyOk [])] ∧
      allServe home [(.setTime 1 4294967295, refusal .wrongState)] ∧ State.reset.clock.state = .unset ∧
      (after (.setTime 1 1800000870) State.reset).clock.time = 1800000870 ∧
      (after (.setTime 1 1800000870) State.reset).clock.lastBoundary = some 1800000840 :=
  ⟨allServe_of (by decide +kernel), allServe_of (by decide +kernel), by decide +kernel⟩

/-- The head end at another time. -/
def atTime (time last : Nat) : State := { home with clock := { home.clock with time := time, lastBoundary := some last } }

/-- SettingAndTrimmingTheTime: the trims of section 1.6. -/
theorem test_witness_time_trim :
    allServe (atTime 1800000875 1800000840) [(.timeTrim 1 50, replyOk [.sint 4 24])] ∧
      allServe (atTime 1800000910 1800000900) [(.timeTrim 1 (-30), replyOk [.sint 4 (-10)])] ∧
      allServe (atTime 4294967290 4294967280) [(.timeTrim 1 60, replyOk [.sint 4 5])] ∧
      allServe State.reset [(.timeTrim 1 5, refusal .wrongState)] ∧
      (after (.timeTrim 1 20) (atTime 1800000950 1800000900)).due.eventEnds = [{ time := 1800000960, marked := false }] ∧
      (after (.timeTrim 1 (-30)) (atTime 1800000975 1800000960)).clock.time = 1800000945 ∧
      home.clock.state = .set ∧ home.clock.time ≤ 4294967295 :=
  ⟨allServe_of (by decide +kernel), allServe_of (by decide +kernel), allServe_of (by decide +kernel),
    allServe_of (by decide +kernel), by decide +kernel⟩

/-- SecondTickCounts: the marked minute end at 1,800,000,900, the boundary 1,800,000,960 reached a second time, and a part
that does not run. -/
theorem test_witness_second_tick :
    (after .secondTick (atTime 1800000899 1800000840)).due.monitorEnds = [{ time := 1800000900, marked := true }] ∧
      (after .secondTick (atTime 1800000899 1800000840)).due.boundaries = [1800000900] ∧
      (after .secondTick (atTime 1800000959 1800000960)).due.eventEnds = [] ∧
      (after .secondTick (atTime 4294967295 4294967280)).clock.time = 4294967295 ∧ home.phase = .running ∧
      (after .secondTick { home with phase := .mainLost }).clock.time = 1800000876 ∧
      (after .secondTick { home with phase := .mainLost, storeValid := false }).clock.time = 1800000875 := by decide +kernel

/-! ### Power and resets -/

/-- ColdResetValues: main power returns to a store marked invalid. -/
theorem test_witness_cold_reset :
    let s := { home with phase := .mainLost, storeValid := false }
    s.phase = .mainLost ∧ s.storeValid = false ∧ (after .mainPowerReturn s).clock.state = .unset ∧
      (after .mainPowerReturn s).taps = [] := by decide +kernel

/-- The head end with the RESTART reply on the line and restart owed. -/
def restarting : State :=
  withLink fun l => { l with restartOwed := true, line := some (onLine (.reply ⟨0x82, 1, replyOk []⟩)) }

/-- RetainedResetKeepsTheStore: its three causes. -/
theorem test_witness_retained_reset :
    home.phase ≠ .mainLost ∧ (after .resetPin home).lastReset = .pin ∧
      (after .resetPin home).clock.resetTime = some 1800000875 ∧
      (after .mainPowerReturn { home with phase := .mainLost }).lastReset = .power ∧ home.storeValid = true ∧
      restarting.link.restartOwed = true ∧ restartReplyOnLine restarting.link = true ∧
      (after .outboundFrameDone restarting).lastReset = .restart ∧
      (after .resetPin scheduledHome).journal.reserved = 1 ∧
      (after .resetPin home).commandQueue = [100] := by decide +kernel

/-- LossOfMainPowerAndOfBackup: main power lost while running, while coming up and behind a backup voltage already low, which
main power returns from cold; the backup supply low with main power absent, present, and a second time. -/
theorem test_witness_main_power_loss :
    let low := after .backupBelowRetention home
    let lost := after .mainPowerLoss low
    low = { home with backupLow := true } ∧ home.backupLow = false ∧ lost.storeValid = false ∧
      lost.phase = .mainLost ∧ (after .mainPowerReturn lost).lastReset = .cold ∧
      (after .backupBelowRetention lost).phase = .mainLost ∧ (after .mainPowerLoss lost).storeValid = false ∧
      clockSound low ∧
      (after .mainPowerLoss home).clock.resetTime = some 1800000875 ∧ (after .mainPowerLoss home).storeValid = true ∧
      (after .mainPowerLoss { home with phase := .comingUp }).clock.resetTime = none ∧
      (after .backupBelowRetention { home with phase := .mainLost }).storeValid = false ∧
      (after .backupBelowRetention home).storeValid = true ∧ (after .mainPowerReturn home).phase = .running := by
  decide +kernel

/-- The account of section 8.7.3 at its restart. -/
def restarted : State :=
  { home with
    phase := .comingUp,
    clock := { home.clock with time := 1800043517, resetTime := some 1800041130 } }

/-- ComingUpAndTheGapRecord: the restart of section 8.7.3, and its GAP record with and without a free slot. -/
theorem test_witness_gap_record :
    let s := { restarted with
      phase := .running, clock := { restarted.clock with restartTime := some 1800043517 },
      due := { restarted.due with gapRecord := true } }
    restarted.phase = .comingUp ∧ s.due.gapRecord = true ∧
      (after .gapRecord s).journal.records.map (·.body) =
        [.purchase 7 9 500 .plant, .gap 1800041130 1800043517] ∧
      (after .gapRecord { s with journal := { s.journal with reserved := 1023 } }).journal.records.length = 1 := by
  decide +kernel

/-! ### Channel line-up -/

/-- LineupPut: each check at the edge of its range, an insertion and a replacement. -/
theorem test_witness_lineup_put :
    allServe scheduledHome [(.lineupPut 1 999 150 64 0 (some 15) [], refusal .scheduled)] ∧
      allServe home [
        (.lineupPut 1 999 150 64 0 (some 15) (List.replicate 8 126), replyOk [.uint 2 3]),
        (.lineupPut 1 20 5 64 0 (some 0) [32], replyOk [.uint 2 2]),
        (.lineupPut 1 1000 1 1 1 none [], refusal .outOfRange), (.lineupPut 1 0 1 1 1 none [], refusal .outOfRange),
        (.lineupPut 1 1 151 1 1 none [], refusal .outOfRange), (.lineupPut 1 1 1 65 1 none [], refusal .outOfRange),
        (.lineupPut 1 1 2 1 0 (some 16) [], refusal .outOfRange), (.lineupPut 1 1 2 1 0 none [], refusal .outOfRange),
        (.lineupPut 1 1 2 1 1 (some 0) [], refusal .outOfRange), (.lineupPut 1 1 2 1 2 none [], refusal .outOfRange),
        (.lineupPut 1 1 2 1 1 none (List.replicate 9 65), refusal .outOfRange),
        (.lineupPut 1 1 2 1 1 none [127], refusal .outOfRange), (.lineupPut 1 30 5 1 1 none [], refusal .conflict)] ∧
      rising (home.lineup.staged.entries.map (·.channel)) :=
  ⟨allServe_of (by decide +kernel), allServe_of (by decide +kernel), by decide +kernel⟩

/-- The head end with the entries of STAGED given. -/
def withStaged (entries : List LineupEntry) : State := setStagedEntries entries home

/-- LineupPut: STAGED with 160 entries. -/
theorem test_witness_lineup_full :
    allServe (withStaged (List.replicate 160 ⟨10, 1, 1, .ppv, none, []⟩))
      [(.lineupPut 1 999 2 1 1 none [], refusal .tableFull), (.lineupPut 1 10 2 1 1 none [], replyOk [.uint 2 160])] :=
  allServe_of (by decide +kernel)

/-- LineupDropAndTierRateSet. -/
theorem test_witness_lineup_drop :
    allServe scheduledHome [(.lineupDrop 1 20, refusal .scheduled), (.tierRateSet 1 0 5, refusal .scheduled)] ∧
      allServe home [
        (.lineupDrop 1 20, replyOk [.uint 2 1]), (.lineupDrop 1 1000, refusal .outOfRange),
        (.lineupDrop 1 30, refusal .notFound), (.tierRateSet 1 15 1000000, replyOk [.uint 1 15, .uint 4 1000000]),
        (.tierRateSet 1 16 0, replyOk [.uint 1 16, .uint 4 0]), (.tierRateSet 1 17 0, refusal .outOfRange),
        (.tierRateSet 1 0 1000001, refusal .outOfRange)] ∧
      bankSound bank :=
  ⟨allServe_of (by decide +kernel), allServe_of (by decide +kernel), by decide +kernel⟩

/-- SwitchoverSchedule: each check, and the last boundary that can be named. -/
theorem test_witness_switchover_schedule :
    allServe State.reset [(.switchoverSchedule 1 1800000900, refusal .timeUnset)] ∧
      allServe scheduledHome [(.switchoverSchedule 1 1800000900, refusal .scheduled)] ∧
      allServe home [
        (.switchoverSchedule 1 1800000900, replyOk [.uint 4 1800000900, .uint 1 4]),
        (.switchoverSchedule 1 4294966500, replyOk [.uint 4 4294966500, .uint 1 4]),
        (.switchoverSchedule 1 1800000960, refusal .outOfRange), (.switchoverSchedule 1 1800000000, refusal .outOfRange)] ∧
      allServe (withStaged []) [(.switchoverSchedule 1 1800000900, { status := .conflict, fields := [.uint 1 9] })] ∧
      allServe { home with journal := { home.journal with reserved := 1023 } }
        [(.switchoverSchedule 1 1800000900, refusal .journalFull)] ∧
      rising (home.events.map (·.id)) :=
  ⟨allServe_of (by decide +kernel), allServe_of (by decide +kernel), allServe_of (by decide +kernel),
    allServe_of (by decide +kernel), allServe_of (by decide +kernel), by decide +kernel⟩

/-- The head end with its scheduled boundary delivered. -/
def boundaryHome : State := { scheduledHome with due := { scheduledHome.due with boundaries := [1800000900] } }

/-- SwitchoverCancel: without a schedule, with one, and behind the switchover. -/
theorem test_witness_switchover_cancel :
    allServe home [(.switchoverCancel 1, refusal .wrongState)] ∧
      allServe scheduledHome [(.switchoverCancel 1, replyOk [])] ∧
      (after (.switchoverCancel 1) scheduledHome).journal.reserved = 1 ∧
      boundaryHome.lineup.scheduled = some 1800000900 ∧ boundaryHome.phase = .running ∧
      exec .switchoverTake boundaryHome = .next (after .switchoverTake boundaryHome) ∧
      allServe (after .switchoverTake boundaryHome) [(.switchoverCancel 1, refusal .wrongState)] :=
  ⟨allServe_of (by decide +kernel), allServe_of (by decide +kernel), by decide +kernel, rfl, rfl, rfl,
    allServe_of (by decide +kernel)⟩

/-- SwitchoverTake: the scheduled boundary, which leaves tap 100 stale and off its grant (R99, R101), and another one. -/
theorem test_witness_switchover_take :
    let t := after .switchoverTake boundaryHome
    1 ≤ boundaryHome.journal.reserved ∧ rising (boundaryHome.taps.map (·.address)) ∧ t.lineup.active.version = 4 ∧
      t.lineup.effective = 1800000900 ∧ t.journal.records.map (·.body) = [.purchase 7 9 500 .plant, .switchover 4] ∧
      t.journal.reserved = 1 ∧ t.taps.map (·.stale) = [true, true] ∧ t.commandQueue = [100] ∧
      (after .switchoverTake { home with due := { home.due with boundaries := [1800000900] } }).lineup = home.lineup := by
  decide +kernel

/-- SwitchoverTake: a queued tap whose setting agrees leaves the command queue, and the taps that lose their grants join it
in ascending order of address; channel 20 on another slot names event 9 (R24, R101). -/
theorem test_switchover_queue :
    let s := { boundaryHome with
      taps := [tap100, { tap100 with address := 150, version := some 4 }, tap200], commandQueue := [200],
      lineup := { boundaryHome.lineup with
        staged := { boundaryHome.lineup.staged with
          entries := bank.entries.map fun e => { e with slot := e.slot + 1 } } } }
    movedEvents bank s.lineup.staged s.events = [9] ∧ movedEvents bank { bank with entries := [] } s.events = [9] ∧
      movedEvents bank { bank with version := 4 } s.events = [] ∧
      (after .switchoverTake s).commandQueue = [100, 150] := by decide +kernel

/-- TariffDoesNotDependOnTheTaking: each of the four cases. -/
theorem test_witness_tariff :
    let l := { scheduledHome.lineup with previous := some { tariff := coldTariff, endTime := 1799999100 } }
    (∃ b ∈ l.scheduled, b ≤ 1800000900) ∧ (∀ b ∈ l.scheduled, 1799999100 < b) ∧ l.effective ≤ 1799999100 ∧
      1799998200 < l.effective ∧ tariffFor 1799998200 l = coldTariff ∧ tariffFor 1799999100 l = bank.tariff ∧
      exec .switchoverTake boundaryHome = .next (after .switchoverTake boundaryHome) := by
  refine ⟨⟨_, rfl, by decide⟩, ?_, by decide, by decide, by decide +kernel, by decide +kernel, rfl⟩
  rintro b ⟨⟩; decide

/-! ### Slots and reply windows -/

/-- The head end between two slots, the last one with the index given. -/
def afterSlot (i : Option Nat) : State := { home with carrier := { home.carrier with slotIndex := i } }

/-- CarouselAndContentionSlots: slots 0, 8 and 15, and a reply still expected. -/
theorem test_witness_fixed_slots :
    let open_ (s : State) : Option Nat × Nat × List Byte :=
      ((after .slotOpen s).carrier.slotIndex, (after .slotOpen s).carrier.cursor,
        (after .slotOpen s).carrier.modulator.take 12)
    home.phase = .running ∧ home.carrier.expectation = none ∧
      open_ (afterSlot none) = (some 0, 1, [0x03, 0xFF, 0xFF, 0xFF, 3, 0, 0, 2, 0x6B, 0x49, 0xCE, 0x7C]) ∧
      open_ { afterSlot (some 7) with carrier := { (afterSlot (some 7)).carrier with cursor := 1 } } =
        (some 8, 0, [0x03, 0xFF, 0xFF, 0xFF, 3, 1, 2, 0, 10, 1, 0, 0]) ∧
      (after .slotOpen (afterSlot (some 14))).carrier.expectation =
        some { owner := .eventTable, address := none, kind := .purchase } ∧
      (after .slotOpen (afterSlot (some 15))).carrier.slotIndex = some 0 ∧
      (after .slotOpen (after .slotOpen (afterSlot (some 14)))).carrier.slotIndex = some 15 := by decide +kernel

/-- WorkingSlotChoosesByCase: an answer, a TAP_SET before and after four of them, a POLL, and IDLE. -/
theorem test_witness_working_slots :
    let type (s : State) : List Byte := (after .slotOpen s).carrier.modulator.take 4
    let queued (sets : Nat) : State := { home with
      commandQueue := [100], carrier := { home.carrier with slotIndex := some 0, frameTapSets := sets } }
    let answering : State := { home with carrier := { home.carrier with
      slotIndex := some 13, answers := [{ address := 100, port := 1, event := 9, verdict := .accepted }] } }
    let quiet : State := { afterSlot (some 8) with sched := coldScheduler }
    type answering = [0x04, 0, 0, 100] ∧ type (queued 3) = [0x02, 0, 0, 100] ∧ type (queued 4) = [0x01, 0, 0, 100] ∧
      type (afterSlot (some 6)) = [0x01, 0, 0, 100] ∧ type quiet = [0x05, 0xFF, 0xFF, 0xFF] ∧
      (after .slotOpen (queued 3)).carrier.frameTapSets = 4 ∧
      (after .slotOpen (queued 4)).carrier.expectation =
        some { owner := .pollScheduler, address := some 100, kind := .tapStatus } ∧
      switchingOffer (queued 3) = some tap100 ∧ (pollOffer (queued 3)).2.isSome = true ∧
      switchingOffer { darkHome with commandQueue := [100] } = none := by decide +kernel

/-- A PURCHASE of event 9 at tap 100, port 1, its bytes by Table 12-9. -/
def purchaseBytes : List Byte := [0x14, 0, 0, 100, 1, 9, 4] ++ crcBytes [0x14, 0, 0, 100, 1, 9, 4]

def plantPurchase : PlantPurchase := { address := 100, port := 1, event := 9, counter := 4 }

/-- The head end with a PURCHASE expected and places in use. -/
def contending (reserved : Nat) : State :=
  { home with carrier := { home.carrier with
    reserved := reserved, expectation := some { owner := .eventTable, address := none, kind := .purchase } } }

/-- ReplyWindowsAndContention: a PURCHASE with and without a free place, noise, silence, and no expectation. -/
theorem test_witness_contention :
    classify { owner := .eventTable, address := none, kind := .purchase } true (some purchaseBytes) =
        .good (.purchase plantPurchase) ∧
      (after (.replyWindowClose true (some purchaseBytes)) (contending 7)).due.purchases = [plantPurchase] ∧
      (after (.replyWindowClose true (some purchaseBytes)) (contending 8)).due.purchases = [] ∧
      classify { owner := .eventTable, address := none, kind := .purchase } true none = .garbled ∧
      classify { owner := .eventTable, address := some 100, kind := .ack } true (some purchaseBytes) = .garbled ∧
      (after (.replyWindowClose true (some purchaseBytes)) home).due.purchases = [] ∧
      home.carrier.expectation = none := by decide +kernel

/-- UpstreamMessagesAreReadExactly: an ACK's bytes, and a transponder's level of -20.0 dBmV and one below it. -/
theorem test_upstream_messages :
    (upBytes (.ack 100 7 settingOff)).take 21 =
        [0x13, 0, 0, 100, 7, 0, 0, 0, 0, 0, 0, 0, 0, 0, 0, 0, 0, 0, 0, 0, 0] ∧
      readUpMessage ([0x12, 0, 1, 44, 3, 0xE7, 0xFF, 0x38] ++ crcBytes [0x12, 0, 1, 44, 3, 0xE7, 0xFF, 0x38]) =
        some (.transponderStatus 300 { voltage := 999, level := -200 }) ∧
      readUpMessage ([0x12, 0, 1, 44, 3, 0xE7, 0xFF, 0x37] ++ crcBytes [0x12, 0, 1, 44, 3, 0xE7, 0xFF, 0x37]) = none := by
  decide +kernel

/-- The head end with a TAP_SET of serial 5 to tap 100 on its way. -/
def delivering (attempts : Nat) (queue : List Nat) : State :=
  { withTap (fun t => { t with switching := { t.switching with
      serial := 5, inFlight := true, sent := some onSetting, attempts := attempts, confirmed := none } }) with
    commandQueue := queue,
    carrier := { home.carrier with
      expectation := some { owner := .switchingEngine, address := some 100, kind := .ack } } }

/-- DeliveryIsJudged: the ACK of the serial, of another serial, and no answer, off the queue, before the fourth attempt and
at it. -/
theorem test_witness_delivery :
    let faulted (s : State) : List (Bool × Nat × Bool) := s.taps.map fun t =>
      (t.switching.confirmed.isSome, t.switching.attempts, t.switching.fault)
    let ack (serial : Nat) : Instr := .replyWindowClose true (some (upBytes (.ack 100 serial onSetting)))
    let s := delivering 3 [100]
    s.phase = .running ∧ findTap 100 s.taps = s.taps.head? ∧ rising (s.taps.map (·.address)) ∧
      faulted (after (ack 5) s) = [(true, 0, false), (true, 0, false)] ∧ (after (ack 5) s).commandQueue = [] ∧
      faulted (after (ack 6) s) = [(false, 4, true), (true, 0, false)] ∧ (after (ack 6) s).commandQueue = [] ∧
      (alarmOf (after (ack 6) s).alarms (switchFaultSource 1)).condition = true ∧
      faulted (after (.replyWindowClose false none) (delivering 2 [100, 200])) = [(false, 3, false), (true, 0, false)] ∧
      (after (.replyWindowClose false none) (delivering 2 [100, 200])).commandQueue = [200, 100] ∧
      (after (.replyWindowClose false none) (delivering 2 [])).commandQueue = [] := by decide +kernel

/-! ### Tap Directory and polling -/

/-- TapAddAndRemove: each check of both requests, at the edges of the ranges. -/
theorem test_witness_tap_add :
    allServe home [
      (.tapAdd 1 16777214 32 2, replyOk []), (.tapAdd 1 1 1 0, replyOk []), (.tapAdd 1 0 1 0, refusal .outOfRange),
      (.tapAdd 1 16777215 1 0, refusal .outOfRange), (.tapAdd 1 1 0 0, refusal .outOfRange),
      (.tapAdd 1 1 33 0, refusal .outOfRange), (.tapAdd 1 1 1 3, refusal .outOfRange),
      (.tapAdd 1 100 1 0, refusal .existing), (.tapAdd 1 300 1 0, refusal .existing)] ∧
    allServe { home with taps := (List.range 512).map fun k => newTap (k + 1000) 1 .onoff }
      [(.tapAdd 1 999 1 0, refusal .tableFull)] ∧
    rising (home.taps.map (·.address)) ∧ (∀ t ∈ home.taps, t.address ≠ 16777214) :=
  ⟨allServe_of (by decide +kernel), allServe_of (by decide +kernel), by decide +kernel⟩

theorem test_witness_tap_remove :
    allServe home [
      (.tapRemove 1 200, replyOk []), (.tapRemove 1 100, refusal .wrongState), (.tapRemove 1 0, refusal .outOfRange),
      (.tapRemove 1 16777215, refusal .outOfRange), (.tapRemove 1 300, refusal .notFound)] ∧
    allServe { home with taps := [{ tap200 with state := .removing }] } [(.tapRemove 1 200, refusal .wrongState)] ∧
    (after (.tapRemove 1 200) home).sched.next.map (·.address) = [100, 300] ∧
    (after (.tapRemove 1 200) home).taps.map (·.state) = [.online, .removing] :=
  ⟨allServe_of (by decide +kernel), allServe_of (by decide +kernel), by decide +kernel⟩

/-- TransponderSet: the two checks and the seven rows. -/
theorem test_witness_transponder_set :
    allServe home [
      (.transponderSet 1 0 none, refusal .outOfRange), (.transponderSet 1 33 none, refusal .outOfRange),
      (.transponderSet 1 1 (some 16777215), refusal .outOfRange), (.transponderSet 1 1 (some 0), refusal .outOfRange),
      (.transponderSet 1 1 (some 100), refusal .existing), (.transponderSet 1 1 (some 300), refusal .existing),
      (.transponderSet 1 32 (some 16777214), replyOk []), (.transponderSet 1 1 none, replyOk []),
      (.transponderSet 1 2 (some 300), replyOk []), (.transponderSet 1 2 none, replyOk []),
      (.transponderSet 1 2 (some 301), refusal .wrongState)] ∧
    allServe (modifyTransponder 2 (fun r => { r with state := .removing }) home)
      [(.transponderSet 1 2 (some 300), refusal .wrongState), (.transponderSet 1 2 none, replyOk [])] ∧
    (after (.transponderSet 1 2 none) home).sched.next.map (·.address) = [100, 200] :=
  ⟨allServe_of (by decide +kernel), allServe_of (by decide +kernel), by decide +kernel⟩

/-- PollStart and PollOrderAndSuspend: the three scheduler states, and a poll in flight. -/
theorem test_witness_poll_requests :
    let polling : State := takePoll { entry := { kind := .tap, address := 100, node := 1 }, probe := false } home
    allServe home [
      (.pollStart 1, refusal .wrongState), (.pollSuspend 1, replyOk [.uint 1 0]), (.pollOrder 1 0, replyOk []),
      (.pollOrder 1 1, replyOk []), (.pollOrder 1 2, refusal .outOfRange)] ∧
    allServe polling [(.pollSuspend 1, replyOk [.uint 1 2])] ∧
    allServe (setSchedState .suspending home) [(.pollStart 1, replyOk []), (.pollSuspend 1, refusal .wrongState)] ∧
    allServe (setSchedState .stopped home) [(.pollStart 1, replyOk []), (.pollSuspend 1, refusal .wrongState)] :=
  ⟨allServe_of (by decide +kernel), allServe_of (by decide +kernel), allServe_of (by decide +kernel),
    allServe_of (by decide +kernel)⟩

/-- PassOrdersVisitEachPositionOnce: the example of R57, and the most positions. -/
theorem test_spread_order : (List.range 8).map (visitPosition .spread 6) = [0, 4, 2, 6, 1, 5, 3, 7] ∧
    visitCount .spread 6 = 8 ∧ visitCount .spread 0 = 1 ∧ visitCount .spread 544 = 1024 ∧ 544 ≤ 544 := by decide +kernel

/-- PollOffersAndPassEnds: a stopped scheduler, an offer, a pass end, and both lists empty. -/
theorem test_witness_offers :
    let ended : State := setCursor 3 (modifyTransponder 2 (fun r => { r with state := .removing }) home)
    let empty : State := { home with sched := { coldScheduler with state := .running } }
    (setSchedState .stopped home).sched.state ≠ .running ∧ home.sched.state = .running ∧
      (visitOffer home 0).map (·.entry.address) = some 100 ∧ (pollOffer home).2.map (·.entry.address) = some 100 ∧
      (∀ k ∈ List.range 3, ended.sched.cursor ≤ k → visitOffer ended k = none) ∧ ended.sched.current ≠ [] ∧
      (pollOffer ended).1.sched.passCount = 1 ∧ (transponderOf (pollOffer ended).1 2).address = none ∧
      (pollOffer ended).2.map (·.entry.address) = some 100 ∧ empty.sched.current = [] ∧ empty.sched.next = [] ∧
      (pollOffer empty).1.sched.passCount = 0 := by decide +kernel

/-- PollOffersAndPassEnds: a probe, a visit of a node whose probe mark is set, a tap in REMOVING, an address without a record,
and a visit of a SPREAD pass that names a position above the list (R57, R58, R60). -/
theorem test_visit_offers :
    let marked : State := { darkHome with sched := { darkHome.sched with probeMarks := Vector.replicate 32 true } }
    let removing := withTap fun t => { t with state := .removing }
    let spread : State := { home with sched := { home.sched with orderInForce := .spread } }
    (visitOffer darkHome 0).map (·.probe) = some true ∧ visitOffer marked 0 = none ∧
      (visitOffer marked 2).map (·.probe) = some false ∧ visitOffer removing 0 = none ∧
      visitOffer { home with taps := [] } 1 = none ∧ visitPosition .spread 3 3 = 3 ∧ visitOffer spread 3 = none ∧
      (visitOffer spread 1).map (·.entry.address) = some 300 ∧ visitOffer home 3 = none := by decide +kernel

/-- The head end with a POLL to a unit on its way. -/
def polling (address node : Nat) (kind : UnitKind) (s : State) : State :=
  { takePoll { entry := { kind := kind, address := address, node := node }, probe := (nodeOf s node).state = .outage } s with
    carrier := { s.carrier with
      expectation := some {
        owner := .pollScheduler, address := some address,
        kind := match kind with
          | .tap => .tapStatus
          | .transponder => .transponderStatus } } }

def status100 : TapStatus := { address := 100, ports := onSetting, version := 3, serial := 0, level := -200 }

/-- PollRepliesLandOnTaps: GOOD, GARBLED and NONE below and at the miss limit, and a tap in REMOVING. -/
theorem test_witness_tap_replies :
    let close (energy : Bool) (m : Option (List Byte)) (s : State) : List (UnitState × Nat) :=
      (after (.replyWindowClose energy m) s).taps.map fun t => (t.state, t.miss)
    let s := polling 100 1 .tap (withTap fun t => { t with miss := 1, state := .missing })
    let gone := polling 200 1 .tap { home with taps := [tap100, { tap200 with state := .removing }] }
    s.phase = .running ∧ findTap 100 s.taps = s.taps.head? ∧
      classify { owner := .pollScheduler, address := some 100, kind := .tapStatus } true
        (some (upBytes (.tapStatus status100))) = .good (.tapStatus status100) ∧
      close true (some (upBytes (.tapStatus status100))) s = [(.online, 0), (.online, 0)] ∧
      close true none s = [(.online, 0), (.online, 0)] ∧ close false none s = [(.missing, 2), (.online, 0)] ∧
      close false none (polling 100 1 .tap (withTap fun t => { t with miss := 2, state := .missing })) =
        [(.silent, 3), (.online, 0)] ∧
      close true none gone = [(.online, 0), (.removing, 0)] := by decide +kernel

/-- PollRepliesLandOnTaps: a probe of a node in OUTAGE answered, which releases the other silent tap (R113). -/
theorem test_probe_answer :
    let t := after (.replyWindowClose true (some (upBytes (.tapStatus status100)))) (polling 100 1 .tap darkHome)
    t.taps.map (·.state) = [.online, .unknown] ∧ (nodeOf t 1).state = .restoring ∧
      (nodeOf t 1).restoreTimer = some 120 ∧ t.sched.inFlight = none := by decide +kernel

/-- PollRepliesLandOnTransponders: a reading below the power threshold, and no answer. -/
theorem test_witness_transponder_replies :
    let s := polling 300 2 .transponder home
    let m := upBytes (.transponderStatus 300 { voltage := 499, level := 0 })
    let t := after (.replyWindowClose true (some m)) s
    s.phase = .running ∧ findTap 300 s.taps = none ∧ transponderNode 300 s = some 2 ∧
      (nodeOf t 2).power = true ∧ (alarmOf t.alarms (nodePowerSource 2)).condition = true ∧
      (nodeOf t 2).levelStep = false ∧
      (transponderOf (after (.replyWindowClose false none) s) 2).state = .missing ∧
      (transponderOf (after (.replyWindowClose true none) s) 2).last = some .garbled := by decide +kernel

/-! ### Accounts and switching -/

/-- SettingsAreDerivedAndQueued: the four cases of Table 6-3, and a tap in REMOVING. -/
theorem test_witness_recompute :
    let unconfirmed := withTap fun t => { t with switching := { t.switching with confirmed := none } }
    let queue (s : State) : List Nat := (recompute 100 s).commandQueue
    rising (home.taps.map (·.address)) ∧ findTap 100 home.taps = some tap100 ∧
      confirms tap100.switching.confirmed (deriveSetting home tap100) = true ∧
      queue home = [] ∧ queue unconfirmed = [100] ∧ queue { home with commandQueue := [100, 200] } = [200] ∧
      queue { unconfirmed with commandQueue := [100, 200] } = [100, 200] ∧
      queue (withTap fun t => { t with
        state := .removing, switching := { t.switching with confirmed := none } }) = [] := by decide +kernel

/-- SettingsAreDerivedAndQueued: one port of each model, of a stale tap, and of an account in HOLD (Table 6-1). -/
theorem test_port_settings :
    let setting (model : TapModel) (stale : Bool) (s : State) : PortSetting :=
      portOf (deriveSetting s { tap100 with model := model, stale := stale }) 1
    setting .event false home = onPort ∧ setting .event true home = { onPort with grants := [] } ∧
      setting .tiered false home = { onPort with grants := [] } ∧
      setting .onoff false home = { on := true, tiers := 0#16, grants := [] } ∧
      setting .onoff false (withAccount7 fun a => { a with tiers := 0x0008#16 }) = portOff ∧
      setting .event false (withAccount7 fun a => { a with state := .hold }) = portOff := by decide +kernel

/-- SettingsAreDerivedAndQueued: grants in another order are equal, and every other difference counts (R89). -/
theorem test_equal_settings :
    let other : Grant := { event := 10, slot := 6 }
    let with_ (p : PortSetting) : TapSetting := #v[p, portOff, portOff, portOff]
    let both := { onPort with grants := onPort.grants ++ [other] }
    sameSetting (with_ both) (with_ { both with grants := other :: onPort.grants }) = true ∧
      sameSetting (with_ both) onSetting = false ∧ sameSetting onSetting (with_ both) = false ∧
      sameSetting onSetting (with_ { onPort with on := false }) = false ∧
      sameSetting onSetting (with_ { onPort with tiers := 0x0008#16 }) = false ∧
      sameSetting onSetting #v[onPort, portOff, portOff, onPort] = false ∧
      confirms (some onSetting) onSetting = true ∧ confirms none onSetting = false := by decide +kernel

/-- StatusIsReconciled: a STATUS that agrees and one that does not. -/
theorem test_witness_reconcile :
    let s := { withTap (fun t => { t with switching := { t.switching with fault := true, confirmed := none } }) with
      commandQueue := [100] }
    findTap 100 s.taps = s.taps.head? ∧ rising (s.taps.map (·.address)) ∧
      (reconcile 100 onSetting s).commandQueue = [] ∧
      (reconcile 100 onSetting s).taps.map (·.switching.fault) = [false, false] ∧
      (reconcile 100 settingOff { s with commandQueue := [] }).commandQueue = [100] := by decide +kernel

/-- AccountOpen: each check at the edges, and the record opened. -/
theorem test_witness_account_open :
    allServe home [
      (.accountOpen 1 99999999 100 4 0xFFFF#16 1, replyOk []), (.accountOpen 1 1 200 1 0#16 0, replyOk []),
      (.accountOpen 1 0 200 1 0#16 0, refusal .outOfRange), (.accountOpen 1 100000000 200 1 0#16 0, refusal .outOfRange),
      (.accountOpen 1 9 16777215 1 0#16 0, refusal .outOfRange), (.accountOpen 1 9 200 0 0#16 0, refusal .outOfRange),
      (.accountOpen 1 9 200 5 0#16 0, refusal .outOfRange), (.accountOpen 1 9 200 1 0#16 2, refusal .outOfRange),
      (.accountOpen 1 7 200 1 0#16 0, refusal .existing), (.accountOpen 1 9 300 1 0#16 0, refusal .notFound),
      (.accountOpen 1 9 100 1 0#16 0, refusal .existing)] ∧
    allServe { home with taps := [{ tap200 with state := .removing }] }
      [(.accountOpen 1 9 200 1 0#16 0, refusal .wrongState)] ∧
    rising (home.accounts.map (·.number)) ∧ (after (.accountOpen 1 9 200 1 0#16 0) home).commandQueue = [200] :=
  ⟨allServe_of (by decide +kernel), allServe_of (by decide +kernel), by decide +kernel⟩

/-- ServiceStatesAndEntitlement: Table 5-3 from each state, and the number checks. -/
theorem test_witness_service_states :
    allServe home [
      (.accountHold 1 7, replyOk [.uint 1 1]), (.accountCut 1 7, replyOk [.uint 1 2]),
      (.accountResume 1 7, refusal .wrongState), (.accountRestore 1 7, refusal .wrongState),
      (.accountRestore 1 8, replyOk [.uint 1 0]), (.accountCut 1 8, refusal .wrongState),
      (.accountHold 1 0, refusal .outOfRange), (.accountHold 1 100000000, refusal .outOfRange),
      (.accountHold 1 1, refusal .notFound), (.accountHold 1 99999999, refusal .notFound),
      (.accountTiers 1 7 0x8001#16, replyOk [.uint 2 32769]), (.accountTiers 1 9 0#16, refusal .notFound),
      (.accountTiers 1 0 0#16, refusal .outOfRange)] ∧
    allServe (withAccount7 fun a => { a with state := .hold }) [
      (.accountResume 1 7, replyOk [.uint 1 0]), (.accountCut 1 7, replyOk [.uint 1 2]),
      (.accountHold 1 7, refusal .wrongState)] ∧
    (after (.accountHold 1 7) home).commandQueue = [100] :=
  ⟨allServe_of (by decide +kernel), allServe_of (by decide +kernel), by decide +kernel⟩

/-- AccountClose: each of the four conditions of R82, and a close with the overflow flag set. -/
theorem test_witness_account_close :
    let refused (k : Nat) : Reply := { status := .wrongState, fields := [.uint 1 k] }
    allServe home [
      (.accountClose 1 8, replyOk []), (.accountClose 1 7, refused 0), (.accountClose 1 0, refusal .outOfRange),
      (.accountClose 1 99999999, refusal .notFound)] ∧
    allServe (withAccount7 fun a => { a with state := .cut }) [(.accountClose 1 7, refused 1)] ∧
    allServe (withAccount7 fun a => { a with state := .cut, balance := 0 }) [(.accountClose 1 7, refused 2)] ∧
    allServe (withAccount7 fun a => { a with state := .cut, balance := 0, purchases := [] })
      [(.accountClose 1 7, refused 3)] ∧
    allServe (withAccount7 fun a => { a with state := .cut, balance := 0, purchases := [], latch := .none, overflow := true })
      [(.accountClose 1 7, replyOk [])] :=
  ⟨allServe_of (by decide +kernel), allServe_of (by decide +kernel), allServe_of (by decide +kernel),
    allServe_of (by decide +kernel), allServe_of (by decide +kernel)⟩

/-! ### Outage Monitor -/

/-- NodeStatesFollowTheCounts: the counts at the outage and degraded percents, a probe answer with and without a hold, and the
expiry of the hold. -/
theorem test_witness_node_states :
    let silent (s : State) : State := { s with taps := [{ tap100 with state := .silent, miss := 3 }, tap200] }
    let limits (outage degraded hold : Nat) (s : State) : State := modifyNode 1 (fun r => { r with
      thresholds := { r.thresholds with outagePercent := outage, degradedPercent := degraded, restoreHold := hold } }) s
    let state (s : State) : NodeState := (nodeOf s 1).state
    (nodeOf home 1).state = .normal ∧ (nodeOf darkHome 1).state = .outage ∧
      state (reevaluate 1 (limits 50 25 0 (silent home))) = .outage ∧
      state (reevaluate 1 (limits 51 50 0 (silent home))) = .degraded ∧
      state (reevaluate 1 (limits 52 51 0 (silent home))) = .normal ∧
      state (reevaluate 1 { home with taps := [] }) = .unknown ∧
      state (reevaluate 1 { darkHome with taps := [tap100] }) = .outage ∧
      state (probeAnswer 1 100 darkHome) = .restoring ∧
      (nodeOf (probeAnswer 1 100 darkHome) 1).restoreTimer = some 120 ∧
      state (probeAnswer 1 100 (limits 60 25 0 darkHome)) = .outage ∧ state (probeAnswer 1 100 home) = .normal ∧
      state (after (.restoreHoldExpiry 1) (modifyNode 1 (fun r => { r with state := .restoring }) home)) = .normal := by
  decide +kernel

/-- NodeStatesFollowTheCounts: NODE_CONFIG clamps each threshold, and lowers the degraded percent to the outage percent. -/
theorem test_witness_node_config :
    allServe home [
      (.nodeConfig 1 1 0 200 0 3601 1000 101 4,
        replyOk [.uint 1 1, .uint 1 1, .uint 1 1, .uint 2 3600, .uint 2 999, .uint 2 100, .uint 2 5]),
      (.nodeConfig 1 32 16 0 101 0 0 0 201,
        replyOk [.uint 1 15, .uint 1 1, .uint 1 100, .uint 2 0, .uint 2 0, .uint 2 0, .uint 2 200]),
      (.nodeConfig 1 0 3 25 60 120 500 10 30, refusal .outOfRange),
      (.nodeConfig 1 33 3 25 60 120 500 10 30, refusal .outOfRange)] :=
  allServe_of (by decide +kernel)

/-- MinuteSamplesAndSources: a marked minute end with node 1 in OUTAGE. -/
theorem test_witness_minute_end :
    let s := { modifyNode 1 (fun r => { r with tally := 15 }) darkHome with
      due := { noDeliveries with monitorEnds := [{ time := 1800000900, marked := true }] } }
    let t := after .monitorMinuteEnd s
    s.phase = .running ∧ rising s.sample.nodes ∧ (∀ n ∈ s.sample.nodes, 1 ≤ n ∧ n ≤ 32) ∧ t.sample.nodes = [1] ∧
      t.due.tallies.length = 32 ∧ t.due.tallies.head? = some { node := 1, start := 1800000000, tally := 15 } ∧
      (nodeOf t 1).tally = 0 := by decide +kernel

/-- MinuteSamplesAndSources: a sample held for the next minute is used as it stands (log entry 19). -/
theorem test_witness_later_sample :
    let s := { darkHome with
      sample := { minute := some 1800000960, nodes := [32], inputs := [64] },
      due := { noDeliveries with monitorEnds := [{ time := 1800000900, marked := false }] } }
    let t := after .monitorMinuteEnd s
    s.phase = .running ∧ rising s.sample.nodes ∧ (∀ n ∈ s.sample.nodes, 1 ≤ n ∧ n ≤ 32) ∧ t.sample = s.sample ∧
      (nodeOf t 32).tally = 1 ∧ (nodeOf t 1).tally = 0 := by decide +kernel

/-- MinuteSamplesAndSources: input 3 changes level and keeps its level, its third whole second and its verdict, and input 64
changes while the part does not run. -/
theorem test_witness_sources :
    let s := modifyInput 3 (fun r => { r with steady := 2, high := false }) home
    let v := after .secondTick s
    let t := after (.sourceDebounceVerdict 3) v
    (inputOf (after (.sourceLevelChange 3 false) home) 3).partialMark = true ∧
      (inputOf (after (.sourceLevelChange 3 true) home) 3).steady = 3 ∧
      (inputOf (after (.sourceLevelChange 64 true) { home with phase := .mainLost }) 64).high = true ∧
      (inputOf home 3).verdictDue = none ∧ (inputOf v 3).verdictDue = some false ∧ (inputOf t 3).debounced = .lost ∧
      (inputOf t 3).lost = true ∧ (alarmOf t.alarms (sourceLostSource 3)).condition = true := by decide +kernel

/-! ### Meter -/

/-- ChargesAndBalances: the first and the last row of section 8.7.1, and its law. -/
theorem test_witness_charges :
    let run (a : Account) (tallies : List Nat) : List (Int × Nat × Nat) :=
      (tallies.foldl (fun u t => accrue 7 t u) (withAccount7 fun _ => a)).accounts.map fun a =>
        (a.balance, a.residue, a.credited)
    findAccount 7 home.accounts = some account7 ∧ rising (home.accounts.map (·.number)) ∧
      account7.latch = .active 13542 ∧ account7.residue ≤ 14 ∧ account7.credited ≤ 65535 ∧ (∀ t ∈ [4, 0, 7, 15, 1], t ≤ 15) ∧
      run account7 [4] = [(129931, 4, 4), (0, 0, 0)] ∧ run account7 [4, 0, 7, 15, 1] = [(163334, 13, 27), (0, 0, 0)] := by
  decide +kernel

/-- ChargesAndBalances, section 8.7.2: the first clip, the second, and one with no free slot. -/
theorem test_witness_overflow :
    let at_ (balance : Int) (overflow : Bool) : State := withAccount7 fun a => { a with balance := balance, overflow := overflow }
    let t := balanceUpdate 7 13958 0 (at_ 1999990000 false)
    t.accounts.map (·.balance) = [2000000000, 0] ∧ t.accounts.map (·.overflow) = [true, false] ∧
      t.journal.records.map (·.body) = [.purchase 7 9 500 .plant, .overflow 7] ∧ t.meter.balanceOverflow = true ∧
      (balanceUpdate 7 13958 0 (at_ 2000000000 true)).journal.records.length = 1 ∧
      (balanceUpdate 7 (-50000) 0 (at_ (-1999980000) false)).accounts.map (·.balance) = [-2000000000, 0] ∧
      (balanceUpdate 7 13958 1022 (at_ 1999990000 false)).journal.records.length = 1 ∧
      (balanceUpdate 7 13958 1021 (at_ 1999990000 false)).journal.records.length = 2 := by decide +kernel

/-- MeterTallyTake: interval I1 of section 8.7.1, and a node without accounts. -/
theorem test_witness_tally :
    let s (node : Nat) : State := { home with
      due := { noDeliveries with tallies := [{ node := node, start := 1800000000, tally := 4 }] } }
    let t := after .meterTallyTake (s 1)
    (s 1).phase = .running ∧ rising ((s 1).accounts.map (·.number)) ∧ t.accounts.map (·.balance) = [129931, 0] ∧
      t.accounts.map (·.latch) = [.active 13542, .cut] ∧
      t.meter.boundaryTariff = some { start := 1800000900, tariff := bank.tariff } ∧
      (after .meterTallyTake (s 2)).accounts = home.accounts ∧ t.due.tallies = [] := by decide +kernel

/-- MeterTallyTake: two accounts that clip with one slot free, so that one gets a record (R133). -/
theorem test_tally_overflow :
    let rich (a : Account) : Account := { a with balance := 2000000000, latch := .active 15 }
    let t := after .meterTallyTake { home with
      accounts := [rich account7, rich account8], journal := { home.journal with reserved := 1022 },
      due := { noDeliveries with tallies := [{ node := 1, start := 1800000000, tally := 0 }] } }
    t.accounts.map (·.overflow) = [true, true] ∧
      t.journal.records.map (·.body) = [.purchase 7 9 500 .plant, .overflow 7] ∧ t.journal.high = true ∧
      t.meter.balanceOverflow = true ∧
      t.alarms = alarmsAfter 1800000875 [(224, true), (225, true), (225, true)] home.alarms := by decide +kernel

/-- CycleClose: the range check, a full journal, a range of one account, and an empty range. -/
theorem test_witness_cycle_close :
    allServe home [
      (.cycleClose 1 1 99999999, replyOk [.uint 2 2, .uint 1 1, .uint 4 42]),
      (.cycleClose 1 9 9, replyOk [.uint 2 0, .uint 1 0]), (.cycleClose 1 0 9, refusal .outOfRange),
      (.cycleClose 1 1 100000000, refusal .outOfRange), (.cycleClose 1 9 8, refusal .outOfRange)] ∧
    allServe { home with journal := { home.journal with reserved := 1022 } }
      [(.cycleClose 1 7 8, { status := .journalFull, fields := [.uint 2 2, .uint 2 1] }),
       (.cycleClose 1 7 7, replyOk [.uint 2 1, .uint 1 1, .uint 4 42])] ∧
    (after (.cycleClose 1 7 7) home).journal.records.map (·.body) =
      [.purchase 7 9 500 .plant, .cycleClose 7 120000 0 false] ∧
    (after (.cycleClose 1 7 7) home).accounts.map (fun a => (a.balance, a.residue)) = [(0, 7), (0, 0)] :=
  ⟨allServe_of (by decide +kernel), allServe_of (by decide +kernel), by decide +kernel⟩

/-! ### Events and purchases -/

/-- EventAdd: each check at the edge of its range. -/
theorem test_witness_event_add :
    let add (id channel start duration window price threshold : Nat) : Instr :=
      .eventAdd 1 id channel start duration window price threshold
    allServe State.reset [(add 1 20 1800000900 1 0 0 1, refusal .timeUnset)] ∧
    allServe home [
      (add 255 20 1800005400 480 60 50000000 480, replyOk [.uint 4 1800034200, .uint 4 1800009000]),
      (add 1 20 4294967220 1 0 0 1, replyOk [.uint 4 4294967280, .uint 4 4294967220]),
      (add 0 20 1800005400 1 0 0 1, refusal .outOfRange), (add 256 20 1800005400 1 0 0 1, refusal .outOfRange),
      (add 1 0 1800005400 1 0 0 1, refusal .outOfRange), (add 1 1000 1800005400 1 0 0 1, refusal .outOfRange),
      (add 1 20 1800005400 0 0 0 1, refusal .outOfRange), (add 1 20 1800005400 481 0 0 1, refusal .outOfRange),
      (add 1 20 1800005400 1 61 0 1, refusal .outOfRange), (add 1 20 1800005400 1 0 50000001 1, refusal .outOfRange),
      (add 1 20 1800005400 1 0 0 0, refusal .outOfRange), (add 1 20 1800005400 1 0 0 481, refusal .outOfRange),
      (add 1 20 1800005401 1 0 0 1, refusal .outOfRange), (add 1 20 1800000840 1 0 0 1, refusal .outOfRange),
      (add 1 20 4294967280 1 0 0 1, refusal .outOfRange), (add 9 20 1800005400 1 0 0 1, refusal .existing),
      (add 1 10 1800005400 1 0 0 1, refusal .conflict), (add 1 30 1800005400 1 0 0 1, refusal .conflict),
      (add 1 20 1800005340 1 0 0 1, { status := .conflict, fields := [.uint 1 9] })] ∧
    allServe { scheduledHome with lineup := { scheduledHome.lineup with staged := { bank with entries := [] } } } [
      (add 1 20 1800005400 1 0 0 1, refusal .conflict)] ∧
    allServe { home with events := (List.range 32).map fun k => newEvent (k + 1) 999 1800001800 1 0 0 1 }
      [(add 33 20 1800005400 1 0 0 1, refusal .tableFull)] :=
  ⟨allServe_of (by decide +kernel), allServe_of (by decide +kernel), allServe_of (by decide +kernel),
    allServe_of (by decide +kernel)⟩

/-- The head end without the purchase of account 7. -/
def unsold : State :=
  { home with
    accounts := [{ account7 with purchases := [] }, account8], events := [{ event9 with holders := [] }],
    journal := { coldJournal with nextSequence := 42 } }

/-- PurchasesAreDecided: the cases of R151 at tap 100, port 1, and two that find no account or no event. -/
theorem test_witness_plant_purchase :
    let verdict (p : PlantPurchase) (s : State) : List Verdict :=
      (after .purchaseDecide { s with due := { noDeliveries with purchases := [p] } }).carrier.answers.map (·.verdict)
    let p := plantPurchase
    verdict p unsold = [.accepted] ∧ verdict p home = [.accepted] ∧ verdict { p with event := 8 } home = [.refused .closed] ∧
      verdict { p with port := 3 } home = [.refused .notActive] ∧ verdict { p with port := 2 } home = [.refused .notActive] ∧
      verdict p { unsold with events := [{ event9 with state := .runningClosed }] } = [.refused .closed] ∧
      verdict p { unsold with taps := [{ tap100 with model := .tiered }, tap200] } = [.refused .notCapable] ∧
      verdict p { unsold with accounts := [{ account7 with
        purchases := [⟨1, 0, 0, .host, none⟩, ⟨2, 0, 0, .host, none⟩] }] } = [.refused .limit] ∧
      verdict p { unsold with journal := { coldJournal with reserved := 1023 } } = [.deferred] := by decide +kernel

/-- PurchasesAreDecided: an acceptance charges, records, reserves and grants. -/
theorem test_witness_purchase_enter :
    allServe unsold [
      (.purchaseEnter 1 7 9, replyOk [.uint 4 500, .uint 4 42]), (.purchaseEnter 1 0 9, refusal .outOfRange),
      (.purchaseEnter 1 7 0, refusal .outOfRange), (.purchaseEnter 1 7 256, refusal .outOfRange),
      (.purchaseEnter 1 99999999 255, refusal .notFound), (.purchaseEnter 1 7 8, refusal .notFound),
      (.purchaseEnter 1 8 9, refusal .wrongState)] ∧
    allServe home [(.purchaseEnter 1 7 9, refusal .existing)] ∧
    allServe State.reset [(.purchaseEnter 1 7 9, refusal .timeUnset)] ∧
    allServe { unsold with journal := { coldJournal with reserved := 1023 } }
      [(.purchaseEnter 1 7 9, { status := .journalFull, fields := [.uint 2 1] })] ∧
    (let t := after (.purchaseEnter 1 7 9) unsold
     t.accounts.map (·.balance) = [120500, 0] ∧ t.journal.reserved = 1 ∧ t.events.map (·.holders) = [[7]] ∧
       t.journal.records.map (·.body) = [.purchase 7 9 500 .host]) ∧
    findAccount account7.number home.accounts = some account7 ∧
    home.journal.records.length + home.journal.reserved + 2 ≤ 1024 :=
  ⟨allServe_of (by decide +kernel), allServe_of (by decide +kernel), allServe_of (by decide +kernel),
    allServe_of (by decide +kernel), by decide +kernel⟩

/-- The head end at a minute end, with event 9 closed to sale and its counter for node 1 as given. -/
def ending (time minutes : Nat) : State :=
  { home with
    events := [{ event9 with
      state := .runningClosed, counters := vecModify event9.counters 0 fun _ => minutes }],
    due := { noDeliveries with eventEnds := [{ time := time, marked := false }] } }

/-- EventsAdvanceAndEnd: opening at the start, closing, settling with a refund at the threshold and without one below it, and
counting a minute of a node in OUTAGE. -/
theorem test_witness_event_minutes :
    let states (s : State) : List EventState := (after .eventMinuteEnd s).events.map (·.state)
    let onSale (time : Nat) : State := { home with due := { noDeliveries with eventEnds := [{ time := time, marked := false }] } }
    states (onSale 1800001740) = [.onSale] ∧ states (onSale 1800001800) = [.runningOpen] ∧
      states (onSale 1800002400) = [.runningClosed] ∧ states (ending 1800005340 9) = [.runningClosed] ∧
      (after .eventMinuteEnd (ending 1800005400 10)).journal.records.map (·.body) =
        [.purchase 7 9 500 .plant, .refund 7 9 500 .settled] ∧
      (after .eventMinuteEnd (ending 1800005400 10)).accounts.map (·.balance) = [119500, 0] ∧
      (after .eventMinuteEnd (ending 1800005400 9)).journal.records.length = 1 ∧
      (after .eventMinuteEnd (ending 1800005400 9)).journal.reserved = 0 ∧ states (ending 1800005400 9) = [] ∧
      ((after .eventMinuteEnd { ending 1800005340 9 with nodes := darkHome.nodes }).events.map fun e =>
        vecGet e.counters 0 0) = [10] ∧
      rising (home.taps.map (·.address)) := by decide +kernel

theorem test_witness_ending_sound :
    reservationsSound (ending 1800005400 10) ∧ bindingsSound (ending 1800005400 10) := by decide +kernel

/-- EventsAdvanceAndEnd: the holder's tap loses its grant and is queued, and the other tap stands (R155, R93, R94). -/
theorem test_witness_ending_taps :
    let t := after .eventMinuteEnd (ending 1800005400 10)
    t.commandQueue = [100] ∧ t.taps.map bareTap = home.taps.map bareTap ∧ tap200 ∈ t.taps ∧
      (∀ r ∈ t.taps, r.switching.desired = deriveSetting t r) ∧
      t.accounts.map (·.overflow) = [false, false] := by decide +kernel

/-- EventsAdvanceAndEnd: a downtime of 2 minutes and 1 second within the window credits 3 minutes, and EVENT_CANCEL refunds. -/
theorem test_witness_restart_step :
    let s := { ending 0 7 with
      clock := { home.clock with resetTime := some 1800003000, restartTime := some 1800003121 },
      due := { noDeliveries with restartStep := true } }
    s.phase = .running ∧ s.due.restartStep = true ∧ reservationsSound s ∧ bindingsSound s ∧
      ((after .restartEventStep s).events.map fun e => vecGet e.counters 0 0) = [10] ∧
      (after (.eventCancel 1 9) home).journal.records.map (·.body) =
        [.purchase 7 9 500 .plant, .refund 7 9 500 .cancelled] ∧
      (after (.eventCancel 1 9) home).events = [] := by decide +kernel

theorem test_witness_event_cancel :
    allServe home [
      (.eventCancel 1 9, replyOk [.uint 2 1]), (.eventCancel 1 0, refusal .outOfRange),
      (.eventCancel 1 256, refusal .outOfRange), (.eventCancel 1 255, refusal .notFound)] :=
  allServe_of (by decide +kernel)

/-! ### Billing Journal -/

/-- JournalRelease: number 0, numbers not held, the older of two records and the newer. -/
theorem test_witness_journal_release :
    let s := { home with journal := { home.journal with
      records := [⟨4294967295, 1, .overflow 7⟩, ⟨1, 2, .overflow 8⟩], nextSequence := 2 } }
    allServe s [
      (.journalRelease 1 0, refusal .outOfRange), (.journalRelease 1 2, refusal .notFound),
      (.journalRelease 1 4294967295, replyOk [.uint 2 1, .uint 1 1, .uint 4 1, .uint 2 1, .uint 2 1022]),
      (.journalRelease 1 1, replyOk [.uint 2 2, .uint 1 0, .uint 2 0, .uint 2 1023])] ∧
    journalSound s.journal ∧
    s.journal.records = [⟨4294967295, 1, .overflow 7⟩] ++ ⟨1, 2, .overflow 8⟩ :: [] :=
  ⟨allServe_of (by decide +kernel), by decide +kernel⟩

/-! ### Alarms -/

/-- A source PENDING at a level, with its condition present. -/
def pendingAt (level : Nat) : AlarmRec :=
  { coldAlarm with level := level, kind := .latching, condition := true, state := .pending }

/-- ConditionChangesAndReports: a source with a level goes PENDING and is reported at once; an absent one goes by its kind. -/
theorem test_witness_condition_changes :
    let armed := modifyAlarm 0 (fun r => { r with level := 3, kind := .latching }) State.reset.alarms
    let t := alarmsGive 9 0 true armed
    let latched := modifyAlarm 233 (fun _ => { coldAlarm with
      level := 1, condition := true, state := .latched, reported := some 1 }) State.reset.alarms
    (alarmOf armed 0).condition = false ∧ (alarmOf t 0).state = .opened ∧
      t.queue = [.raised 0 3 true false false 9] ∧ serviceLevel t = 3 ∧
      (alarmsGive 9 0 false armed).queue = [] ∧ (takeCondition 9 0 true armed).queue = [] ∧
      (takeCondition 9 233 false latched).queue = [.cleared 233 9] ∧
      (alarmOf (takeCondition 9 233 false { latched with queue := List.replicate 16 (.cleared 0 0) }) 233).clearOwed = true := by
  decide +kernel

/-- ConditionChangesAndReports: the arbiter's choices, with and without express slots, and a clear owed. -/
theorem test_witness_arbiter :
    let two := modifyAlarm 5 (fun _ => pendingAt 3) (modifyAlarm 4 (fun _ => pendingAt 2) State.reset.alarms)
    let tied := modifyAlarm 233 (fun _ => pendingAt 3) two
    let express := { tied with express := #v[none, some 233] }
    let owed := modifyAlarm 6 (fun r => { r with clearOwed := true }) State.reset.alarms
    nextRaise two = some 5 ∧ nextRaise tied = some 5 ∧ nextRaise express = some 233 ∧ nextRaise State.reset.alarms = none ∧
      (takeReport 1 owed).map (·.queue) = some [.cleared 6 1] ∧ takeReport 1 State.reset.alarms = none ∧
      (fill 1 tied).queue = [.raised 5 3 true false false 1] ∧
      ((fill 1 express).queue.map fun r => match r with
        | .raised i _ _ _ _ _ => i
        | .cleared i _ => i) = [233] := by decide +kernel

/-- AlarmSet: the two checks, and rows of the table of R174. -/
theorem test_witness_alarm_set :
    let s := withAlarm 5 fun _ => { pendingAt 2 with condition := false, transient := true }
    let express := { home with alarms := { home.alarms with express := #v[some 5, none] } }
    allServe s [
      (.alarmSet 1 0 233 3 0, replyOk [.uint 2 234]), (.alarmSet 1 5 5 2 1, replyOk [.uint 2 1]),
      (.alarmSet 1 0 234 3 0, refusal .outOfRange), (.alarmSet 1 6 5 3 0, refusal .outOfRange),
      (.alarmSet 1 0 0 4 0, refusal .outOfRange), (.alarmSet 1 0 0 0 2, refusal .outOfRange)] ∧
    allServe express [(.alarmSet 1 5 9 2 0, refusal .conflict), (.alarmSet 1 5 9 3 0, replyOk [.uint 2 5]),
      (.alarmSet 1 6 9 0 0, replyOk [.uint 2 4])] ∧
    (alarmOf (after (.alarmSet 1 5 5 2 1) s).alarms 5).state = .idle ∧
    (alarmOf (after (.alarmSet 1 5 5 1 0) s).alarms 5).state = .opened ∧
    (alarmOf (after (.alarmSet 1 5 5 0 0) s).alarms 5).state = .idle :=
  ⟨allServe_of (by decide +kernel), allServe_of (by decide +kernel), by decide +kernel⟩

/-- The head end with composite 0 as the conditions of sources 4 and not 5, held, and source 4 present. -/
def composed : State :=
  { home with alarms := { modifyAlarm 226 (fun r => { r with condition := true })
      (modifyAlarm 4 (fun r => { r with condition := true }) home.alarms) with
    composites := vecModify home.alarms.composites 0 fun _ => some { op := .andNot, a := 4, b := 5, hold := true },
    latches := vecModify home.alarms.latches 0 fun _ => true } }

/-- CompositesDefinedAndReleased: the checks at the edges, the four operations, and a release with the value present. -/
theorem test_witness_composites :
    allServe composed [
      (.compositeDefine 1 8 0 0 0 0, refusal .outOfRange), (.compositeDefine 1 0 4 0 0 0, refusal .outOfRange),
      (.compositeDefine 1 0 0 234 0 0, refusal .outOfRange), (.compositeDefine 1 0 0 0 0 2, refusal .outOfRange),
      (.compositeDefine 1 7 0 233 0 0, refusal .conflict), (.compositeDefine 1 0 0 0 226 0, refusal .conflict),
      (.compositeDefine 1 7 0 4 226 0, replyOk [.uint 1 0]), (.compositeDefine 1 1 0 4 5 1, replyOk [.uint 1 1]),
      (.compositeDefine 1 1 1 4 5 1, replyOk [.uint 1 0]), (.compositeDefine 1 1 2 4 4 1, replyOk [.uint 1 1]),
      (.compositeDefine 1 1 3 4 5 0, replyOk [.uint 1 0]), (.compositeRelease 1 0, replyOk [.uint 1 0]),
      (.compositeRelease 1 7, refusal .notFound), (.compositeRelease 1 8, refusal .outOfRange)] ∧
    compositesSound composed.alarms ∧ vecGet (after (.compositeRelease 1 0) composed).alarms.latches 0 false = true :=
  ⟨allServe_of (by decide +kernel), by decide +kernel⟩

/-- CompositesDefinedAndReleased: a change of composite 0 goes up to composite 7, whose raise is queued (R176, R180). -/
theorem test_composite_carried :
    let s := { composed with alarms := modifyAlarm 233 (fun r => { r with level := 2 }) { composed.alarms with
      composites := vecModify composed.alarms.composites 7 fun _ => some { op := .andNot, a := 4, b := 226, hold := false } } }
    let t := after (.compositeDefine 1 0 0 5 5 1) s
    alarmsSound s.alarms ∧ (alarmOf t.alarms 226).condition = false ∧ (alarmOf t.alarms 233).condition = true ∧
      (alarmOf t.alarms 233).state = .opened ∧ t.alarms.queue = [.raised 233 2 true false false 1800000875] ∧
      vecGet t.alarms.latches 0 false = false := by decide +kernel

theorem test_composed_sound : alarmsSound composed.alarms := by decide +kernel

/-- ConditionChangesAndReports: source 5 of composite 0, which its latch holds, and the last fixed source, which feeds
composites 6 and 7 in turn (R176). -/
theorem test_witness_cascade :
    let chain := { home.alarms with
      composites := vecModify (vecModify home.alarms.composites 6 fun _ =>
          some { op := .or, a := 0, b := 225, hold := false }) 7 fun _ =>
          some { op := .and, a := 232, b := 225, hold := true } }
    let t := alarmsGive 9 225 true chain
    alarmsSound chain ∧ compositesSound chain ∧ compositesSound t ∧
      (alarmOf t 225).condition = true ∧ (alarmOf t 232).condition = true ∧ (alarmOf t 233).condition = true ∧
      t.latches.toList = [false, false, false, false, false, false, false, true] ∧
      (alarmOf (alarmsGive 9 5 true composed.alarms) 226).condition = true ∧
      cascade 9 [0] [6] composed.alarms = composed.alarms := by decide +kernel

/-- ExpressAcknowledgeDefer: ALARM_EXPRESS with its checks. -/
theorem test_witness_express :
    let high := withAlarm 5 fun r => { r with level := 3 }
    let held := { high with alarms := { high.alarms with express := #v[some 5, none] } }
    let opened := { held with alarms := modifyAlarm 5 (fun r => { r with state := .opened, reported := some 3 }) held.alarms }
    allServe high [
      (.alarmExpress 1 1 (some 5), replyOk []), (.alarmExpress 1 0 none, replyOk []),
      (.alarmExpress 1 2 none, refusal .outOfRange), (.alarmExpress 1 0 (some 234), refusal .outOfRange),
      (.alarmExpress 1 0 (some 233), refusal .conflict)] ∧
    allServe held [(.alarmExpress 1 1 (some 5), refusal .conflict), (.alarmExpress 1 0 none, replyOk [])] ∧
    allServe opened [(.alarmExpress 1 0 none, refusal .conflict), (.alarmExpress 1 0 (some 5), replyOk [])] :=
  ⟨allServe_of (by decide +kernel), allServe_of (by decide +kernel), allServe_of (by decide +kernel)⟩

/-- ExpressAcknowledgeDefer: ALARM_ACK and ALARM_DEFER in OPEN with the condition present and absent, and in IDLE. -/
theorem test_witness_acknowledge :
    let opened (present : Bool) : State := withAlarm 233 fun r =>
      { r with level := 3, state := .opened, reported := some 3, condition := present }
    allServe (opened true) [(.alarmAck 1 233, replyOk [.uint 1 4]), (.alarmDefer 1 233, replyOk []),
      (.alarmAck 1 234, refusal .outOfRange), (.alarmDefer 1 234, refusal .outOfRange),
      (.alarmAck 1 0, refusal .wrongState), (.alarmDefer 1 0, refusal .wrongState)] ∧
    allServe (opened false) [(.alarmAck 1 233, replyOk [.uint 1 0])] :=
  ⟨allServe_of (by decide +kernel), allServe_of (by decide +kernel)⟩

/-! ### Reading -/

/-- ReadsReplyWhatStands: each request's refusals at the edges of its ranges, and replies written out. -/
theorem test_witness_reads :
    allServe home [
      (.lineupRead 1 2 1 999, refusal .outOfRange), (.lineupRead 1 0 0 999, refusal .outOfRange),
      (.lineupRead 1 1 1 1000, refusal .outOfRange), (.lineupRead 1 1 9 8, refusal .outOfRange),
      (.tapRead 1 0, refusal .outOfRange), (.tapRead 1 16777215, refusal .outOfRange), (.tapRead 1 999, refusal .notFound),
      (.tapRead 1 300, replyOk [.uint 1 2, .uint 1 1, .uint 3 300, .uint 1 1, .uint 1 0, .uint 1 0, .uint 1 0, .uint 1 0]),
      (.pollRead 1 2 0, refusal .outOfRange), (.pollRead 1 0 544, refusal .outOfRange),
      (.pollRead 1 1 2, replyOk [.uint 1 1, .uint 1 0, .uint 1 0, .uint 4 0, .uint 2 0, .uint 2 3, .uint 2 3, .uint 2 3,
        .uint 1 1, .uint 1 1, .uint 3 300, .uint 1 2]),
      (.nodeRead 1 0, refusal .outOfRange), (.nodeRead 1 33, refusal .outOfRange),
      (.sourceRead 1 0 64, refusal .outOfRange), (.sourceRead 1 1 65, refusal .outOfRange),
      (.sourceRead 1 3 3, replyOk [.uint 1 1, .uint 1 0, .uint 1 0, .uint 1 3, .uint 1 0, .uint 1 1]),
      (.accountRead 1 0, refusal .outOfRange), (.accountRead 1 99999999, refusal .notFound),
      (.eventRead 1 0 0, refusal .outOfRange), (.eventRead 1 255 1023, refusal .notFound),
      (.eventRead 1 9 1024, refusal .outOfRange),
      (.eventList 1, replyOk [.uint 1 1, .uint 1 9, .uint 2 20, .uint 4 1800001800, .uint 4 1800005400, .uint 1 0, .uint 2 1]),
      (.journalRead 1 0, replyOk [.uint 2 1, .uint 2 1, .uint 2 1022, .uint 4 42, .uint 1 1,
        .uint 4 41, .uint 1 0, .uint 4 1800000600, .uint 4 7, .uint 1 9, .uint 4 500, .uint 1 0])] :=
  allServe_of (by decide +kernel)

/-- ReadsReplyWhatStands: the lengths in bytes of the longer replies, counted from R196. -/
theorem test_reply_lengths :
    let length (c : Instr) : Option Nat := (replyTo c home).map fun r => (replyPayload r).length
    length (.lineupRead 1 0 1 999) = some (1 + 3 + 4 + 68 + 1 + (8 + 1) + (7 + 0) + 1) ∧
      length (.nodeRead 1 2) = some (1 + 1 + 11 + 1 + 1 + 4 + 10 + 4 + 1 + 1 + 4) ∧
      length (.accountRead 1 7) = some (1 + 4 + 3 + 1 + 1 + 2 + 1 + 12 + 4 + 1 + 2 + 1 + 1 + 5 + 4) ∧
      length (.eventRead 1 9 0) = some (1 + 17 + 64 + 8 + 2 + 1 + 4 + 1) ∧
      length (.alarmQuery 1 0 233) = some (1 + 3 + 2 + 2 + 1 + 32 * 8 + 1) ∧
      findTap account7.address home.taps = some tap100 ∧ findEvent 9 home.events = some event9 := by decide +kernel

/-! ### Invariants -/

/-- The head end with a command waiting. -/
def waiting (c : Instr) : State := { home with pending := [c] }

/-- A step that answers a next state, from a state that is sound in every block (with the theorems on `home` above). -/
theorem test_witness_invariants :
    step (waiting .secondTick) = .next (after .secondTick home) ∧ lineupSound (waiting .secondTick).lineup ∧
      carrierSound (waiting .secondTick) ∧ clockSound (waiting .secondTick) ∧ directorySound (waiting .secondTick) ∧
      bindingsSound (waiting .secondTick) ∧ switchingSound (waiting .secondTick) ∧ accountsSound (waiting .secondTick) ∧
      reservationsSound (waiting .secondTick) ∧ journalSound (waiting .secondTick).journal ∧
      monitorSound (waiting .secondTick) ∧ alarmsSound (waiting .secondTick).alarms ∧
      compositesSound (waiting .secondTick).alarms ∧ conditionsSound (waiting .secondTick) :=
  ⟨rfl, test_home_lineup, test_home_blocks.1, test_home_blocks.2.2, test_home_units.1, test_home_units.2.1,
    test_home_units.2.2, test_home_accounts.1, test_home_accounts.2.1, test_home_accounts.2.2, test_home_monitor,
    test_home_alarms.1, test_home_alarms.2, test_home_conditions⟩

end Sys2Proof.Machine.Tests
end

section
/-! SUPPORT. The channel line-up: what the requests of the Line-Up Store answer, one equation for each, what an entry
put in its place leaves in a bank, and what the taking of a switchover leaves in the line-up. -/

namespace Sys2Proof.Machine

/-! ### Requests that come to execution (R190) -/

/-- A request that comes to execution leaves its owner's state, with its owner's reply waiting. `hc` is the request's
row of the dispatch. -/
theorem exec_of_executes {c : Instr} {owner : State → State × Reply} {s u : State}
    (hc : exec c s = .next (serve c owner s)) (h : executes c s u) : exec c s = replies c (owner u).2 (owner u).1 := by
  rw [hc, serve_claimed h]

theorem phase_of_claimed {f : Frame} {s u : State} (h : claimRequest f s = some u) : u.phase = .running := by
  obtain ⟨hm, -, ⟨-, rfl⟩ | ⟨rest, -, rfl⟩⟩ := claimRequest_cases h
  · exact ((mayExecute_iff _).1 hm).1
  · exact ((mayExecute_iff _).1 hm).1

/-- The claim of a request takes a frame from the Host Link and leaves the line-up alone. -/
theorem lineup_of_claimed {f : Frame} {s u : State} (h : claimRequest f s = some u) : u.lineup = s.lineup := by
  obtain ⟨-, -, ⟨-, rfl⟩ | ⟨rest, -, rfl⟩⟩ := claimRequest_cases h <;> rfl

/-! ### LINEUP_PUT (R13, R16) -/

theorem within_iff {low high v : Nat} : within low high v = true ↔ low ≤ v ∧ v ≤ high := by
  simp [within]

theorem labelInRange_iff {label : List Byte} :
    labelInRange label = true ↔ label.length ≤ 8 ∧ ∀ b ∈ label, 32 ≤ b.toNat ∧ b.toNat ≤ 126 := by
  simp [labelInRange, within_iff]

/-- The second check of LINEUP_PUT (R16): every field within Table 2-2. -/
abbrev putInRange (channel slot source kind : Nat) (tier : Option Nat) (label : List Byte) : Prop :=
  (1 ≤ channel ∧ channel ≤ 999) ∧ (1 ≤ slot ∧ slot ≤ 150) ∧ (1 ≤ source ∧ source ≤ 64) ∧
    (kind = 0 ∧ tier.any (· ≤ 15) = true ∨ kind = 1 ∧ tier = none) ∧
    label.length ≤ 8 ∧ ∀ b ∈ label, 32 ≤ b.toNat ∧ b.toNat ≤ 126

/-- The entry that the fields of a LINEUP_PUT describe. -/
abbrev putFields (channel slot source kind : Nat) (tier : Option Nat) (label : List Byte) : LineupEntry :=
  { channel := channel, slot := slot, source := source, kind := if kind = 0 then .tiered else .ppv, tier := tier,
    label := label }

/-- The guard of `entryOf`: the fields that are ranged alone. -/
theorem entryOf_guard_iff {channel slot source : Nat} {label : List Byte} :
    (within 1 999 channel && within 1 150 slot && within 1 64 source && labelInRange label) = true ↔
      (1 ≤ channel ∧ channel ≤ 999) ∧ (1 ≤ slot ∧ slot ≤ 150) ∧ (1 ≤ source ∧ source ≤ 64) ∧
        label.length ≤ 8 ∧ ∀ b ∈ label, 32 ≤ b.toNat ∧ b.toNat ≤ 126 := by
  simp only [Bool.and_eq_true, within_iff, labelInRange_iff, and_assoc]

theorem entryOf_eq (channel slot source kind : Nat) (tier : Option Nat) (label : List Byte) :
    entryOf channel slot source kind tier label =
      if putInRange channel slot source kind tier label then some (putFields channel slot source kind tier label)
      else none := by
  by_cases guard : (within 1 999 channel && within 1 150 slot && within 1 64 source && labelInRange label) = true
  · obtain ⟨hc, hs, ho, hl⟩ := entryOf_guard_iff.1 guard
    have range : putInRange channel slot source kind tier label ↔
        (kind = 0 ∧ tier.any (· ≤ 15) = true ∨ kind = 1 ∧ tier = none) :=
      ⟨fun ⟨_, _, _, hk, _⟩ => hk, fun hk => ⟨hc, hs, ho, hk, hl⟩⟩
    simp only [entryOf, guard, if_true, range]
    match kind, tier with
    | 0, none => simp [channelKindOf]
    | 0, some t => simp [channelKindOf, putFields]
    | 1, none => simp [channelKindOf]
    | 1, some t => simp [channelKindOf]
    | k + 2, tier => simp [channelKindOf]
  · have range : ¬putInRange channel slot source kind tier label := fun ⟨hc, hs, ho, _, hl⟩ =>
      guard (entryOf_guard_iff.2 ⟨hc, hs, ho, hl⟩)
    rw [if_neg range]
    exact if_neg guard

/-- The model's search for a channel that is not held. -/
theorem channel_absent_iff {channel : Nat} {held : List LineupEntry} :
    (!held.any (·.channel = channel)) = true ↔ ∀ x ∈ held, x.channel ≠ channel := by
  simp

/-- The model's search for a slot that another channel occupies. -/
theorem slot_taken_iff {channel slot : Nat} {held : List LineupEntry} :
    (held.any fun x => x.slot = slot && x.channel != channel) = true ↔
      ∃ x ∈ held, x.slot = slot ∧ x.channel ≠ channel := by
  simp

/-- LINEUP_PUT's checks in their order, and its outcome. -/
theorem lineupPutStep_eq (channel slot source kind : Nat) (tier : Option Nat) (label : List Byte) (u : State) :
    let held := u.lineup.staged.entries
    let e := putFields channel slot source kind tier label
    lineupPutStep channel slot source kind tier label u =
      if u.lineup.scheduled.isSome then (u, refusal .scheduled)
      else if ¬putInRange channel slot source kind tier label then (u, refusal .outOfRange)
      else if ∃ x ∈ held, x.slot = slot ∧ x.channel ≠ channel then (u, refusal .conflict)
      else if 160 ≤ held.length ∧ ∀ x ∈ held, x.channel ≠ channel then (u, refusal .tableFull)
      else (setStagedEntries (putEntry e held) u, replyOk [.uint 2 (putEntry e held).length]) := by
  intro held e
  by_cases hr : putInRange channel slot source kind tier label
  · rw [if_neg (not_not.2 hr)]
    simp only [lineupPutStep, entryOf_eq, if_pos hr, slot_taken_iff, Bool.and_eq_true, decide_eq_true_eq,
      channel_absent_iff]
    rfl
  · rw [if_pos hr]
    simp only [lineupPutStep, entryOf_eq, if_neg hr]

/-- Channel order, entry by entry. -/
theorem rising_channels_cons {y : LineupEntry} {ys : List LineupEntry} :
    rising ((y :: ys).map (·.channel)) ↔ (∀ z ∈ ys, y.channel < z.channel) ∧ rising (ys.map (·.channel)) := by
  simp

/-- In channel order an entry put in its place stands with the entries of every other channel. -/
theorem mem_putEntry {e x : LineupEntry} {held : List LineupEntry} (h : rising (held.map (·.channel))) :
    x ∈ putEntry e held ↔ x = e ∨ (x ∈ held ∧ x.channel ≠ e.channel) := by
  induction held with
  | nil => simp [putEntry]
  | cons y ys ih =>
    obtain ⟨later, hys⟩ := rising_channels_cons.1 h
    rw [putEntry]
    split_ifs with hlt heq
    · have other : ∀ z ∈ y :: ys, z.channel ≠ e.channel := by
        rintro z (_ | ⟨_, hz⟩)
        · omega
        · have := later z hz; omega
      rw [List.mem_cons]
      exact or_congr_right ⟨fun hx => ⟨hx, other x hx⟩, And.left⟩
    · have other : ∀ z ∈ ys, z.channel ≠ e.channel := fun z hz => by have := later z hz; omega
      rw [List.mem_cons]
      refine or_congr_right ⟨fun hx => ⟨.tail _ hx, other x hx⟩, ?_⟩
      rintro ⟨_ | ⟨_, hx⟩, hne⟩
      · exact absurd heq.symm hne
      · exact hx
    · rw [List.mem_cons, ih hys, List.mem_cons]
      constructor
      · rintro (rfl | rfl | ⟨hx, hne⟩)
        · exact .inr ⟨.inl rfl, fun hxe => heq hxe.symm⟩
        · exact .inl rfl
        · exact .inr ⟨.inr hx, hne⟩
      · rintro (rfl | ⟨rfl | hx, hne⟩)
        · exact .inr (.inl rfl)
        · exact .inl rfl
        · exact .inr (.inr ⟨hx, hne⟩)

/-- An entry put in its place keeps the channel order (R13). -/
theorem putEntry_rising {e : LineupEntry} {held : List LineupEntry} (h : rising (held.map (·.channel))) :
    rising ((putEntry e held).map (·.channel)) := by
  induction held with
  | nil => simp [putEntry]
  | cons y ys ih =>
    obtain ⟨later, hys⟩ := rising_channels_cons.1 h
    rw [putEntry]
    split_ifs with hlt heq
    · refine rising_channels_cons.2 ⟨?_, h⟩
      rintro z (_ | ⟨_, hz⟩)
      · exact hlt
      · exact hlt.trans (later z hz)
    · exact rising_channels_cons.2 ⟨fun z hz => heq ▸ later z hz, hys⟩
    · refine rising_channels_cons.2 ⟨fun z hz => ?_, ih hys⟩
      obtain rfl | ⟨hz, -⟩ := (mem_putEntry hys).1 hz
      · omega
      · exact later z hz

/-- An entry put in its place replaces the entry of its channel, and otherwise joins the others. -/
theorem length_putEntry {e : LineupEntry} {held : List LineupEntry} (h : rising (held.map (·.channel))) :
    (putEntry e held).length = if ∃ x ∈ held, x.channel = e.channel then held.length else held.length + 1 := by
  induction held with
  | nil => simp [putEntry]
  | cons y ys ih =>
    obtain ⟨later, hys⟩ := rising_channels_cons.1 h
    rw [putEntry]
    split_ifs with hlt hheld heq hheld hheld
    · obtain ⟨x, hx, hxe⟩ := hheld
      obtain rfl | hx := List.mem_cons.1 hx
      · omega
      · have := later x hx; omega
    · rfl
    · rfl
    · exact absurd ⟨y, .head _, heq.symm⟩ hheld
    · have hys' : ∃ x ∈ ys, x.channel = e.channel := by simpa [Ne.symm heq] using hheld
      rw [List.length_cons, ih hys, if_pos hys', List.length_cons]
    · have hys' : ¬∃ x ∈ ys, x.channel = e.channel := fun ⟨x, hx, hxe⟩ => hheld ⟨x, .tail _ hx, hxe⟩
      rw [List.length_cons, ih hys, if_neg hys', List.length_cons]

/-- Settles O16: the checks by the equation of LINEUP_PUT's step, the list by induction on the entries in channel
order. -/
theorem lineupPut : Obligations.LineupPut := by
  intro tag channel slot source kind tier label s u c held e h
  refine ⟨?_, fun hr => ⟨putEntry_rising hr, fun x => mem_putEntry hr, length_putEntry hr⟩⟩
  rw [exec_of_executes (owner := lineupPutStep channel slot source kind tier label) rfl h, lineupPutStep_eq]
  split_ifs <;> rfl

/-! ### LINEUP_DROP and TIER_RATE_SET (R17, R18) -/

/-- LINEUP_DROP's checks in their order, and its outcome. -/
theorem lineupDropStep_eq (channel : Nat) (u : State) :
    let held := u.lineup.staged.entries
    let kept := held.filter fun x => x.channel ≠ channel
    lineupDropStep channel u =
      if u.lineup.scheduled.isSome then (u, refusal .scheduled)
      else if ¬(1 ≤ channel ∧ channel ≤ 999) then (u, refusal .outOfRange)
      else if ∀ x ∈ held, x.channel ≠ channel then (u, refusal .notFound)
      else (setStagedEntries kept u, replyOk [.uint 2 kept.length]) := by
  intro held kept
  have hkept : held.filter (·.channel != channel) = kept := List.filter_congr fun x _ => by simp [bne, beq_eq_decide]
  have hrange : (!within 1 999 channel) = true ↔ ¬(1 ≤ channel ∧ channel ≤ 999) := by
    rw [← within_iff]; simp
  simp only [lineupDropStep, hrange, channel_absent_iff]
  rw [hkept]
  rfl

/-- The slots of a bank are used once (R13): the slot of one channel's entry is no slot of another's. -/
theorem slot_ne_of_channel_ne {b : Bank} (hb : bankSound b) {x y : LineupEntry} (hx : x ∈ b.entries)
    (hy : y ∈ b.entries) (h : y.channel ≠ x.channel) : y.slot ≠ x.slot := by
  obtain ⟨-, hslots, -⟩ := hb
  intro hs
  exact h (congrArg LineupEntry.channel (List.inj_on_of_nodup_map hslots hy hx hs))

theorem setRate_holdRate (target rate : Nat) (t : Tariff) :
    (setRate target rate t).holdRate = if target = 16 then rate else t.holdRate := by
  unfold setRate; split_ifs <;> rfl

theorem setRate_tier (target rate : Nat) (t : Tariff) {k : Nat} (hk : k < 16) :
    vecGet (setRate target rate t).tiers k 0 = if k = target then rate else vecGet t.tiers k 0 := by
  unfold setRate
  split_ifs with htarget hkt hkt
  · omega
  · rfl
  · rw [vecGet_vecModify, if_pos ⟨hkt.symm, hk⟩]
  · rw [vecGet_vecModify, if_neg fun h => hkt h.1.symm]

theorem tierRateSetStep_scheduled {target rate : Nat} {u : State} (hs : u.lineup.scheduled.isSome) :
    tierRateSetStep target rate u = (u, refusal .scheduled) := if_pos hs

theorem tierRateSetStep_outOfRange {target rate : Nat} {u : State} (hs : u.lineup.scheduled = none)
    (hr : 16 < target ∨ 1000000 < rate) : tierRateSetStep target rate u = (u, refusal .outOfRange) := by
  simp [tierRateSetStep, hs, hr]

theorem tierRateSetStep_ok {target rate : Nat} {u : State} (hs : u.lineup.scheduled = none) (ht : target ≤ 16)
    (hr : rate ≤ 1000000) :
    tierRateSetStep target rate u =
      ({ u with lineup :=
          { u.lineup with staged := { u.lineup.staged with tariff := setRate target rate u.lineup.staged.tariff } } },
        replyOk [.uint 1 target, .uint 4 rate]) := by
  have hrange : ¬(16 < target ∨ 1000000 < rate) := by omega
  simp [tierRateSetStep, hs, hrange, byte1, byte4]

/-- Settles O17: LINEUP_DROP by the equation of its step, the freed slot by the uniqueness of slots, and TIER_RATE_SET
by what one changed rate leaves of a tariff. -/
theorem lineupDropAndTierRateSet : Obligations.LineupDropAndTierRateSet := by
  refine ⟨?drop, ?slot, ?rate⟩
  case drop =>
    intro tag channel s u c held kept h
    rw [exec_of_executes (owner := lineupDropStep channel) rfl h, lineupDropStep_eq]
    split_ifs <;> rfl
  case slot =>
    rintro channel b hb x hx rfl y hy
    obtain ⟨hy, hne⟩ := List.mem_filter.1 hy
    exact slot_ne_of_channel_ne hb hx hy (by simpa using hne)
  case rate =>
    intro tag target rate s u c h
    rw [exec_of_executes (owner := tierRateSetStep target rate) rfl h]
    refine ⟨fun hs => ?_, fun hs hr => ?_, fun hs ht hr => ⟨setRate target rate u.lineup.staged.tariff, ?_,
      setRate_holdRate _ _ _, fun k hk => setRate_tier _ _ _ hk⟩⟩
    · rw [tierRateSetStep_scheduled hs]
    · rw [tierRateSetStep_outOfRange hs hr]
    · rw [tierRateSetStep_ok hs ht hr]

/-! ### SWITCHOVER_CANCEL and the boundary (R22, R23) -/

theorem switchoverCancelStep_unscheduled {u : State} (h : u.lineup.scheduled = none) :
    switchoverCancelStep u = (u, refusal .wrongState) := by
  simp [switchoverCancelStep, h]

/-- A cancel ends the schedule and gives its reservation back. -/
theorem switchoverCancelStep_scheduled {u : State} (h : u.lineup.scheduled.isSome) (hr : 1 ≤ u.journal.reserved) :
    switchoverCancelStep u =
      (putJournal { u.journal with reserved := u.journal.reserved - 1 }
        { u with lineup :=
            { u.lineup with
              scheduled := none, staged := { u.lineup.staged with version := u.lineup.active.version } } },
        replyOk []) := by
  simp [switchoverCancelStep, h, releaseReservation, hr]

/-- A scheduled switchover holds a reservation (R166). -/
theorem reserved_pos_of_scheduled {s : State} (h : reservationsSound s) (hs : s.lineup.scheduled.isSome) :
    1 ≤ s.journal.reserved := by
  obtain ⟨-, hr⟩ := h
  rw [hr, if_pos hs]
  omega

/-- A boundary that is not the scheduled one changes nothing but its delivery (R23). -/
theorem exec_switchoverTake_other {t : State} {b : Nat} {rest : List Nat} (hp : t.phase = .running)
    (hb : t.due.boundaries = b :: rest) (hs : t.lineup.scheduled ≠ some b) :
    exec .switchoverTake t = .next { t with due := { t.due with boundaries := rest } } := by
  change Host.Outcome.next (whenRunning switchoverTakeStep t) = _
  rw [whenRunning_of_running hp, switchoverTakeStep, hb]
  exact congrArg _ (if_neg hs)

/-- The boundary of the scheduled switchover is taken (R23). -/
theorem exec_switchoverTake_scheduled {s : State} {b : Nat} {rest : List Nat} (hp : s.phase = .running)
    (hb : s.due.boundaries = b :: rest) (hs : s.lineup.scheduled = some b) :
    exec .switchoverTake s = .next (takeSwitchover b { s with due := { s.due with boundaries := rest } }) := by
  change Host.Outcome.next (whenRunning switchoverTakeStep s) = _
  rw [whenRunning_of_running hp, switchoverTakeStep, hb]
  exact congrArg _ (if_pos hs)

theorem convertReservation_lineup (time : Nat) (body : RecordBody) (s : State) :
    (convertReservation time body s).lineup = s.lineup := by
  have h := congrArg State.lineup (convertReservation_journalOnly time body s)
  exact h

theorem recompute_lineup (a : Nat) (s : State) : (recompute a s).lineup = s.lineup := by
  have h := congrArg State.lineup (recompute_frame a s)
  exact h

theorem evaluateStale_lineup (a : Nat) (s : State) : (evaluateStale a s).lineup = s.lineup := by
  unfold evaluateStale
  split
  · rfl
  · split
    · rfl
    · exact recompute_lineup _ _

theorem switchoverTap_lineup (named : List Nat) (a : Nat) (s : State) :
    (switchoverTap named a s).lineup = s.lineup := by
  unfold switchoverTap
  split
  · rfl
  · split_ifs
    · rfl
    · exact evaluateStale_lineup _ _
    · exact recompute_lineup _ _
    · rfl

/-- A fold whose every step leaves the line-up alone leaves it alone. -/
theorem foldl_lineup {α : Type} {f : State → α → State} (hf : ∀ s x, (f s x).lineup = s.lineup) (xs : List α)
    (s : State) : (xs.foldl f s).lineup = s.lineup := by
  induction xs generalizing s with
  | nil => rfl
  | cons x xs ih => exact (ih _).trans (hf s x)

theorem switchoverTaps_lineup (named : List Nat) (s : State) : (switchoverTaps named s).lineup = s.lineup :=
  foldl_lineup (fun _ _ => switchoverTap_lineup _ _ _) _ _

theorem judgeSourceLost_lineup (i : Nat) (s : State) : (judgeSourceLost i s).lineup = s.lineup := by
  simp only [judgeSourceLost, giveCondition_lineup, modifyInput_lineup]

theorem judgeAllSources_lineup (s : State) : (judgeAllSources s).lineup = s.lineup :=
  foldl_lineup (fun s i => judgeSourceLost_lineup i s) _ s

/-- The notices of a switchover (R24) leave the line-up as the Line-Up Store's own steps made it (R23). -/
theorem takeSwitchover_lineup (b : Nat) (s : State) : (takeSwitchover b s).lineup = switchLineup b s.lineup := by
  unfold takeSwitchover
  rw [judgeAllSources_lineup, switchoverTaps_lineup]
  exact convertReservation_lineup _ _ _

/-- A cancel without a schedule is refused. -/
theorem exec_switchoverCancel_unscheduled {tag : Byte} {s u : State} (h : executes (.switchoverCancel tag) s u)
    (hs : u.lineup.scheduled = none) :
    exec (.switchoverCancel tag) s = replies (.switchoverCancel tag) (refusal .wrongState) u := by
  rw [exec_of_executes (owner := switchoverCancelStep) rfl h, switchoverCancelStep_unscheduled hs]

/-- A cancel of a schedule ends it with its reservation (R22). -/
theorem exec_switchoverCancel_scheduled {tag : Byte} {s u : State} (h : executes (.switchoverCancel tag) s u)
    (hs : u.lineup.scheduled.isSome) (hr : reservationsSound u) :
    exec (.switchoverCancel tag) s = replies (.switchoverCancel tag) (replyOk [])
      (putJournal { u.journal with reserved := u.journal.reserved - 1 }
        { u with lineup :=
            { u.lineup with
              scheduled := none, staged := { u.lineup.staged with version := u.lineup.active.version } } }) := by
  rw [exec_of_executes (owner := switchoverCancelStep) rfl h,
    switchoverCancelStep_scheduled hs (reserved_pos_of_scheduled hr hs)]

/-- Settles O19: a cancelled schedule leaves no boundary to act on, and a switchover taken first leaves no schedule to
cancel. -/
theorem switchoverCancel : Obligations.SwitchoverCancel := by
  intro tag s u c
  refine ⟨exec_switchoverCancel_unscheduled, fun h hs hr => ?_, ?_⟩
  · have running := phase_of_claimed h
    have hcancel := exec_switchoverCancel_scheduled h hs hr
    refine ⟨hcancel, fun t b rest ht hb => ?_⟩
    obtain rfl := Host.Outcome.next.inj (hcancel.symm.trans ht)
    exact exec_switchoverTake_other running hb nofun
  · intro t v b rest hp hb hs ht hv
    obtain rfl := Host.Outcome.next.inj ((exec_switchoverTake_scheduled hp hb hs).symm.trans ht)
    refine exec_switchoverCancel_unscheduled hv ?_
    rw [lineup_of_claimed hv, takeSwitchover_lineup]
    rfl

end Sys2Proof.Machine
end

section
/-! SUPPORT. The Tap Directory's poll requests: what POLL_START answers in each state of the scheduler. -/

namespace Sys2Proof.Machine

/-! ### POLL_START (R62) -/

theorem pollStartStep_running {u : State} (h : u.sched.state = .running) :
    pollStartStep u = (u, refusal .wrongState) := if_pos h

/-- Of a scheduler that is STOPPED or SUSPENDING the state alone changes. -/
theorem pollStartStep_notRunning {u : State} (h : u.sched.state ≠ .running) :
    pollStartStep u = ({ u with sched := { u.sched with state := .running } }, replyOk []) := if_neg h

/-- Settles O29, by the two cases of the owner's step. -/
theorem pollStart : Obligations.PollStart := by
  intro tag s u c h
  rw [exec_of_executes (owner := pollStartStep) rfl h]
  by_cases running : u.sched.state = .running
  · rw [pollStartStep_running running, if_pos running]
  · rw [pollStartStep_notRunning running, if_neg running]

end Sys2Proof.Machine
end

section
/-! SUPPORT. The Account Store: what a request on an account answers by the number checks, Table 5-3's moves, and the
first condition that keeps an account from being closed. -/

namespace Sys2Proof.Machine

/-! ### The number checks (section 5.3) -/

theorem accountInRange_iff {k : Nat} : accountInRange k = true ↔ 1 ≤ k ∧ k ≤ 99999999 := by
  simp [accountInRange]

theorem withAccount_outOfRange {k : Nat} {u : State} {own : Account → State × Reply}
    (hk : ¬(1 ≤ k ∧ k ≤ 99999999)) : withAccount k u own = (u, refusal .outOfRange) := by
  rw [← accountInRange_iff] at hk
  simp [withAccount, hk]

theorem withAccount_notFound {k : Nat} {u : State} {own : Account → State × Reply}
    (hk : 1 ≤ k ∧ k ≤ 99999999) (ha : findAccount k u.accounts = none) :
    withAccount k u own = (u, refusal .notFound) := by
  simp [withAccount, accountInRange_iff.2 hk, ha]

theorem withAccount_found {k : Nat} {u : State} {own : Account → State × Reply} {a : Account}
    (hk : 1 ≤ k ∧ k ≤ 99999999) (ha : findAccount k u.accounts = some a) : withAccount k u own = own a := by
  simp [withAccount, accountInRange_iff.2 hk, ha]

/-- A request on an account that comes to execution: the number checks in their order, and then the request's own
step on the record found. -/
theorem exec_withAccount {c : Instr} {k : Nat} {own : State → Account → State × Reply} {s u : State}
    (hc : exec c s = .next (serve c (fun v => withAccount k v (own v)) s)) (h : executes c s u) :
    (¬(1 ≤ k ∧ k ≤ 99999999) → exec c s = replies c (refusal .outOfRange) u) ∧
    (1 ≤ k → k ≤ 99999999 →
      (findAccount k u.accounts = none → exec c s = replies c (refusal .notFound) u) ∧
      (∀ a, findAccount k u.accounts = some a → exec c s = replies c (own u a).2 (own u a).1)) := by
  rw [exec_of_executes hc h]
  refine ⟨fun hk => ?_, fun hlow hhigh => ⟨fun ha => ?_, fun a ha => ?_⟩⟩
  · rw [withAccount_outOfRange hk]
  · rw [withAccount_notFound ⟨hlow, hhigh⟩ ha]
  · rw [withAccount_found ⟨hlow, hhigh⟩ ha]

/-! ### Service states and entitlement (R77, R78) -/

/-- A service-state request that comes to execution, for every row of Table 5-3. -/
theorem exec_accountMove {c : Instr} {takenIn : List AccountState} {target : AccountState} {k : Nat} {s u : State}
    (hc : exec c s = .next (serve c (accountMove takenIn target k) s)) (h : executes c s u) :
    (¬(1 ≤ k ∧ k ≤ 99999999) → exec c s = replies c (refusal .outOfRange) u) ∧
    (1 ≤ k → k ≤ 99999999 →
      (findAccount k u.accounts = none → exec c s = replies c (refusal .notFound) u) ∧
      (∀ a, findAccount k u.accounts = some a →
        (a.state ∉ takenIn → exec c s = replies c (refusal .wrongState) u) ∧
        (a.state ∈ takenIn →
          exec c s = replies c (replyOk [.uint 1 (accountStateCode target)])
            (recompute a.address (changeAccount k (fun r => { r with state := target }) u))))) := by
  obtain ⟨hrange, hnumber⟩ := exec_withAccount hc h
  refine ⟨hrange, fun hlow hhigh => ?_⟩
  obtain ⟨habsent, hfound⟩ := hnumber hlow hhigh
  refine ⟨habsent, fun a ha => ⟨fun hstate => ?_, fun hstate => ?_⟩⟩
  · rw [hfound a ha, if_neg (by simpa using hstate)]
  · rw [hfound a ha, if_pos (by simpa using hstate)]
    rfl

/-- Settles O38: each row of Table 5-3 is one use of the law of the moves, and ACCOUNT_TIERS meets the number checks
alone. -/
theorem serviceStatesAndEntitlement : Obligations.ServiceStatesAndEntitlement := by
  refine ⟨?move, ?tiers⟩
  case move =>
    intro tag k s u c takenIn target code hrow h
    simp only [List.mem_cons, Prod.mk.injEq, List.not_mem_nil, or_false] at hrow
    obtain ⟨rfl, rfl, rfl, rfl⟩ | ⟨rfl, rfl, rfl, rfl⟩ | ⟨rfl, rfl, rfl, rfl⟩ | ⟨rfl, rfl, rfl, rfl⟩ := hrow
    · exact exec_accountMove rfl h
    · exact exec_accountMove rfl h
    · exact exec_accountMove rfl h
    · exact exec_accountMove rfl h
  case tiers =>
    intro tag k tiers s u c h
    exact exec_withAccount rfl h

/-! ### ACCOUNT_CLOSE (R82) -/

/-- The conditions of R82 in the order listed. -/
theorem closeObstacle_eq (a : Account) :
    closeObstacle a =
      if a.state ≠ .cut then some 0
      else if a.balance ≠ 0 then some 1
      else if a.purchases ≠ [] then some 2
      else if a.latch ≠ .cut ∧ a.latch ≠ .none then some 3
      else none := by
  cases hlatch : a.latch <;> simp [closeObstacle, hlatch]

/-- The state after the close of account `a` (R82): the record freed, its port vacant and the tap recomputed. -/
abbrev closedState (k : Nat) (a : Account) (u : State) : State :=
  recompute a.address { u with
    accounts := u.accounts.filter fun r => r.number ≠ k,
    taps := u.taps.map fun r =>
      if r.address = a.address then { r with ports := vecModify r.ports (a.port - 1) fun _ => none } else r }

theorem recompute_unbound_eq_closedState (k : Nat) (a : Account) (u : State) :
    recompute a.address (bindPort a.address a.port none { u with accounts := u.accounts.filter (·.number != k) }) =
      closedState k a u := by
  have hkept : u.accounts.filter (·.number != k) = u.accounts.filter fun r => r.number ≠ k :=
    List.filter_congr fun r _ => by simp [bne, beq_eq_decide]
  rw [hkept]
  rfl

theorem accountCloseStep_refused {k condition : Nat} {u : State} {a : Account} (hk : 1 ≤ k ∧ k ≤ 99999999)
    (ha : findAccount k u.accounts = some a) (ho : closeObstacle a = some condition) :
    accountCloseStep k u = (u, { status := .wrongState, fields := [.uint 1 condition] }) := by
  simp only [accountCloseStep, withAccount_found hk ha, ho, byte1]

theorem accountCloseStep_taken {k : Nat} {u : State} {a : Account} (hk : 1 ≤ k ∧ k ≤ 99999999)
    (ha : findAccount k u.accounts = some a) (ho : closeObstacle a = none) :
    accountCloseStep k u =
      (if a.overflow then judgeOverflow (closedState k a u) else closedState k a u, replyOk []) := by
  simp only [accountCloseStep, withAccount_found hk ha, ho, recompute_unbound_eq_closedState]

/-- Settles O39: the number checks, and then the conditions of R82 one after the other. -/
theorem accountClose : Obligations.AccountClose := by
  intro tag k s u c refused h
  have hexec := exec_of_executes (owner := accountCloseStep k) rfl h
  obtain ⟨hrange, hnumber⟩ := exec_withAccount rfl h
  refine ⟨hrange, fun hlow hhigh => ⟨(hnumber hlow hhigh).1, fun a ha => ?_⟩⟩
  have hobstacle := closeObstacle_eq a
  rw [hexec]
  split_ifs at hobstacle ⊢ with hstate hbalance hpurchases hlatch hoverflow
  · rw [accountCloseStep_refused ⟨hlow, hhigh⟩ ha hobstacle]
  · rw [accountCloseStep_refused ⟨hlow, hhigh⟩ ha hobstacle]
  · rw [accountCloseStep_refused ⟨hlow, hhigh⟩ ha hobstacle]
  · rw [accountCloseStep_refused ⟨hlow, hhigh⟩ ha hobstacle]
  · rw [accountCloseStep_taken ⟨hlow, hhigh⟩ ha hobstacle, if_pos hoverflow]
    rfl
  · rw [accountCloseStep_taken ⟨hlow, hhigh⟩ ha hobstacle, if_neg hoverflow]

end Sys2Proof.Machine
end

section
/-! SUPPORT. Runs of plain writes and the Meter's CYCLE_CLOSE: the batch is the writing of its records one after the
other, with the money fields of its accounts cleared. -/

namespace Sys2Proof.Machine

/-! ### Records written one after the other (R163, R165, R170) -/

/-- The state after plain writes of `bodies` one after the other. -/
def writeAll (time : Nat) (bodies : List RecordBody) (s : State) : State :=
  bodies.foldl (fun u body => plainWrite time body u) s

theorem writeAll_cons (time : Nat) (body : RecordBody) (bodies : List RecordBody) (s : State) :
    writeAll time (body :: bodies) s = writeAll time bodies (plainWrite time body s) := rfl

/-- The records of `bodies` under consecutive sequence numbers from `q` (R163). -/
def recordsFrom (q time : Nat) : List RecordBody → List JournalRec
  | [] => []
  | body :: bodies => { sequence := q, time := time, body := body } :: recordsFrom (nextSequence q) time bodies

theorem recordsFrom_contents (q time : Nat) (bodies : List RecordBody) :
    (recordsFrom q time bodies).map (fun r => (r.time, r.body)) = bodies.map fun body => (time, body) := by
  induction bodies generalizing q with
  | nil => rfl
  | cons body bodies ih => simp only [recordsFrom, List.map_cons, ih]

theorem recordsFrom_sequences (q time : Nat) (bodies : List RecordBody) :
    (recordsFrom q time bodies).map (·.sequence) = (List.range bodies.length).map fun i => nextSequence^[i] q := by
  induction bodies generalizing q with
  | nil => rfl
  | cons body bodies ih =>
    rw [recordsFrom, List.map_cons, ih, List.length_cons, List.range_succ_eq_map, List.map_cons, List.map_map]
    rfl

theorem plainWrite_of_free {s : State} (h : 1 ≤ journalFree s.journal) (time : Nat) (body : RecordBody) :
    plainWrite time body s = putJournal (appendRecord time body s.journal) s := if_pos h

/-- A write takes one free slot. -/
theorem journalFree_plainWrite {n : Nat} {s : State} (h : n + 1 ≤ journalFree s.journal) (time : Nat)
    (body : RecordBody) : n ≤ journalFree (plainWrite time body s).journal := by
  rw [plainWrite_of_free (by omega)]
  simp only [journalFree, journalHeld, putJournal_journal, appendRecord, List.length_append, List.length_singleton]
    at h ⊢
  omega

theorem clock_of_journalOnly {s t : State} (h : journalOnly s t) : t.clock = s.clock := (congrArg State.clock h :)

theorem accounts_of_journalOnly {s t : State} (h : journalOnly s t) : t.accounts = s.accounts :=
  (congrArg State.accounts h :)

theorem meter_of_journalOnly {s t : State} (h : journalOnly s t) : t.meter = s.meter := (congrArg State.meter h :)

theorem journalOnly_trans {s t u : State} (h : journalOnly s t) (k : journalOnly t u) : journalOnly s u :=
  (congrArg (fun v : State => { v with journal := s.journal, alarms := s.alarms }) k :).trans h

/-- The journal takes no notice of an account's record. -/
theorem plainWrite_changeAccount (time : Nat) (body : RecordBody) (k : Nat) (f : Account → Account) (s : State) :
    plainWrite time body (changeAccount k f s) = changeAccount k f (plainWrite time body s) := by
  unfold plainWrite
  rw [changeAccount_journal, apply_ite (changeAccount k f)]
  rfl

theorem writeAll_changeAccount (time : Nat) (bodies : List RecordBody) (k : Nat) (f : Account → Account) (s : State) :
    writeAll time bodies (changeAccount k f s) = changeAccount k f (writeAll time bodies s) := by
  induction bodies generalizing s with
  | nil => rfl
  | cons body bodies ih => rw [writeAll_cons, writeAll_cons, plainWrite_changeAccount, ih]

theorem writeAll_journalOnly (time : Nat) (bodies : List RecordBody) (s : State) :
    journalOnly s (writeAll time bodies s) := by
  induction bodies generalizing s with
  | nil => rfl
  | cons body bodies ih => exact journalOnly_trans (plainWrite_journalOnly time body s) (ih _)

/-- The journal after writes that all have room: their records at the newest end, and JOURNAL_HIGH judged behind the
last. -/
theorem writeAll_journal (time : Nat) (bodies : List RecordBody) (s : State)
    (room : bodies.length ≤ journalFree s.journal) :
    (writeAll time bodies s).journal = { s.journal with
      records := s.journal.records ++ recordsFrom s.journal.nextSequence time bodies,
      nextSequence := nextSequence^[bodies.length] s.journal.nextSequence,
      high := if bodies.length = 0 then s.journal.high
        else decide (768 ≤ s.journal.records.length + bodies.length + s.journal.reserved) } := by
  induction bodies generalizing s with
  | nil => simp [writeAll, recordsFrom]
  | cons body bodies ih =>
    rw [List.length_cons] at room
    rw [writeAll_cons, ih _ (journalFree_plainWrite room ..), plainWrite_of_free (by omega)]
    simp only [putJournal_journal, appendRecord, journalHigh, journalHeld, recordsFrom, List.append_assoc,
      List.singleton_append, List.length_append, List.length_cons, List.length_nil, Function.iterate_succ_apply]
    cases bodies with
    | nil => simp
    | cons next bodies => simp; omega

/-- The alarms after writes that all have room: JOURNAL_HIGH given behind each record (R170). -/
theorem writeAll_alarms (time : Nat) (bodies : List RecordBody) (s : State)
    (room : bodies.length ≤ journalFree s.journal) :
    (writeAll time bodies s).alarms = alarmsAfter s.clock.time
      ((List.range bodies.length).map fun i =>
        (journalHighSource, decide (768 ≤ s.journal.records.length + i + 1 + s.journal.reserved))) s.alarms := by
  induction bodies generalizing s with
  | nil => rfl
  | cons body bodies ih =>
    rw [List.length_cons] at room
    rw [writeAll_cons, ih _ (journalFree_plainWrite room ..), plainWrite_of_free (by omega)]
    rw [List.length_cons, List.range_succ_eq_map, List.map_cons, alarmsAfter_cons, List.map_map]
    simp [appendRecord, journalHigh, journalHeld, Function.comp_def, Nat.add_comm, Nat.add_left_comm]

/-! ### CYCLE_CLOSE (R138, R139) -/

/-- The money fields of an account cleared (R139). -/
abbrev clearMoney (a : Account) : Account := { a with balance := 0, credited := 0, overflow := false }

/-- The record a CYCLE_CLOSE writes for an account (R139). -/
abbrev closeBody (a : Account) : RecordBody := .cycleClose a.number a.balance a.credited a.overflow

/-- The accounts of a CYCLE_CLOSE's range. -/
abbrev accountsWithin (low high : Nat) (accounts : List Account) : List Account :=
  accounts.filter fun a => low ≤ a.number ∧ a.number ≤ high

theorem findAccount_of_mem {accounts : List Account} (distinct : (accounts.map (·.number)).Nodup) {a : Account}
    (ha : a ∈ accounts) : findAccount a.number accounts = some a := by
  cases hfound : findAccount a.number accounts with
  | none => simpa using List.find?_eq_none.1 hfound a ha
  | some b =>
    obtain ⟨hb, hnumber⟩ := findAccount_some hfound
    rw [List.inj_on_of_nodup_map distinct hb ha hnumber]

theorem closeAccount_of_found {a : Account} {s : State} (h : findAccount a.number s.accounts = some a) :
    closeAccount a.number s = changeAccount a.number clearMoney (plainWrite s.clock.time (closeBody a) s) := by
  simp only [closeAccount, h]

/-- Accounts closed one after the other: no close touches the record another one reads, so the records are those of
the accounts as they stood, and each account's own money fields are cleared. -/
theorem foldl_closeAccount (closed : List Account) (s : State) (distinct : (closed.map (·.number)).Nodup)
    (held : ∀ a ∈ closed, findAccount a.number s.accounts = some a) :
    (closed.map (·.number)).foldl (fun u k => closeAccount k u) s =
      { writeAll s.clock.time (closed.map closeBody) s with
        accounts := s.accounts.map fun x => if x.number ∈ closed.map (·.number) then clearMoney x else x } := by
  induction closed generalizing s with
  | nil => simp [writeAll]
  | cons a rest ih =>
    rw [List.map_cons, List.nodup_cons] at distinct
    obtain ⟨absent, distinct⟩ := distinct
    have first := closeAccount_of_found (held a (.head _))
    have held' : ∀ b ∈ rest, findAccount b.number (closeAccount a.number s).accounts = some b := by
      intro b hb
      have other : b.number ≠ a.number := fun h => absent (h ▸ List.mem_map_of_mem hb)
      rw [first, changeAccount_accounts, accounts_of_journalOnly (plainWrite_journalOnly ..),
        findAccount_modifyAccount _ _ clearMoney (fun _ => rfl), held b (.tail _ hb), Option.map_some, if_neg other]
    rw [List.map_cons, List.foldl_cons, ih _ distinct held', first, writeAll_changeAccount, changeAccount_clock,
      clock_of_journalOnly (plainWrite_journalOnly ..), changeAccount_accounts,
      accounts_of_journalOnly (plainWrite_journalOnly ..)]
    have accounts : ((modifyAccount a.number clearMoney s.accounts).map fun x =>
          if x.number ∈ rest.map (·.number) then clearMoney x else x) =
        s.accounts.map fun x => if x.number ∈ a.number :: rest.map (·.number) then clearMoney x else x := by
      rw [modifyAccount, List.map_map]
      refine List.map_congr_left fun x _ => ?_
      by_cases hx : x.number = a.number
      · simp [hx, absent]
      · simp [hx]
    rw [accounts]
    rfl

/-- The range check of R138. -/
abbrev cycleRange (low high : Nat) : Prop :=
  (1 ≤ low ∧ low ≤ 99999999) ∧ (1 ≤ high ∧ high ≤ 99999999) ∧ low ≤ high

theorem not_cycleRange_iff {low high : Nat} :
    (!accountInRange low || !accountInRange high || decide (high < low)) = true ↔
      ¬cycleRange low high := by
  rw [cycleRange, ← accountInRange_iff, ← accountInRange_iff]
  cases accountInRange low <;> cases accountInRange high <;> simp

/-- The records of a CYCLE_CLOSE: one for each account of the range, in ascending order (R139). -/
abbrev cycleRecords (low high : Nat) (u : State) : List JournalRec :=
  recordsFrom u.journal.nextSequence u.clock.time ((accountsWithin low high u.accounts).map closeBody)

/-- The state with the records of a CYCLE_CLOSE written. -/
abbrev cycleWritten (low high : Nat) (u : State) : State :=
  writeAll u.clock.time ((accountsWithin low high u.accounts).map closeBody) u

theorem cycleWritten_journalOnly (low high : Nat) (u : State) : journalOnly u (cycleWritten low high u) :=
  writeAll_journalOnly _ _ u

/-- The state after a CYCLE_CLOSE that is taken whole: its records written, its accounts' money cleared, and
BALANCE_OVERFLOW judged (R139, R134). -/
def cycleClosed (low high : Nat) (u : State) : State :=
  judgeOverflow { cycleWritten low high u with
    accounts := u.accounts.map fun a => if low ≤ a.number ∧ a.number ≤ high then clearMoney a else a }

/-- The batch over rising numbers closes each account of the range once, and no other. -/
theorem judgeOverflow_foldl_closeAccount (low high : Nat) {u : State} (hrising : rising (u.accounts.map (·.number))) :
    judgeOverflow (((accountsWithin low high u.accounts).map (·.number)).foldl (fun v k => closeAccount k v) u) =
      cycleClosed low high u := by
  have distinct : (u.accounts.map (·.number)).Nodup := hrising.imp Nat.ne_of_lt
  have accounts : (u.accounts.map fun x =>
        if x.number ∈ (accountsWithin low high u.accounts).map (·.number) then clearMoney x else x) =
      u.accounts.map fun a => if low ≤ a.number ∧ a.number ≤ high then clearMoney a else a := by
    refine List.map_congr_left fun x hx => if_congr ?_ rfl rfl
    simp only [List.mem_map, List.mem_filter, decide_eq_true_eq]
    exact ⟨fun ⟨y, ⟨_, hy⟩, heq⟩ => heq ▸ hy, fun h => ⟨x, ⟨hx, h⟩, rfl⟩⟩
  rw [foldl_closeAccount _ _ (distinct.sublist (List.filter_sublist.map _))
    fun a ha => findAccount_of_mem distinct (List.mem_of_mem_filter ha), accounts]
  rfl

/-- A CYCLE_CLOSE touches accounts, journal, meter and alarms. -/
theorem cycleClosed_frame (low high : Nat) (u : State) :
    { cycleClosed low high u with
      accounts := u.accounts, journal := u.journal, meter := u.meter, alarms := u.alarms } = u :=
  (congrArg (fun v : State => { v with accounts := u.accounts, meter := u.meter })
    (cycleWritten_journalOnly low high u) :)

theorem cycleClosed_meter (low high : Nat) (u : State) :
    (cycleClosed low high u).meter =
      { u.meter with balanceOverflow := (cycleClosed low high u).accounts.any (·.overflow) } := by
  rw [← meter_of_journalOnly (cycleWritten_journalOnly low high u)]
  rfl

/-- The Alarm Controller takes the changes of the writes, and then BALANCE_OVERFLOW as judged. -/
theorem cycleClosed_alarms (low high : Nat) (u : State) :
    (cycleClosed low high u).alarms =
      alarmsGive u.clock.time balanceOverflowSource (cycleClosed low high u).meter.balanceOverflow
        (cycleWritten low high u).alarms := by
  rw [cycleClosed, judgeOverflow_alarms]
  exact congrArg (fun clock : Clock => alarmsGive clock.time _ _ _)
    (clock_of_journalOnly (cycleWritten_journalOnly low high u) :)

section
variable {low high : Nat} {u : State} (room : (accountsWithin low high u.accounts).length ≤ journalFree u.journal)
include room

theorem cycleWritten_journal :
    (cycleWritten low high u).journal = { u.journal with
      records := u.journal.records ++ cycleRecords low high u,
      nextSequence := nextSequence^[(accountsWithin low high u.accounts).length] u.journal.nextSequence,
      high := if (accountsWithin low high u.accounts).length = 0 then u.journal.high
        else decide (768 ≤ u.journal.records.length + (accountsWithin low high u.accounts).length
          + u.journal.reserved) } := by
  rw [← List.length_map closeBody] at room ⊢
  exact writeAll_journal _ _ u room

theorem cycleWritten_alarms :
    (cycleWritten low high u).alarms = alarmsAfter u.clock.time
      ((List.range (accountsWithin low high u.accounts).length).map fun i =>
        (journalHighSource, decide (768 ≤ u.journal.records.length + i + 1 + u.journal.reserved))) u.alarms := by
  rw [← List.length_map closeBody] at room ⊢
  exact writeAll_alarms _ _ u room

end

theorem cycleRecords_contents (low high : Nat) (u : State) :
    (cycleRecords low high u).map (fun r => (r.time, r.body)) =
      (accountsWithin low high u.accounts).map fun a => (u.clock.time, closeBody a) := by
  rw [recordsFrom_contents, List.map_map]
  rfl

theorem cycleRecords_sequences (low high : Nat) (u : State) :
    (cycleRecords low high u).map (·.sequence) =
      (List.range (accountsWithin low high u.accounts).length).map fun i =>
        nextSequence^[i] u.journal.nextSequence := by
  rw [recordsFrom_sequences, List.length_map]

theorem cycleCloseStep_outOfRange {low high : Nat} {u : State} (hr : ¬cycleRange low high) :
    cycleCloseStep low high u = (u, refusal .outOfRange) :=
  if_pos (not_cycleRange_iff.2 hr)

theorem filter_within_eq_accountsWithin (low high : Nat) (accounts : List Account) :
    (accounts.filter fun a => within low high a.number) = accountsWithin low high accounts :=
  List.filter_congr fun a _ => by simp [within]

/-- A range with more accounts than free slots is refused with both counts (R138). -/
theorem cycleCloseStep_full {low high : Nat} {u : State} (hr : cycleRange low high)
    (hfull : journalFree u.journal < (accountsWithin low high u.accounts).length) :
    cycleCloseStep low high u =
      (u, { status := .journalFull,
            fields := [.uint 2 (accountsWithin low high u.accounts).length, .uint 2 (journalFree u.journal)] }) := by
  have range := not_cycleRange_iff.not.2 (not_not.2 hr)
  simp only [cycleCloseStep, if_neg range, filter_within_eq_accountsWithin, List.length_map, if_pos hfull]
  rfl

theorem cycleCloseStep_taken {low high : Nat} {u : State} (hr : cycleRange low high)
    (hroom : (accountsWithin low high u.accounts).length ≤ journalFree u.journal)
    (hrising : rising (u.accounts.map (·.number))) :
    cycleCloseStep low high u =
      (cycleClosed low high u,
        replyOk (.uint 2 (accountsWithin low high u.accounts).length ::
          if (accountsWithin low high u.accounts).length = 0 then [.uint 1 0]
          else [.uint 1 1, .uint 4 u.journal.nextSequence])) := by
  have range := not_cycleRange_iff.not.2 (not_not.2 hr)
  simp only [cycleCloseStep, if_neg range, filter_within_eq_accountsWithin, List.length_map,
    if_neg (Nat.not_lt.2 hroom), judgeOverflow_foldl_closeAccount low high hrising]
  cases accountsWithin low high u.accounts <;> rfl

/-- Settles O44: the checks by the equations of CYCLE_CLOSE's step, and the batch as a run of plain writes that all have
room. -/
theorem cycleClose : Obligations.CycleClose := by
  intro tag low high s u c chosen k free inRange h
  rw [exec_of_executes (owner := cycleCloseStep low high) rfl h]
  refine ⟨fun hr => ?_, fun hr hfull => ?_, fun hr hroom hrising => ?_⟩
  · rw [cycleCloseStep_outOfRange hr]
  · rw [cycleCloseStep_full hr hfull]
    rfl
  · rw [cycleCloseStep_taken hr hroom hrising]
    have journal : (cycleClosed low high u).journal = _ := cycleWritten_journal hroom
    have alarms := cycleClosed_alarms low high u
    refine ⟨cycleClosed low high u, cycleRecords low high u, rfl, rfl, congrArg Journal.records journal,
      cycleRecords_contents low high u, cycleRecords_sequences low high u, congrArg Journal.nextSequence journal,
      (congrArg Journal.reserved journal :), (congrArg Journal.high journal :), cycleClosed_meter low high u, ?_,
      ?_, cycleClosed_frame low high u⟩
    · rw [alarms, condition_alarmsGive _ _ _ _ _ (by decide), if_pos rfl]
    · rw [alarms, cycleWritten_alarms hroom, alarmsAfter_append]
      rfl

end Sys2Proof.Machine
end

section
/-! SUPPORT. The Billing Journal's release: what the search for a record finds, what JOURNAL_RELEASE answers in each
case, and that no sequence number stands twice in a journal that is sound. -/

namespace Sys2Proof.Machine

/-! ### The search of JOURNAL_RELEASE (R169) -/

theorem recordsAfter_of_absent {q : Nat} {records : List JournalRec} (h : ∀ r ∈ records, r.sequence ≠ q) :
    recordsAfter q records = none := by
  induction records with
  | nil => rfl
  | cons r rest ih =>
    obtain ⟨hr, hrest⟩ := List.forall_mem_cons.1 h
    rw [recordsAfter, if_neg hr, ih hrest]

theorem recordsAfter_of_oldest {q : Nat} {older newer : List JournalRec} {r : JournalRec} (hr : r.sequence = q)
    (h : ∀ x ∈ older, x.sequence ≠ q) : recordsAfter q (older ++ r :: newer) = some newer := by
  induction older with
  | nil => exact if_pos hr
  | cons x older ih =>
    obtain ⟨hx, holder⟩ := List.forall_mem_cons.1 h
    rw [List.cons_append, recordsAfter, if_neg hx, ih holder]

/-! ### The cases of JOURNAL_RELEASE -/

theorem journalReleaseStep_zero (u : State) : journalReleaseStep 0 u = (u, refusal .outOfRange) := rfl

theorem journalReleaseStep_absent {q : Nat} {u : State} (hq : q ≠ 0)
    (h : ∀ r ∈ u.journal.records, r.sequence ≠ q) : journalReleaseStep q u = (u, refusal .notFound) := by
  rw [journalReleaseStep, if_neg hq, recordsAfter_of_absent h]

/-- The record named and the older ones leave; the counts of the reply are those of the records kept. -/
theorem journalReleaseStep_held {q : Nat} {u : State} {older newer : List JournalRec} {r : JournalRec} (hq : q ≠ 0)
    (hu : u.journal.records = older ++ r :: newer) (hr : r.sequence = q) (h : ∀ x ∈ older, x.sequence ≠ q) :
    journalReleaseStep q u =
      (putJournal { u.journal with records := newer } u,
        replyOk (byte2 (older.length + 1) ++ optionalField byte4 (newer.head?.map (·.sequence)) ++
          byte2 newer.length ++ byte2 (1024 - newer.length - u.journal.reserved))) := by
  have hafter : recordsAfter q u.journal.records = some newer := hu ▸ recordsAfter_of_oldest hr h
  have hleft : journalHeld u.journal - newer.length = older.length + 1 := by
    rw [journalHeld, hu, List.length_append, List.length_cons]
    omega
  rw [journalReleaseStep, if_neg hq, hafter]
  simp only [hleft]
  rfl

/-! ### Sequence numbers (R162, R163) -/

/-- Before a full round the numbers count on, or have passed 4,294,967,295 once. -/
theorem iterate_nextSequence_cases (q : Nat) {k : Nat} (h : k ≤ 4294967295) :
    nextSequence^[k] q = q + k ∨ q ≤ 4294967295 ∧ nextSequence^[k] q + 4294967295 = q + k := by
  induction k with
  | zero => exact .inl rfl
  | succ k ih =>
    rw [Function.iterate_succ_apply', nextSequence]
    obtain hcount | ⟨hq, hwrapped⟩ := ih (by omega)
    · split_ifs
      · exact .inr (by omega)
      · exact .inl (by omega)
    · rw [if_neg (by omega)]
      exact .inr (by omega)

/-- A number does not come again before a full round. -/
theorem iterate_nextSequence_ne (q : Nat) {k : Nat} (hpos : 0 < k) (h : k < 4294967295) : nextSequence^[k] q ≠ q := by
  have := iterate_nextSequence_cases q h.le
  omega

/-- In a sound journal no newer record carries an older one's number: 1024 records are less than a round. -/
theorem sequence_ne_of_newer {j : Journal} (hj : journalSound j) {older newer : List JournalRec} {r : JournalRec}
    (hrecords : j.records = older ++ r :: newer) : ∀ x ∈ newer, x.sequence ≠ r.sequence := by
  obtain ⟨hroom, -, hchain⟩ := hj
  rw [hrecords, List.map_append] at hchain
  have consecutive : ((r :: newer).map (·.sequence)).IsChain fun q p => nextSequence q = p :=
    hchain.left_of_append.right_of_append.imp fun _ _ => Eq.symm
  intro x hx
  obtain ⟨i, hi, rfl⟩ := List.getElem_of_mem hx
  have hcount : nextSequence^[i + 1] r.sequence = newer[i].sequence := by
    simpa using consecutive.iterate_eq_of_apply_eq (i + 1) (by simpa using hi)
  rw [journalHeld, hrecords, List.length_append, List.length_cons] at hroom
  rw [← hcount]
  exact iterate_nextSequence_ne _ (by omega) (by omega)

/-- Settles O48: the checks by the equations of JOURNAL_RELEASE's step, and a repeated release by the numbers of a sound
journal. -/
theorem journalRelease : Obligations.JournalRelease := by
  intro tag q s u c h
  rw [exec_of_executes (owner := journalReleaseStep q) rfl h]
  refine ⟨?zero, fun hq => ⟨fun habsent => ?absent,
    fun older r newer hu hr holder => ⟨?held, fun hj => ?repeated⟩⟩⟩
  case zero =>
    rintro rfl
    rw [journalReleaseStep_zero]
  case absent =>
    rw [journalReleaseStep_absent hq habsent]
  case held =>
    rw [journalReleaseStep_held hq hu hr holder]
    cases newer with
    | nil => rfl
    | cons x newer => rfl
  case repeated =>
    exact hr ▸ sequence_ne_of_newer hj hu

end Sys2Proof.Machine
end

section
/-! SUPPORT. The Alarm Controller's requests on its sources: the model's checks read as conditions, what ALARM_SET makes
of one record, and what ALARM_SET, ALARM_EXPRESS, ALARM_ACK and ALARM_DEFER answer in each case. -/

namespace Sys2Proof.Machine

/-! ### ALARM_SET (R174) -/

/-- The kind that a kind byte of R174's range names. -/
abbrev kindGiven (kind : Nat) : AlarmKind := if kind = 1 then .following else .latching

theorem kindGiven_eq_following_iff {kind : Nat} : kindGiven kind = .following ↔ kind = 1 := by
  simp

theorem alarmKindOf_eq (kind : Nat) : alarmKindOf kind = if kind ≤ 1 then some (kindGiven kind) else none := by
  match kind with
  | 0 => rfl
  | 1 => rfl
  | _ + 2 => simp [alarmKindOf]

/-- The first check of R174. -/
abbrev alarmSetInRange (low high level kind : Nat) : Prop :=
  low ≤ 233 ∧ high ≤ 233 ∧ low ≤ high ∧ level ≤ 3 ∧ kind ≤ 1

/-- A source of low..high stands in an express slot. -/
abbrev rangeInExpress (low high : Nat) (a : Alarms) : Prop :=
  ∃ x ∈ a.express.toList, ∃ i ∈ x, low ≤ i ∧ i ≤ high

theorem inExpress_iff {a : Alarms} {i : Nat} : inExpress a i = true ↔ some i ∈ a.express.toList :=
  List.contains_iff_mem

theorem mem_sourceRange {low high i : Nat} : i ∈ sourceRange low high ↔ i < 234 ∧ low ≤ i ∧ i ≤ high := by
  simp [sourceRange, within_iff]

/-- The model's search of the range for a source in an express slot. -/
theorem any_inExpress_iff {low high : Nat} {a : Alarms} (hhigh : high ≤ 233) :
    (sourceRange low high).any (inExpress a) = true ↔ rangeInExpress low high a := by
  simp only [List.any_eq_true, mem_sourceRange, inExpress_iff]
  constructor
  · rintro ⟨i, ⟨-, hi⟩, hx⟩
    exact ⟨some i, hx, i, rfl, hi⟩
  · rintro ⟨_, hx, i, rfl, hi⟩
    exact ⟨i, ⟨by omega, hi⟩, hx⟩

/-- The records of the sources with those of low..high given a level and a kind. -/
abbrev sourcesGiven (low high level : Nat) (kind : AlarmKind) (a : Alarms) : Vector AlarmRec 234 :=
  vecMapIdx (fun i r => if within low high i then setAlarmRec level kind r else r) a.sources

theorem vecGet_sourcesGiven (low high level : Nat) (kind : AlarmKind) (a : Alarms) {i : Nat} (hi : i < 234) :
    vecGet (sourcesGiven low high level kind a) i coldAlarm =
      if low ≤ i ∧ i ≤ high then setAlarmRec level kind (alarmOf a i) else alarmOf a i := by
  rw [vecGet_vecMapIdx _ _ _ coldAlarm _ hi]
  simp only [within_iff, alarmOf]

section
variable {level : Nat} {kind : AlarmKind} {r : AlarmRec}

/-- The table of R174, row IDLE. -/
theorem setAlarmRec_idle (h : r.state = .idle) :
    setAlarmRec level kind r =
      if level ≠ 0 ∧ r.condition = true then
        { r with level := level, kind := kind, state := .pending, transient := false }
      else { r with level := level, kind := kind } := by
  simp [setAlarmRec, h]

/-- The table of R174, row PENDING. -/
theorem setAlarmRec_pending (h : r.state = .pending) :
    setAlarmRec level kind r =
      if level = 0 ∨ (kind = .following ∧ r.condition = false) then
        { r with level := level, kind := kind, state := .idle, transient := false }
      else { r with level := level, kind := kind } := by
  simp [setAlarmRec, h]

/-- The table of R174, rows OPEN, OPEN_DEFERRED and LATCHED. -/
theorem setAlarmRec_reported (h : r.state = .opened ∨ r.state = .deferred ∨ r.state = .latched) :
    setAlarmRec level kind r =
      if level = 0 then { r with level := level, kind := kind, state := .idle, reported := none }
      else { r with level := level, kind := kind } := by
  obtain h | h | h := h <;> simp only [setAlarmRec, h]

end

section
variable {low high level kind : Nat} {u : State}

theorem alarmSetStep_outOfRange (hr : ¬alarmSetInRange low high level kind) :
    alarmSetStep low high level kind u = (u, refusal .outOfRange) := by
  by_cases hkind : kind ≤ 1
  · have guard : 233 < low ∨ 233 < high ∨ high < low ∨ 3 < level := by
      by_contra
      exact hr (by omega)
    simp [alarmSetStep, guard, or_assoc]
  · simp [alarmSetStep, alarmKindOf_eq, hkind]

/-- Once the first check passes, the second alone decides. -/
theorem alarmSetStep_inRange (hr : alarmSetInRange low high level kind) :
    alarmSetStep low high level kind u =
      if level ≠ 3 ∧ rangeInExpress low high u.alarms then (u, refusal .conflict)
      else
        ({ u with alarms := fill u.clock.time { u.alarms with
            sources := sourcesGiven low high level (kindGiven kind) u.alarms } },
          replyOk [.uint 2 (high - low + 1)]) := by
  obtain ⟨hlow, hhigh, hle, hlevel, hkind⟩ := hr
  have guard : ¬(233 < low ∨ 233 < high ∨ high < low ∨ 3 < level) := by omega
  have count : high + 1 - low = high - low + 1 := by omega
  simp only [alarmSetStep, Bool.or_eq_true, decide_eq_true_eq, or_assoc, if_neg guard, alarmKindOf_eq, if_pos hkind,
    Bool.and_eq_true, bne_iff_ne, any_inExpress_iff hhigh, count]
  rfl

end

/-- Settles O50: the checks by the equations of ALARM_SET's step, and each source of the range by the row of its state in
the table of R174. -/
theorem alarmSet : Obligations.AlarmSet := by
  intro tag low high level kind s u c inRange following held given idle h
  rw [exec_of_executes (owner := alarmSetStep low high level kind) rfl h]
  refine ⟨fun hr => ?outOfRange, fun hr hlevel hheld => ?conflict, fun hr hfree =>
    ⟨sourcesGiven low high level (kindGiven kind) u.alarms, ?taken, fun i hi => ?source⟩⟩
  case outOfRange =>
    rw [alarmSetStep_outOfRange hr]
  case conflict =>
    rw [alarmSetStep_inRange hr, if_pos ⟨hlevel, hheld⟩]
  case taken =>
    have free : ¬(level ≠ 3 ∧ rangeInExpress low high u.alarms) := fun ⟨hlevel, hheld⟩ =>
      hfree.elim hlevel fun hnot => hnot hheld
    rw [alarmSetStep_inRange hr, if_neg free]
  case source =>
    intro r
    rw [vecGet_sourcesGiven _ _ _ _ _ hi]
    refine if_congr Iff.rfl ?_ rfl
    cases hstate : r.state with
    | idle => exact setAlarmRec_idle hstate
    | pending =>
      rw [setAlarmRec_pending hstate]
      exact if_congr (by rw [kindGiven_eq_following_iff]) rfl rfl
    | opened => exact setAlarmRec_reported (.inl hstate)
    | deferred => exact setAlarmRec_reported (.inr (.inl hstate))
    | latched => exact setAlarmRec_reported (.inr (.inr hstate))

/-! ### ALARM_EXPRESS (R178) -/

/-- ALARM_EXPRESS's checks in their order, and its outcome. -/
theorem alarmExpressStep_eq (slot : Nat) (source : Option Nat) (u : State) :
    let now := vecGet u.alarms.express slot none
    alarmExpressStep slot source u =
      if ¬(slot ≤ 1 ∧ ∀ i ∈ source, i ≤ 233) then (u, refusal .outOfRange)
      else if ∃ i ∈ source, (alarmOf u.alarms i).level ≠ 3 then (u, refusal .conflict)
      else if source ≠ none ∧ vecGet u.alarms.express (1 - slot) none = source then (u, refusal .conflict)
      else if now ≠ source ∧ ∃ i ∈ now, (alarmOf u.alarms i).state = .opened then (u, refusal .conflict)
      else
        ({ u with alarms := fill u.clock.time { u.alarms with
            express := vecModify u.alarms.express slot fun _ => source } }, replyOk []) := by
  intro now
  have range : (decide (1 < slot) || source.any fun i => decide (233 < i)) = true ↔
      ¬(slot ≤ 1 ∧ ∀ i ∈ source, i ≤ 233) := by
    simp only [Bool.or_eq_true, decide_eq_true_eq, Option.any_eq_true, not_and_or, not_le, not_forall, exists_prop,
      Option.mem_def]
  simp only [alarmExpressStep, range, Option.any_eq_true, Bool.and_eq_true, bne_iff_ne, decide_eq_true_eq,
    Option.isSome_iff_ne_none]
  rfl

/-! ### ALARM_ACK and ALARM_DEFER (R183, R184) -/

/-- A change of one entry is what it makes of the entry that stands there. -/
theorem vecModify_congr {α : Type} {n : Nat} {v : Vector α n} {i : Nat} {f g : α → α} (d : α)
    (h : f (vecGet v i d) = g (vecGet v i d)) : vecModify v i f = vecModify v i g := by
  refine Vector.ext fun j hj => ?_
  rw [← vecGet_of_lt _ j d hj, ← vecGet_of_lt _ j d hj, vecGet_vecModify, vecGet_vecModify]
  by_cases hij : i = j
  · rw [← hij, h]
  · simp only [hij, false_and, if_false]

theorem modifyAlarm_congr {i : Nat} {f g : AlarmRec → AlarmRec} {a : Alarms}
    (h : f (alarmOf a i) = g (alarmOf a i)) : modifyAlarm i f a = modifyAlarm i g a :=
  congrArg (fun sources => { a with sources := sources }) (vecModify_congr coldAlarm h)

/-- The state with source i's record changed by `f` and the queue filled. -/
abbrev alarmChanged (i : Nat) (f : AlarmRec → AlarmRec) (u : State) : State :=
  { u with alarms := fill u.clock.time (modifyAlarm i f u.alarms) }

/-- The model's test that a source is OPEN or OPEN_DEFERRED. -/
theorem opened_or_deferred_iff {state : AlarmState} :
    (decide (state = .opened) || decide (state = .deferred)) = true ↔ ¬(state ≠ .opened ∧ state ≠ .deferred) := by
  rw [Bool.or_eq_true, decide_eq_true_eq, decide_eq_true_eq, not_and_or, not_ne_iff, not_ne_iff]

/-- ALARM_ACK's checks in their order, and its outcome by the condition of the source. -/
theorem alarmAckStep_eq (i : Nat) (u : State) :
    alarmAckStep i u =
      if 233 < i then (u, refusal .outOfRange)
      else if (alarmOf u.alarms i).state ≠ .opened ∧ (alarmOf u.alarms i).state ≠ .deferred then
        (u, refusal .wrongState)
      else if (alarmOf u.alarms i).condition then
        (alarmChanged i (fun x => { x with state := .latched }) u, replyOk [.uint 1 4])
      else (alarmChanged i (fun x => { x with state := .idle, reported := none }) u, replyOk [.uint 1 0]) := by
  have outcome {f : AlarmRec → AlarmRec} (hack : acknowledge (alarmOf u.alarms i) = f (alarmOf u.alarms i)) :
      (changeAlarms (fun a => fill u.clock.time (modifyAlarm i acknowledge a)) u,
        replyOk (byte1 (alarmStateCode (acknowledge (alarmOf u.alarms i)).state))) =
      (alarmChanged i f u, replyOk (byte1 (alarmStateCode (f (alarmOf u.alarms i)).state))) := by
    rw [hack, changeAlarms, modifyAlarm_congr hack]
  simp only [alarmAckStep, opened_or_deferred_iff, ite_not]
  split_ifs with hrange hstate hpresent
  · rfl
  · rfl
  · exact outcome (if_pos hpresent)
  · exact outcome (if_neg hpresent)

/-- ALARM_DEFER's checks in their order, and its outcome. -/
theorem alarmDeferStep_eq (i : Nat) (u : State) :
    alarmDeferStep i u =
      if 233 < i then (u, refusal .outOfRange)
      else if (alarmOf u.alarms i).state = .opened then
        (alarmChanged i (fun x => { x with state := .deferred }) u, replyOk [])
      else (u, refusal .wrongState) := rfl

/-- Settles O52: each request by the equation of its step. -/
theorem expressAcknowledgeDefer : Obligations.ExpressAcknowledgeDefer := by
  refine ⟨?express, fun tag i s u => ⟨fun h => ?acknowledge, fun h => ?defer⟩⟩
  case express =>
    intro tag slot source s u c now h
    rw [exec_of_executes (owner := alarmExpressStep slot source) rfl h, alarmExpressStep_eq]
    split_ifs <;> rfl
  case acknowledge =>
    rw [exec_of_executes (owner := alarmAckStep i) rfl h, alarmAckStep_eq]
    split_ifs <;> rfl
  case defer =>
    rw [exec_of_executes (owner := alarmDeferStep i) rfl h, alarmDeferStep_eq]
    split_ifs <;> rfl

end Sys2Proof.Machine
end

section
/-! SUPPORT. The statements of the family 'other'. The text is compiled in one run: its proofs are elaborated one after
the other, so that no proof that waits for another one holds a thread. -/

set_option Elab.async false

section
/-! SUPPORT. What each operation and each command can change: the blocks of the state it may touch, said once, so that
an invariant of one block is kept by every command that does not touch that block. -/

namespace Sys2Proof.Machine

/-! ### The blocks of the state -/

/-- The blocks of the state, with the deliveries apart by what they carry. -/
inductive Block where
  | phase | storeValid | backupLow | lastReset | clock | lineup | carrier | taps | transponders | sched | accounts
  | commandQueue | nodes | inputs | sample | meter | events | journal | alarms | link | minuteEnds | purchases
  | deliveries | freeCount | pending

/-- A block stands as it was. -/
def Block.same (s t : State) : Block → Prop
  | .phase => t.phase = s.phase
  | .storeValid => t.storeValid = s.storeValid
  | .backupLow => t.backupLow = s.backupLow
  | .lastReset => t.lastReset = s.lastReset
  | .clock => t.clock = s.clock
  | .lineup => t.lineup = s.lineup
  | .carrier => t.carrier = s.carrier
  | .taps => t.taps = s.taps
  | .transponders => t.transponders = s.transponders
  | .sched => t.sched = s.sched
  | .accounts => t.accounts = s.accounts
  | .commandQueue => t.commandQueue = s.commandQueue
  | .nodes => t.nodes = s.nodes
  | .inputs => t.inputs = s.inputs
  | .sample => t.sample = s.sample
  | .meter => t.meter = s.meter
  | .events => t.events = s.events
  | .journal => t.journal = s.journal
  | .alarms => t.alarms = s.alarms
  | .link => t.link = s.link
  | .minuteEnds => t.due.monitorEnds = s.due.monitorEnds ∧ t.due.eventEnds = s.due.eventEnds
  | .purchases => t.due.purchases = s.due.purchases
  | .deliveries => t.due.boundaries = s.due.boundaries ∧ t.due.tallies = s.due.tallies ∧
      t.due.restartStep = s.due.restartStep ∧ t.due.gapRecord = s.due.gapRecord
  | .freeCount => t.freeCount = s.freeCount
  | .pending => t.pending = s.pending

/-- From `s` to `t` at most the blocks listed change. -/
def Changes (bs : List Block) (s t : State) : Prop := ∀ b, b ∉ bs → b.same s t

theorem Block.same_refl (s : State) (b : Block) : b.same s s := by
  cases b <;> simp [Block.same]

theorem Block.same_trans {s t u : State} {b : Block} (h : b.same s t) (k : b.same t u) : b.same s u := by
  cases b <;> simp_all [Block.same]

theorem Changes.refl {bs : List Block} (s : State) : Changes bs s s := fun b _ => Block.same_refl s b

theorem Changes.trans {bs : List Block} {s t u : State} (h : Changes bs s t) (k : Changes bs t u) : Changes bs s u :=
  fun b hb => Block.same_trans (h b hb) (k b hb)

/-- The number of a block, by which lists of blocks are compared. -/
def Block.code (b : Block) : Nat := b.ctorIdx

theorem Block.code_injective {b c : Block} (h : b.code = c.code) : b = c := by
  cases b <;> cases c <;> first | rfl | exact absurd h (by decide)

/-- Whether `b` is one of the blocks `bs`. -/
def Block.isIn (b : Block) (bs : List Block) : Bool := bs.any fun c => b.code == c.code

theorem Block.mem_of_isIn {b : Block} {bs : List Block} (h : b.isIn bs = true) : b ∈ bs := by
  obtain ⟨c, hc, e⟩ := List.any_eq_true.1 h
  exact Block.code_injective (by simpa using e) ▸ hc

theorem Block.not_mem_of_isIn {b : Block} {bs : List Block} (h : b.isIn bs = false) : b ∉ bs := by
  intro hb
  have : b.isIn bs = true := List.any_eq_true.2 ⟨b, hb, by simp⟩
  simp [this] at h

/-- A list of blocks may be replaced by one that covers it; for lists written out the cover is evaluated. -/
theorem Changes.mono {bs cs : List Block} {s t : State} (h : Changes bs s t)
    (cover : (bs.all fun b => b.isIn cs) = true := by rfl) : Changes cs s t :=
  fun b hb => h b fun hbs => hb (Block.mem_of_isIn (List.all_eq_true.1 cover b hbs))

/-- A block that is not among those that change stands. -/
theorem Changes.same {bs : List Block} {s t : State} (h : Changes bs s t) (b : Block)
    (apart : b.isIn bs = false := by rfl) : b.same s t := h b (Block.not_mem_of_isIn apart)

theorem Changes.foldl {α : Type} {bs : List Block} {f : State → α → State} (hf : ∀ s x, Changes bs s (f s x))
    (xs : List α) (s : State) : Changes bs s (xs.foldl f s) := by
  induction xs generalizing s with
  | nil => exact .refl s
  | cons x xs ih => exact (hf s x).trans (ih _)

/-- A step taken only while the part runs. -/
theorem Changes.whenRunning {bs : List Block} {f : State → State} (hf : ∀ s, Changes bs s (f s)) (s : State) :
    Changes bs s (whenRunning f s) := by
  unfold Machine.whenRunning
  split
  · exact hf s
  · exact .refl s

/-- The state `s` with the blocks listed replaced by those of `t`. -/
def overlay (bs : List Block) (t s : State) : State where
  phase := bif Block.isIn .phase bs then t.phase else s.phase
  storeValid := bif Block.isIn .storeValid bs then t.storeValid else s.storeValid
  backupLow := bif Block.isIn .backupLow bs then t.backupLow else s.backupLow
  lastReset := bif Block.isIn .lastReset bs then t.lastReset else s.lastReset
  clock := bif Block.isIn .clock bs then t.clock else s.clock
  lineup := bif Block.isIn .lineup bs then t.lineup else s.lineup
  carrier := bif Block.isIn .carrier bs then t.carrier else s.carrier
  taps := bif Block.isIn .taps bs then t.taps else s.taps
  transponders := bif Block.isIn .transponders bs then t.transponders else s.transponders
  sched := bif Block.isIn .sched bs then t.sched else s.sched
  accounts := bif Block.isIn .accounts bs then t.accounts else s.accounts
  commandQueue := bif Block.isIn .commandQueue bs then t.commandQueue else s.commandQueue
  nodes := bif Block.isIn .nodes bs then t.nodes else s.nodes
  inputs := bif Block.isIn .inputs bs then t.inputs else s.inputs
  sample := bif Block.isIn .sample bs then t.sample else s.sample
  meter := bif Block.isIn .meter bs then t.meter else s.meter
  events := bif Block.isIn .events bs then t.events else s.events
  journal := bif Block.isIn .journal bs then t.journal else s.journal
  alarms := bif Block.isIn .alarms bs then t.alarms else s.alarms
  link := bif Block.isIn .link bs then t.link else s.link
  due :=
    { monitorEnds := bif Block.isIn .minuteEnds bs then t.due.monitorEnds else s.due.monitorEnds,
      eventEnds := bif Block.isIn .minuteEnds bs then t.due.eventEnds else s.due.eventEnds,
      boundaries := bif Block.isIn .deliveries bs then t.due.boundaries else s.due.boundaries,
      tallies := bif Block.isIn .deliveries bs then t.due.tallies else s.due.tallies,
      purchases := bif Block.isIn .purchases bs then t.due.purchases else s.due.purchases,
      restartStep := bif Block.isIn .deliveries bs then t.due.restartStep else s.due.restartStep,
      gapRecord := bif Block.isIn .deliveries bs then t.due.gapRecord else s.due.gapRecord }
  freeCount := bif Block.isIn .freeCount bs then t.freeCount else s.freeCount
  pending := bif Block.isIn .pending bs then t.pending else s.pending

theorem Block.isIn_of_not_mem {b : Block} {bs : List Block} (h : b ∉ bs) : b.isIn bs = false :=
  Bool.eq_false_iff.2 fun hb => h (Block.mem_of_isIn hb)

theorem changes_overlay (bs : List Block) (t s : State) : Changes bs s (overlay bs t s) := by
  intro b hb
  have apart := Block.isIn_of_not_mem hb
  cases b <;> simp [Block.same, overlay, apart]

/-- A state that differs from `s` in the blocks listed alone: for a record update the hypothesis is `rfl`. -/
theorem Changes.of_put {bs : List Block} {s t : State} (h : overlay bs t s = t) : Changes bs s t :=
  h ▸ changes_overlay bs t s

/-- A record update of the blocks listed, and then a step that touches them. -/
theorem Changes.after_put {bs : List Block} {s t u : State} (k : Changes bs t u)
    (h : overlay bs t s = t := by rfl) : Changes bs s u := (Changes.of_put h).trans k

/-! ### Conditions, the journal and the balance update -/

theorem changes_giveCondition (i : Nat) (b : Bool) (s : State) : Changes [.alarms] s (giveCondition i b s) := .of_put rfl

theorem changes_putJournal (j : Journal) (s : State) : Changes [.journal, .alarms] s (putJournal j s) := .of_put rfl

theorem changes_judgeOverflow (s : State) : Changes [.meter, .alarms] s (judgeOverflow s) := .of_put rfl

theorem changes_modifyNode (n : Nat) (f : NodeRec → NodeRec) (s : State) : Changes [.nodes] s (modifyNode n f s) :=
  .of_put rfl

theorem changes_modifyInput (i : Nat) (f : InputRec → InputRec) (s : State) :
    Changes [.inputs] s (modifyInput i f s) := .of_put rfl

theorem changes_modifyTransponder (n : Nat) (f : TransponderRec → TransponderRec) (s : State) :
    Changes [.transponders] s (modifyTransponder n f s) := .of_put rfl

theorem changes_changeAccount (k : Nat) (f : Account → Account) (s : State) :
    Changes [.accounts] s (changeAccount k f s) := .of_put rfl

theorem changes_changeEvent (e : Nat) (f : EventRec → EventRec) (s : State) :
    Changes [.events] s (changeEvent e f s) := .of_put rfl

theorem changes_modifySwitch (a : Nat) (f : SwitchRec → SwitchRec) (s : State) :
    Changes [.taps] s (modifySwitch a f s) := .of_put rfl

theorem changes_freeEvent (e : Nat) (s : State) : Changes [.events] s (freeEvent e s) := .of_put rfl

theorem changes_changeAlarms (f : Alarms → Alarms) (s : State) : Changes [.alarms] s (changeAlarms f s) := .of_put rfl

theorem changes_changeLink (f : Link → Link) (s : State) : Changes [.link] s (changeLink f s) := .of_put rfl

theorem changes_sendPacket (p : Packet) (e : Option Expectation) (s : State) :
    Changes [.carrier] s (sendPacket p e s) := .of_put rfl

theorem changes_judgeSourceLost (i : Nat) (s : State) : Changes [.inputs, .alarms] s (judgeSourceLost i s) :=
  .of_put rfl

theorem changes_giveNodeConditions (n : Nat) (s : State) : Changes [.alarms] s (giveNodeConditions n s) := by
  unfold giveNodeConditions
  dsimp only
  split
  · exact .of_put rfl
  · exact .of_put rfl

theorem changes_plainWrite (time : Nat) (body : RecordBody) (s : State) :
    Changes [.journal, .alarms] s (plainWrite time body s) := by
  obtain ⟨-, h⟩ | ⟨-, h⟩ := plainWrite_cases time body s
  · exact h.symm ▸ changes_putJournal _ _
  · exact h.symm ▸ .refl _

theorem changes_takeReservation (s : State) : Changes [.journal, .alarms] s (takeReservation s) := by
  obtain ⟨-, h⟩ | ⟨-, h⟩ := takeReservation_cases s
  · exact h.symm ▸ changes_putJournal _ _
  · exact h.symm ▸ .refl _

theorem changes_releaseReservation (s : State) : Changes [.journal, .alarms] s (releaseReservation s) := by
  obtain ⟨-, h⟩ | ⟨-, h⟩ := releaseReservation_cases s
  · exact h.symm ▸ changes_putJournal _ _
  · exact h.symm ▸ .refl _

theorem changes_convertReservation (time : Nat) (body : RecordBody) (s : State) :
    Changes [.journal, .alarms] s (convertReservation time body s) := by
  obtain ⟨-, h⟩ | ⟨-, h⟩ := convertReservation_cases time body s
  · exact h.symm ▸ changes_putJournal _ _
  · exact h.symm ▸ .refl _

/-- The blocks of money: accounts, meter, journal and alarms. -/
abbrev moneyBlocks : List Block := [.accounts, .meter, .journal, .alarms]

theorem changes_balanceUpdate (k : Nat) (amount : Int) (needed : Nat) (s : State) :
    Changes moneyBlocks s (balanceUpdate k amount needed s) := by
  unfold balanceUpdate
  split
  · exact .refl s
  · dsimp only
    split
    · exact (changes_changeAccount _ _ _).mono
    · refine Changes.trans ?_ (changes_judgeOverflow _).mono
      split
      · exact .after_put (changes_plainWrite _ _ _).mono
      · exact .of_put rfl

/-! ### Switching -/

/-- The blocks of switching: the tap records and the command queue. -/
abbrev tapBlocks : List Block := [.taps, .commandQueue]

theorem changes_queueUpdate (a : Nat) (agrees : Bool) (s : State) : Changes tapBlocks s (queueUpdate a agrees s) := by
  unfold queueUpdate
  split
  · exact .refl s
  · exact .of_put rfl
  · exact .of_put rfl
  · exact .refl s

theorem changes_recompute (a : Nat) (s : State) : Changes tapBlocks s (recompute a s) := by
  unfold recompute
  split
  · exact .refl s
  · split
    · exact .refl s
    · exact Changes.trans (changes_modifySwitch _ _ _).mono (changes_queueUpdate _ _ _)

theorem changes_evaluateStale (a : Nat) (s : State) : Changes tapBlocks s (evaluateStale a s) := by
  unfold evaluateStale
  split
  · exact .refl s
  · split
    · exact .refl s
    · exact .after_put (changes_recompute _ _)

theorem changes_compareStatus (a : Nat) (ports : TapSetting) (s : State) :
    Changes (.alarms :: tapBlocks) s (compareStatus a ports s) := by
  unfold compareStatus
  split
  · exact .refl s
  · split
    · exact .of_put rfl
    · exact .of_put rfl

theorem changes_reconcile (a : Nat) (ports : TapSetting) (s : State) :
    Changes (.alarms :: tapBlocks) s (reconcile a ports s) :=
  Changes.trans (changes_evaluateStale a s).mono (changes_compareStatus _ _ _)

theorem changes_judgeDelivery (a : Nat) (result : WindowResult) (s : State) :
    Changes (.alarms :: tapBlocks) s (judgeDelivery a result s) := by
  unfold judgeDelivery
  split
  · exact .refl s
  · split
    · exact .of_put rfl
    · unfold deliveryFailed
      dsimp only
      split
      · split
        · exact .of_put rfl
        · exact .of_put rfl
      · exact .of_put rfl

theorem changes_switchoverTap (named : List Nat) (a : Nat) (s : State) :
    Changes tapBlocks s (switchoverTap named a s) := by
  unfold switchoverTap
  split
  · exact .refl s
  · split_ifs
    · exact .refl s
    · exact changes_evaluateStale _ _
    · exact changes_recompute _ _
    · exact .refl s

theorem changes_switchoverTaps (named : List Nat) (s : State) : Changes tapBlocks s (switchoverTaps named s) :=
  .foldl (fun _ _ => changes_switchoverTap _ _ _) _ _

theorem changes_withdraw (t : TapRec) (s : State) : Changes (.alarms :: tapBlocks) s (withdraw t s) := .of_put rfl

/-! ### The Outage Monitor -/

/-- The blocks that a node's state machine touches: the node records and the alarms. -/
abbrev nodeBlocks : List Block := [.nodes, .alarms]

theorem changes_setNodeState (n : Nat) (state : NodeState) (timer : Option Nat) (s : State) :
    Changes nodeBlocks s (setNodeState n state timer s) :=
  Changes.trans (changes_modifyNode _ _ _).mono (changes_giveNodeConditions _ _).mono

theorem changes_reevaluate (n : Nat) (s : State) : Changes nodeBlocks s (reevaluate n s) := by
  unfold reevaluate
  split
  · exact changes_setNodeState _ _ _ _
  · exact changes_setNodeState _ _ _ _
  · exact changes_setNodeState _ _ _ _
  · split
    · exact changes_setNodeState _ _ _ _
    · exact .refl s
  · split_ifs
    · exact changes_setNodeState _ _ _ _
    · exact changes_setNodeState _ _ _ _
    · exact .refl s

theorem changes_probeAnswer (n probe : Nat) (s : State) : Changes (.taps :: nodeBlocks) s (probeAnswer n probe s) := by
  unfold probeAnswer
  split
  · have released : Changes (.taps :: nodeBlocks) s (releaseSilent n probe s) := .of_put rfl
    dsimp only
    split_ifs
    · exact released.trans (changes_setNodeState _ _ _ _).mono
    · exact released.trans (changes_setNodeState _ _ _ _).mono
    · exact released.trans (changes_setNodeState _ _ _ _).mono
  · exact .refl s

theorem changes_restoreHoldExpiryStep (n : Nat) (s : State) : Changes nodeBlocks s (restoreHoldExpiryStep n s) := by
  unfold restoreHoldExpiryStep
  split
  · exact changes_setNodeState _ _ _ _
  · exact .refl s

theorem changes_fixSample (t : Nat) (s : State) : Changes [.sample] s (fixSample t s) := .of_put rfl

theorem changes_countTallies (s : State) : Changes [.nodes] s (countTallies s) :=
  .foldl (fun _ _ => changes_modifyNode _ _ _) _ _

theorem changes_handTallies (t : Nat) (s : State) : Changes [.nodes, .deliveries] s (handTallies t s) := .of_put rfl

theorem changes_monitorMinuteEndStep (s : State) :
    Changes [.minuteEnds, .sample, .nodes, .deliveries] s (monitorMinuteEndStep s) := by
  unfold monitorMinuteEndStep
  split
  · exact .refl s
  · rename_i m rest _
    have taken : Changes [.minuteEnds, .sample, .nodes, .deliveries] s
        (countTallies (fixSample m.time { s with due := { s.due with monitorEnds := rest } })) :=
      .after_put (changes_countTallies _).mono
    split
    · exact taken.trans (changes_handTallies _ _).mono
    · exact taken

theorem changes_judgePower (n : Nat) (s : State) : Changes nodeBlocks s (judgePower n s) := .of_put rfl

theorem changes_judgeLevelStep (n : Nat) (s : State) : Changes nodeBlocks s (judgeLevelStep n s) := .of_put rfl

theorem changes_takeReading (n : Nat) (reading : Reading) (s : State) :
    Changes nodeBlocks s (takeReading n reading s) :=
  ((changes_modifyNode n _ s).mono.trans (changes_judgePower n _)).trans (changes_judgeLevelStep n _)

theorem changes_loseTransponder (n : Nat) (s : State) : Changes nodeBlocks s (loseTransponder n s) := .of_put rfl

theorem changes_sourceLevelChangeStep (i : Nat) (high : Bool) (s : State) :
    Changes [.inputs] s (sourceLevelChangeStep i high s) := by
  unfold sourceLevelChangeStep
  split
  · exact changes_modifyInput _ _ _
  · exact changes_modifyInput _ _ _

theorem changes_sourceDebounceVerdictStep (i : Nat) (s : State) :
    Changes [.inputs, .alarms] s (sourceDebounceVerdictStep i s) := by
  unfold sourceDebounceVerdictStep
  split
  · exact .refl s
  · exact .of_put rfl

theorem changes_nodeConfigStep (n : Nat) (given : Thresholds) (s : State) :
    Changes nodeBlocks s (nodeConfigStep n given s).1 := by
  unfold nodeConfigStep
  split
  · exact .refl s
  · exact Changes.trans (changes_modifyNode _ _ _).mono
      ((changes_reevaluate _ _).trans (changes_judgePower _ _))

/-! ### The Account Store and the Meter -/

/-- A request on an account touches what its own step on the record touches. -/
theorem changes_withAccount {bs : List Block} {k : Nat} {s : State} {own : Account → State × Reply}
    (h : ∀ a, Changes bs s (own a).1) : Changes bs s (withAccount k s own).1 := by
  unfold withAccount
  split
  · exact .refl s
  · split
    · exact .refl s
    · exact h _

theorem changes_accountOpenStep (k a p : Nat) (tiers : TierSet) (state : Nat) (s : State) :
    Changes (.accounts :: tapBlocks) s (accountOpenStep k a p tiers state s).1 := by
  unfold accountOpenStep
  split
  · exact .refl s
  · split
    · exact .refl s
    · exact .refl s
    · split
      · exact .refl s
      · split
        · exact .refl s
        · split_ifs
          · exact .refl s
          · exact .refl s
          · exact .after_put (changes_recompute _ _).mono

theorem changes_accountMove (takenIn : List AccountState) (target : AccountState) (k : Nat) (s : State) :
    Changes (.accounts :: tapBlocks) s (accountMove takenIn target k s).1 := by
  refine changes_withAccount fun a => ?_
  split
  · exact Changes.trans (changes_changeAccount _ _ _).mono (changes_recompute _ _).mono
  · exact .refl s

theorem changes_accountTiersStep (k : Nat) (tiers : TierSet) (s : State) :
    Changes (.accounts :: tapBlocks) s (accountTiersStep k tiers s).1 :=
  changes_withAccount fun _ =>
    Changes.trans (changes_changeAccount _ _ _).mono (changes_recompute _ _).mono

theorem changes_accountCloseStep (k : Nat) (s : State) :
    Changes ([.accounts, .meter, .alarms] ++ tapBlocks) s (accountCloseStep k s).1 := by
  refine changes_withAccount fun a => ?_
  split
  · exact .refl s
  · have freed : Changes ([.accounts, .meter, .alarms] ++ tapBlocks) s
        (recompute a.address (bindPort a.address a.port none
          { s with accounts := s.accounts.filter (·.number != k) })) :=
      .after_put (changes_recompute _ _).mono
    dsimp only
    split
    · exact freed.trans (changes_judgeOverflow _).mono
    · exact freed

theorem changes_accrue (k tally : Nat) (s : State) : Changes moneyBlocks s (accrue k tally s) := by
  unfold accrue
  split
  · exact .refl s
  · split
    · exact .refl s
    · exact Changes.trans (changes_changeAccount _ _ _).mono
        ((changes_balanceUpdate _ _ _ _).trans (changes_changeAccount _ _ _).mono)

theorem changes_meterAccount (tally : Nat) (t : Tariff) (k : Nat) (s : State) :
    Changes moneyBlocks s (meterAccount tally t k s) :=
  (changes_accrue k tally s).trans (changes_changeAccount _ _ _).mono

theorem changes_takeTally (m : TallyMessage) (s : State) : Changes moneyBlocks s (takeTally m s) :=
  .after_put (.foldl (fun _ _ => changes_meterAccount _ _ _ _) _ _)

theorem changes_meterTallyTakeStep (s : State) : Changes (.deliveries :: moneyBlocks) s (meterTallyTakeStep s) := by
  unfold meterTallyTakeStep
  split
  · exact .refl s
  · exact .after_put (changes_takeTally _ _).mono

theorem changes_gapRecordStep (s : State) : Changes [.deliveries, .journal, .alarms] s (gapRecordStep s) := by
  unfold gapRecordStep
  split
  · dsimp only
    split
    · exact .after_put (changes_plainWrite _ _ _).mono
    · exact .of_put rfl
  · exact .refl s

theorem changes_closeAccount (k : Nat) (s : State) : Changes moneyBlocks s (closeAccount k s) := by
  unfold closeAccount
  split
  · exact .refl s
  · exact Changes.trans (changes_plainWrite _ _ _).mono (changes_changeAccount _ _ _).mono

theorem changes_cycleCloseStep (low high : Nat) (s : State) : Changes moneyBlocks s (cycleCloseStep low high s).1 := by
  unfold cycleCloseStep
  split
  · exact .refl s
  · dsimp only
    split
    · exact .refl s
    · exact Changes.trans (.foldl (fun _ _ => changes_closeAccount _ _) _ _) (changes_judgeOverflow _).mono

/-! ### The Event Table -/

/-- The blocks that purchases and the ending of events touch. -/
abbrev eventBlocks : List Block := .events :: (moneyBlocks ++ tapBlocks)

theorem changes_eventAddStep (e : EventRec) (s : State) : Changes [.events] s (eventAddStep e s).1 := by
  unfold eventAddStep
  repeat' split
  all_goals first
    | exact .refl s
    | exact .of_put rfl

theorem changes_acceptPurchase (a : Account) (e : EventRec) (origin : Origin) (counter : Option Nat) (s : State) :
    Changes eventBlocks s (acceptPurchase a e origin counter s) := by
  unfold acceptPurchase
  dsimp only
  have charged : Changes eventBlocks s (balanceUpdate a.number e.price 2 s) := (changes_balanceUpdate _ _ _ _).mono
  generalize balanceUpdate a.number e.price 2 s = u at charged ⊢
  have journaled := (charged.trans (changes_plainWrite s.clock.time (.purchase a.number e.id e.price origin) u).mono).trans
    (changes_takeReservation _).mono
  generalize takeReservation (plainWrite _ _ u) = v at journaled ⊢
  exact journaled.trans (.after_put (changes_recompute _ _).mono)

theorem changes_returnAnswer (p : PlantPurchase) (verdict : Verdict) (s : State) :
    Changes [.carrier] s (returnAnswer p verdict s) := .of_put rfl

theorem changes_decidePurchase (p : PlantPurchase) (s : State) :
    Changes (.carrier :: eventBlocks) s (decidePurchase p s) := by
  unfold decidePurchase
  split
  · exact (changes_returnAnswer _ _ _).mono
  · exact Changes.trans (changes_acceptPurchase _ _ _ _ _).mono (changes_returnAnswer _ _ _).mono

theorem changes_purchaseDecideStep (s : State) :
    Changes (.purchases :: .carrier :: eventBlocks) s (purchaseDecideStep s) := by
  unfold purchaseDecideStep
  split
  · exact .refl s
  · exact .after_put (changes_decidePurchase _ _).mono

theorem changes_purchaseEnterStep (k e : Nat) (s : State) : Changes eventBlocks s (purchaseEnterStep k e s).1 := by
  unfold purchaseEnterStep
  repeat' split
  all_goals first
    | exact .refl s
    | exact changes_acceptPurchase _ _ _ _ _

theorem changes_refund (k e price : Nat) (cause : RefundCause) (s : State) :
    Changes moneyBlocks s (refund k e price cause s) :=
  (changes_balanceUpdate _ _ _ _).trans (changes_convertReservation _ _ _).mono

theorem changes_dropPurchase (a : Account) (e : Nat) (s : State) :
    Changes (.accounts :: tapBlocks) s (dropPurchase a e s) :=
  Changes.trans (changes_changeAccount _ _ _).mono (changes_recompute _ _).mono

theorem changes_settleHolder (e : EventRec) (k : Nat) (s : State) : Changes eventBlocks s (settleHolder e k s) := by
  unfold settleHolder
  split
  · exact .refl s
  · split
    · exact .refl s
    · refine Changes.trans ?_ (changes_dropPurchase _ _ _).mono
      split
      · exact (changes_refund _ _ _ _ _).mono
      · exact (changes_releaseReservation _).mono

theorem changes_settle (e : EventRec) (s : State) : Changes eventBlocks s (settle e s) :=
  Changes.trans (.foldl (fun u k => changes_settleHolder e k u) e.holders s) (changes_freeEvent _ _).mono

theorem changes_cancelHolder (e : EventRec) (k : Nat) (s : State) : Changes eventBlocks s (cancelHolder e k s) := by
  unfold cancelHolder
  split
  · exact .refl s
  · split
    · exact .refl s
    · exact Changes.trans (changes_refund _ _ _ _ _).mono (changes_dropPurchase _ _ _).mono

theorem changes_eventCancelStep (id : Nat) (s : State) : Changes eventBlocks s (eventCancelStep id s).1 := by
  unfold eventCancelStep
  split
  · exact .refl s
  · split
    · exact .refl s
    · rename_i e _
      exact Changes.trans (.foldl (fun u k => changes_cancelHolder e k u) e.holders s) (changes_freeEvent _ _).mono

theorem changes_handHolders (holders : List Nat) (s : State) : Changes tapBlocks s (handHolders holders s) := by
  refine Changes.foldl (fun u k => ?_) _ _
  split
  · exact changes_recompute _ _
  · exact .refl u

theorem changes_advanceEvent (id : Nat) (f : EventRec → EventRec) (s : State) :
    Changes eventBlocks s (advanceEvent id f s) := by
  unfold advanceEvent
  split
  · exact .refl s
  · dsimp only
    split
    · exact (changes_changeEvent _ _ _).mono
    · exact Changes.trans (changes_changeEvent _ _ _).mono (changes_handHolders _ _).mono

theorem changes_settleAt (t id : Nat) (s : State) : Changes eventBlocks s (settleAt t id s) := by
  unfold settleAt
  split
  · exact .refl s
  · split
    · exact changes_settle _ _
    · exact .refl s

theorem changes_eventAtMinute (t id : Nat) (s : State) : Changes eventBlocks s (eventAtMinute t id s) :=
  have counted : Changes eventBlocks s (changeEvent id (countMinute s.lineup s.sample t) s) :=
    (changes_changeEvent _ _ _).mono
  ((counted.trans (changes_advanceEvent id (advanceOpen t) _)).trans
    (changes_advanceEvent id (advanceClosed t) _)).trans (changes_settleAt t id _)

theorem changes_takeEventMinute (t : Nat) (s : State) : Changes (.sample :: eventBlocks) s (takeEventMinute t s) :=
  Changes.trans (changes_fixSample t s).mono
    (Changes.foldl (bs := eventBlocks) (fun u id => changes_eventAtMinute t id u)
      ((fixSample t s).events.map (·.id)) _).mono

theorem changes_eventMinuteEndStep (s : State) :
    Changes (.minuteEnds :: .sample :: eventBlocks) s (eventMinuteEndStep s) := by
  unfold eventMinuteEndStep
  split
  · exact .refl s
  · exact .after_put (changes_takeEventMinute _ _).mono

theorem changes_eventAtRestart (resetTime restartTime id : Nat) (s : State) :
    Changes eventBlocks s (eventAtRestart resetTime restartTime id s) :=
  Changes.trans (changes_changeEvent id _ s).mono (changes_settleAt restartTime id _)

theorem changes_restartEventStepStep (s : State) :
    Changes (.deliveries :: eventBlocks) s (restartEventStepStep s) := by
  unfold restartEventStepStep
  split
  · dsimp only
    split
    · exact .after_put
        (Changes.foldl (bs := eventBlocks) (fun u id => changes_eventAtRestart _ _ id u) _ _).mono
    · exact .of_put rfl
  · exact .refl s

/-! ### The Tap Directory -/

theorem changes_tapAddStep (address node model : Nat) (s : State) :
    Changes [.taps, .sched] s (tapAddStep address node model s).1 := by
  unfold tapAddStep
  split
  · exact .refl s
  · split
    · exact .refl s
    · split_ifs
      · exact .refl s
      · exact .refl s
      · exact .of_put rfl

theorem changes_setTapState (t : TapRec) (state : UnitState) (s : State) :
    Changes (.taps :: nodeBlocks) s (setTapState t state s) := by
  unfold setTapState
  dsimp only
  split
  · exact .of_put rfl
  · exact .after_put (changes_reevaluate _ _).mono

theorem changes_tapRemoveStep (address : Nat) (s : State) :
    Changes (.sched :: (tapBlocks ++ nodeBlocks)) s (tapRemoveStep address s).1 := by
  unfold tapRemoveStep
  split
  · exact .refl s
  · split
    · exact .refl s
    · split
      · exact .refl s
      · exact .after_put
          (Changes.trans (changes_setTapState _ _ _).mono (changes_withdraw _ _).mono)

theorem changes_transponderSetStep (n : Nat) (address : Option Nat) (s : State) :
    Changes [.transponders, .sched] s (transponderSetStep n address s).1 := by
  unfold transponderSetStep
  split_ifs
  · exact .refl s
  · exact .refl s
  · dsimp only
    split
    · exact .of_put rfl
    · exact .refl s
    · exact .refl s
    · exact .refl s
    · split
      · exact .refl s
      · exact .refl s
    · exact .of_put rfl

theorem changes_look (s : State) : Changes [.sched] s (look s).1 := by
  unfold look
  split
  · exact .of_put rfl
  · exact .of_put rfl

/-- The blocks that a pass end touches. -/
abbrev passBlocks : List Block := .taps :: .transponders :: .sched :: nodeBlocks

theorem changes_passEnd (s : State) : Changes passBlocks s (passEnd s) :=
  .after_put (.foldl (fun _ _ => (changes_loseTransponder _ _).mono) _ _)

theorem changes_pollOffer (s : State) : Changes passBlocks s (pollOffer s).1 := by
  have first := changes_look s
  unfold pollOffer
  split
  · split
    · rename_i h; rw [h] at first; exact first.mono
    · rename_i h
      rw [h] at first
      split
      · exact first.mono
      · exact (first.mono).trans ((changes_passEnd _).trans (changes_look _).mono)
  · exact .refl s

theorem changes_takePoll (p : PollInFlight) (s : State) : Changes [.sched] s (takePoll p s) := .of_put rfl

/-- The blocks that the landing of a reply touches. -/
abbrev landBlocks : List Block := .transponders :: (tapBlocks ++ nodeBlocks)

theorem changes_landTap (t : TapRec) (probe : Bool) (result : WindowResult) (s : State) :
    Changes landBlocks s (landTap t probe result s) := by
  have answered (u : State) (h : Changes landBlocks s u) :
      Changes landBlocks s (if probe then probeAnswer t.node t.address u else u) := by
    split
    · exact h.trans (changes_probeAnswer _ _ _).mono
    · exact h
  unfold landTap
  dsimp only
  split
  · split
    · exact .of_put rfl
    · refine answered _ (.after_put (Changes.trans (changes_setTapState _ _ _).mono
        (changes_reconcile _ _ _).mono))
  · exact .refl s
  · split
    · exact .of_put rfl
    · exact answered _ (.after_put (changes_setTapState _ _ _).mono)
  · split
    · exact .of_put rfl
    · exact .after_put (changes_setTapState _ _ _).mono

theorem changes_landTransponder (n a : Nat) (probe : Bool) (result : WindowResult) (s : State) :
    Changes landBlocks s (landTransponder n a probe result s) := by
  have answered (u : State) (h : Changes landBlocks s u) :
      Changes landBlocks s (if probe then probeAnswer n a u else u) := by
    split
    · exact h.trans (changes_probeAnswer _ _ _).mono
    · exact h
  unfold landTransponder
  dsimp only
  split
  · split
    · exact .of_put rfl
    · exact answered _ (.after_put (changes_takeReading _ _ _).mono)
  · exact .refl s
  · split
    · exact .of_put rfl
    · exact answered _ (.of_put rfl)
  · split
    · exact .of_put rfl
    · exact .of_put rfl

theorem changes_landReply (a : Nat) (probe : Bool) (result : WindowResult) (s : State) :
    Changes landBlocks s (landReply a probe result s) := by
  unfold landReply
  split
  · exact changes_landTap _ _ _ _
  · split
    · exact changes_landTransponder _ _ _ _ _
    · exact .refl s

theorem changes_pollResult (a : Nat) (result : WindowResult) (s : State) :
    Changes (.sched :: landBlocks) s (pollResult a result s) :=
  Changes.trans (changes_landReply _ _ _ _).mono (.of_put rfl)

theorem changes_pollOrderStep (order : Nat) (s : State) : Changes [.sched] s (pollOrderStep order s).1 := by
  unfold pollOrderStep
  split
  · exact .refl s
  · exact .of_put rfl

theorem changes_pollStartStep (s : State) : Changes [.sched] s (pollStartStep s).1 := by
  unfold pollStartStep
  split
  · exact .refl s
  · exact .of_put rfl

theorem changes_pollSuspendStep (s : State) : Changes [.sched] s (pollSuspendStep s).1 := by
  unfold pollSuspendStep
  split
  · exact .of_put rfl
  · exact .refl s

/-! ### The Control Carrier -/

theorem changes_arbitrate (tap : Option TapRec) (poll : Option PollInFlight) (s : State) :
    Changes [.carrier, .taps, .sched] s (arbitrate tap poll s) := by
  unfold arbitrate
  split
  · exact .of_put rfl
  · exact .of_put rfl
  · split
    · exact .of_put rfl
    · exact .of_put rfl
  · exact .of_put rfl
  · exact .of_put rfl

theorem changes_slotOpenStep (s : State) : Changes (.carrier :: passBlocks) s (slotOpenStep s) := by
  unfold slotOpenStep
  split
  · exact .refl s
  · dsimp only
    split
    · exact .of_put rfl
    · exact .after_put
        (Changes.trans (changes_pollOffer _).mono (changes_arbitrate _ _ _).mono)
    · exact .of_put rfl

theorem changes_contentionResult (result : WindowResult) (s : State) :
    Changes [.carrier, .purchases] s (contentionResult result s) := by
  unfold contentionResult
  split
  · split
    · exact .of_put rfl
    · exact .refl s
  · exact .refl s

theorem changes_replyWindowCloseStep (energy : Bool) (message : Option (List Byte)) (s : State) :
    Changes (.carrier :: .purchases :: .sched :: landBlocks) s (replyWindowCloseStep energy message s) := by
  unfold replyWindowCloseStep
  split
  · exact .refl s
  · refine Changes.trans (t := { s with carrier := { s.carrier with expectation := none } }) (.of_put rfl) ?_
    unfold handResult
    split
    · exact (changes_pollResult _ _ _).mono
    · exact (changes_judgeDelivery _ _ _).mono
    · exact (changes_contentionResult _ _).mono

/-- The blocks that the taking of a switchover touches. -/
abbrev switchoverBlocks : List Block := [.lineup, .carrier, .inputs, .journal, .alarms] ++ tapBlocks

theorem changes_takeSwitchover (b : Nat) (s : State) : Changes switchoverBlocks s (takeSwitchover b s) := by
  unfold takeSwitchover
  dsimp only
  have recorded : Changes switchoverBlocks s
      (convertReservation b (.switchover (switchLineup b s.lineup).active.version)
        { s with lineup := switchLineup b s.lineup }) := .after_put (changes_convertReservation _ _ _).mono
  generalize convertReservation _ _ _ = u at recorded ⊢
  have handed : Changes switchoverBlocks s
      (switchoverTaps (movedEvents s.lineup.active (switchLineup b s.lineup).active s.events)
        { u with carrier := { u.carrier with cursor := 0 } }) :=
    recorded.trans (.after_put (changes_switchoverTaps _ _).mono)
  exact handed.trans (.foldl (fun _ _ => (changes_judgeSourceLost _ _).mono) _ _)

theorem changes_switchoverTakeStep (s : State) :
    Changes (.deliveries :: switchoverBlocks) s (switchoverTakeStep s) := by
  unfold switchoverTakeStep
  split
  · exact .refl s
  · dsimp only
    split
    · exact .after_put (changes_takeSwitchover _ _).mono
    · exact .of_put rfl

/-! ### The Line-Up Store -/

theorem changes_lineupPutStep (channel slot source kind : Nat) (tier : Option Nat) (label : List Byte) (s : State) :
    Changes [.lineup] s (lineupPutStep channel slot source kind tier label s).1 := by
  rw [lineupPutStep_eq]
  repeat' split
  all_goals first
    | exact .refl s
    | exact .of_put rfl

theorem changes_lineupDropStep (channel : Nat) (s : State) : Changes [.lineup] s (lineupDropStep channel s).1 := by
  rw [lineupDropStep_eq]
  repeat' split
  all_goals first
    | exact .refl s
    | exact .of_put rfl

theorem changes_tierRateSetStep (target rate : Nat) (s : State) :
    Changes [.lineup] s (tierRateSetStep target rate s).1 := by
  unfold tierRateSetStep
  split_ifs
  · exact .refl s
  · exact .refl s
  · exact .of_put rfl

theorem changes_switchoverScheduleStep (time : Nat) (s : State) :
    Changes [.lineup, .journal, .alarms] s (switchoverScheduleStep time s).1 := by
  unfold switchoverScheduleStep
  repeat' split
  all_goals first
    | exact .refl s
    | exact .after_put (changes_takeReservation _).mono

theorem changes_switchoverCancelStep (s : State) :
    Changes [.lineup, .journal, .alarms] s (switchoverCancelStep s).1 := by
  unfold switchoverCancelStep
  split_ifs
  · exact .after_put (changes_releaseReservation _).mono
  · exact .refl s

/-! ### The journal's and the alarms' requests -/

theorem changes_journalReleaseStep (q : Nat) (s : State) :
    Changes [.journal, .alarms] s (journalReleaseStep q s).1 := by
  unfold journalReleaseStep
  split
  · exact .refl s
  · split
    · exact .refl s
    · exact changes_putJournal _ _

theorem changes_alarmSetStep (low high level kind : Nat) (s : State) :
    Changes [.alarms] s (alarmSetStep low high level kind s).1 := by
  unfold alarmSetStep
  repeat' split
  all_goals first
    | exact .refl s
    | exact .of_put rfl

theorem changes_compositeDefineStep (index operation a b hold : Nat) (s : State) :
    Changes [.alarms] s (compositeDefineStep index operation a b hold s).1 := by
  unfold compositeDefineStep
  repeat' split
  all_goals first
    | exact .refl s
    | exact .of_put rfl

theorem changes_compositeReleaseStep (index : Nat) (s : State) :
    Changes [.alarms] s (compositeReleaseStep index s).1 := by
  unfold compositeReleaseStep
  split_ifs
  · exact .refl s
  · exact .refl s
  · exact changes_changeAlarms _ _

theorem changes_alarmExpressStep (slot : Nat) (source : Option Nat) (s : State) :
    Changes [.alarms] s (alarmExpressStep slot source s).1 := by
  rw [alarmExpressStep_eq]
  repeat' split
  all_goals first
    | exact .refl s
    | exact .of_put rfl

theorem changes_alarmAckStep (i : Nat) (s : State) : Changes [.alarms] s (alarmAckStep i s).1 := by
  rw [alarmAckStep_eq]
  repeat' split
  all_goals first
    | exact .refl s
    | exact .of_put rfl

theorem changes_alarmDeferStep (i : Nat) (s : State) : Changes [.alarms] s (alarmDeferStep i s).1 := by
  rw [alarmDeferStep_eq]
  split_ifs
  · exact .refl s
  · exact .of_put rfl
  · exact .refl s

/-! ### Power, the clock and the Host Link -/

/-- The blocks that a retained reset touches. -/
abbrev retainedBlocks : List Block :=
  [.phase, .lastReset, .clock, .lineup, .carrier, .taps, .transponders, .sched, .accounts, .commandQueue, .nodes, .inputs,
    .sample, .meter, .journal, .alarms, .link, .minuteEnds, .purchases, .deliveries]

/-- The blocks that a cold reset touches: all but the queue of commands and the count of free values. -/
abbrev coldBlocks : List Block := .storeValid :: .backupLow :: .events :: retainedBlocks

theorem changes_coldReset (s : State) : Changes coldBlocks s (coldReset s) := .of_put rfl

theorem changes_retainedReset (kind : ResetKind) (s : State) : Changes retainedBlocks s (retainedReset kind s) :=
  .of_put rfl

theorem changes_stopClock (s : State) : Changes [.clock] s (stopClock s) := by
  unfold stopClock
  split
  · exact .of_put rfl
  · exact .refl s

theorem changes_judgeRetention (s : State) : Changes [.storeValid, .clock, .freeCount] s (judgeRetention s) := by
  obtain h | ⟨-, -, -, h⟩ := judgeRetention_cases s
  · exact h.symm ▸ .refl s
  · exact h.symm ▸ .of_put rfl

theorem changes_mainPowerLossStep (s : State) :
    Changes [.phase, .storeValid, .clock, .freeCount] s (mainPowerLossStep s) := by
  unfold mainPowerLossStep
  split
  · exact .refl s
  · exact Changes.trans (changes_stopClock _).mono
      (.after_put (changes_judgeRetention _).mono)

theorem changes_backupBelowRetentionStep (s : State) :
    Changes [.backupLow, .storeValid, .clock, .freeCount] s (backupBelowRetentionStep s) :=
  .after_put (changes_judgeRetention _).mono

theorem changes_mainPowerReturnStep (s : State) : Changes coldBlocks s (mainPowerReturnStep s) := by
  unfold mainPowerReturnStep
  split
  · split
    · exact (changes_retainedReset _ _).mono
    · exact changes_coldReset _
  · exact .refl s

theorem changes_resetPinStep (s : State) : Changes retainedBlocks s (resetPinStep s) := by
  unfold resetPinStep
  split
  · exact .refl s
  · exact Changes.trans (changes_stopClock _).mono (changes_retainedReset _ _)

theorem changes_rejudge (s : State) : Changes [.journal, .meter, .alarms, .freeCount] s (rejudge s) := by
  unfold rejudge
  dsimp only
  split
  · exact .of_put rfl
  · exact .of_put rfl

theorem changes_restartUpStep (s : State) :
    Changes [.phase, .clock, .link, .deliveries, .journal, .meter, .alarms, .freeCount] s (restartUpStep s) := by
  unfold restartUpStep
  split
  · exact .after_put (changes_rejudge _).mono
  · exact .refl s

theorem changes_reach (t : Nat) (s : State) : Changes [.clock, .minuteEnds, .deliveries] s (reach t s) := by
  unfold reach deliverBoundary
  have emitted : Changes [.clock, .minuteEnds, .deliveries] s
      (if laterBoundary t s.clock then emitMinute t s else s) := by
    split
    · exact .of_put rfl
    · exact .refl s
  generalize (if laterBoundary t s.clock then emitMinute t s else s) = u at emitted ⊢
  split
  · split
    · exact emitted.trans (.of_put rfl)
    · exact emitted
  · exact .refl s

theorem changes_secondTickStep (s : State) :
    Changes [.clock, .minuteEnds, .deliveries, .inputs, .nodes] s (secondTickStep s) := by
  unfold secondTickStep
  split_ifs
  · have counted : Changes [.clock, .minuteEnds, .deliveries, .inputs, .nodes] s
        { s with clock := countSecond s.clock } := .of_put rfl
    have reached : Changes [.clock, .minuteEnds, .deliveries, .inputs, .nodes] s
        (if (countSecond s.clock).time = s.clock.time then { s with clock := countSecond s.clock }
        else reach (countSecond s.clock).time { s with clock := countSecond s.clock }) := by
      split
      · exact counted
      · exact counted.trans (changes_reach _ _).mono
    exact reached.trans (.of_put rfl)
  · exact .of_put rfl
  · exact .refl s

theorem changes_setTimeStep (time : Nat) (s : State) : Changes [.clock] s (setTimeStep time s).1 := by
  unfold setTimeStep
  split_ifs
  · exact .refl s
  · exact .refl s
  · exact .of_put rfl

theorem changes_timeTrimStep (delta : Int) (s : State) :
    Changes [.clock, .minuteEnds] s (timeTrimStep delta s).1 := by
  unfold timeTrimStep
  split_ifs
  · exact .refl s
  · unfold trimTo
    dsimp only
    split
    · exact .of_put rfl
    · exact .of_put rfl

theorem changes_partialFrame (got : List Byte) (s : State) : Changes [.link] s (partialFrame got s) := by
  unfold partialFrame
  dsimp only
  split_ifs
  · exact .of_put rfl
  · exact .of_put rfl
  · exact .of_put rfl
  · unfold frameComplete
    dsimp only
    split
    · split
      · exact .of_put rfl
      · exact .of_put rfl
    · exact .of_put rfl

theorem changes_byteReceivedStep (b : Byte) (s : State) : Changes [.link] s (byteReceivedStep b s) := by
  unfold byteReceivedStep
  split
  · split
    · exact .of_put rfl
    · exact .refl s
  · exact changes_partialFrame _ _

theorem changes_frameArrivalStep (f : Frame) (check : BitVec 16) (s : State) :
    Changes [.link] s (frameArrivalStep f check s) := by
  unfold frameArrivalStep
  split
  · exact .of_put rfl
  · exact .of_put rfl

theorem changes_receiveGapTimeoutStep (s : State) : Changes [.link] s (receiveGapTimeoutStep s) := by
  unfold receiveGapTimeoutStep
  split
  · exact .refl s
  · exact .of_put rfl

theorem changes_frameRefusedStep (s : State) : Changes [.link] s (frameRefusedStep s) := by
  unfold frameRefusedStep
  split
  · split
    · exact .refl s
    · split
      · exact .refl s
      · exact .of_put rfl
  · exact .refl s

theorem changes_chooseFrame (s : State) : Changes [.link, .alarms] s (chooseFrame s) := by
  unfold chooseFrame
  split
  · exact .of_put rfl
  · split
    · exact .of_put rfl
    · split
      · exact .of_put rfl
      · exact .of_put rfl

theorem changes_outboundFrameDoneStep (s : State) : Changes retainedBlocks s (outboundFrameDoneStep s) := by
  unfold outboundFrameDoneStep
  split
  · exact Changes.trans (changes_stopClock _).mono (changes_retainedReset _ _)
  · exact (changes_chooseFrame _).mono

/-! ### The commands -/

/-- The owner's step of a request (R189, R190); `none` for a command that is no request. -/
def ownerOf : Instr → Option (State → State × Reply)
  | .status _ => some statusStep
  | .restart _ => some restartStep
  | .setTime _ time => some (setTimeStep time)
  | .timeTrim _ delta => some (timeTrimStep delta)
  | .lineupPut _ channel slot source kind tier label => some (lineupPutStep channel slot source kind tier label)
  | .lineupDrop _ channel => some (lineupDropStep channel)
  | .tierRateSet _ target rate => some (tierRateSetStep target rate)
  | .lineupRead _ bank low high => some (lineupReadStep bank low high)
  | .switchoverSchedule _ time => some (switchoverScheduleStep time)
  | .switchoverCancel _ => some switchoverCancelStep
  | .tapAdd _ address node model => some (tapAddStep address node model)
  | .tapRemove _ address => some (tapRemoveStep address)
  | .transponderSet _ node address => some (transponderSetStep node address)
  | .tapRead _ address => some (tapReadStep address)
  | .pollOrder _ order => some (pollOrderStep order)
  | .pollStart _ => some pollStartStep
  | .pollSuspend _ => some pollSuspendStep
  | .pollRead _ list start => some (pollReadStep list start)
  | .nodeConfig _ node missLimit degradedPercent outagePercent restoreHold powerThreshold powerHysteresis levelStep =>
    some (nodeConfigStep node
      { missLimit := missLimit, degradedPercent := degradedPercent, outagePercent := outagePercent,
        restoreHold := restoreHold, powerThreshold := powerThreshold, powerHysteresis := powerHysteresis,
        levelStep := levelStep })
  | .nodeRead _ node => some (nodeReadStep node)
  | .sourceRead _ low high => some (sourceReadStep low high)
  | .accountOpen _ account address port tiers state => some (accountOpenStep account address port tiers state)
  | .accountTiers _ account tiers => some (accountTiersStep account tiers)
  | .accountHold _ account => some (accountMove [.active] .hold account)
  | .accountResume _ account => some (accountMove [.hold] .active account)
  | .accountCut _ account => some (accountMove [.active, .hold] .cut account)
  | .accountRestore _ account => some (accountMove [.cut] .active account)
  | .accountClose _ account => some (accountCloseStep account)
  | .accountRead _ account => some (accountReadStep account)
  | .cycleClose _ low high => some (cycleCloseStep low high)
  | .eventAdd _ event channel start duration window price threshold =>
    some (eventAddStep (newEvent event channel start duration window price threshold))
  | .eventCancel _ event => some (eventCancelStep event)
  | .eventRead _ event start => some (eventReadStep event start)
  | .eventList _ => some eventListStep
  | .purchaseEnter _ account event => some (purchaseEnterStep account event)
  | .journalRead _ count => some (journalReadStep count)
  | .journalRelease _ sequence => some (journalReleaseStep sequence)
  | .alarmSet _ low high level kind => some (alarmSetStep low high level kind)
  | .compositeDefine _ index operation a b hold => some (compositeDefineStep index operation a b hold)
  | .compositeRelease _ index => some (compositeReleaseStep index)
  | .alarmExpress _ slot source => some (alarmExpressStep slot source)
  | .alarmAck _ source => some (alarmAckStep source)
  | .alarmDefer _ source => some (alarmDeferStep source)
  | .alarmQuery _ low high => some (alarmQueryStep low high)
  | _ => none

/-- The step of a command that is no request. -/
def eventStep : Instr → State → State
  | .firstPower => coldReset
  | .mainPowerLoss => mainPowerLossStep
  | .backupBelowRetention => backupBelowRetentionStep
  | .mainPowerReturn => mainPowerReturnStep
  | .resetPin => resetPinStep
  | .restartUp => restartUpStep
  | .restartEventStep => whenRunning restartEventStepStep
  | .gapRecord => whenRunning gapRecordStep
  | .secondTick => secondTickStep
  | .monitorMinuteEnd => whenRunning monitorMinuteEndStep
  | .meterTallyTake => whenRunning meterTallyTakeStep
  | .eventMinuteEnd => whenRunning eventMinuteEndStep
  | .switchoverTake => whenRunning switchoverTakeStep
  | .sourceLevelChange input high => sourceLevelChangeStep input high
  | .sourceDebounceVerdict input => whenRunning (sourceDebounceVerdictStep input)
  | .restoreHoldExpiry node => whenRunning (restoreHoldExpiryStep node)
  | .slotOpen => whenRunning slotOpenStep
  | .replyWindowClose energy message => whenRunning (replyWindowCloseStep energy message)
  | .purchaseDecide => whenRunning purchaseDecideStep
  | .frameArrival frame check => whenRunning (frameArrivalStep frame check)
  | .receiveGapTimeout => whenRunning receiveGapTimeoutStep
  | .outboundFrameDone => whenRunning outboundFrameDoneStep
  | .frameRefused => frameRefusedStep
  | .hostLinkByteReceived byte => whenRunning (byteReceivedStep byte)
  | _ => id

/-- A command names a unit the part has. -/
def namesUnit : Instr → Prop
  | .sourceLevelChange input _ => 1 ≤ input ∧ input ≤ 64
  | .sourceDebounceVerdict input => 1 ≤ input ∧ input ≤ 64
  | .restoreHoldExpiry node => 1 ≤ node ∧ node ≤ 32
  | _ => True

/-- The state that a command leaves. -/
def commandStep (c : Instr) (s : State) : State :=
  match ownerOf c with
  | some owner => serve c owner s
  | none => eventStep c s

/-- A command that names a unit of the part answers the state of its step. -/
theorem exec_eq_commandStep {c : Instr} (h : namesUnit c) (s : State) : exec c s = .next (commandStep c s) := by
  cases c
  case sourceLevelChange => exact if_pos (within_iff.2 h)
  case sourceDebounceVerdict => exact if_pos (within_iff.2 h)
  case restoreHoldExpiry => exact if_pos (within_iff.2 h)
  all_goals rfl

/-- The only stops: an input outside 1..64 and a node outside 1..32. -/
theorem exec_of_not_namesUnit {c : Instr} (h : ¬namesUnit c) (s : State) :
    exec c s = .fault .noSuchInput ∨ exec c s = .fault .noSuchNode := by
  cases c
  case sourceLevelChange => exact .inl (if_neg (mt within_iff.1 h))
  case sourceDebounceVerdict => exact .inl (if_neg (mt within_iff.1 h))
  case restoreHoldExpiry => exact .inr (if_neg (mt within_iff.1 h))
  all_goals exact absurd trivial h

/-- A command that answers a next state names a unit of the part and has taken its step. -/
theorem exec_next {c : Instr} {s t : State} (h : exec c s = .next t) : namesUnit c ∧ t = commandStep c s := by
  by_cases hc : namesUnit c
  · exact ⟨hc, Host.Outcome.next.inj (h.symm.trans (exec_eq_commandStep hc s))⟩
  · obtain hf | hf := exec_of_not_namesUnit hc s <;> rw [hf] at h <;> cases h

/-- The blocks that the owner's step of a request can change. -/
def ownerTouches : Instr → List Block
  | .status _ => [.link]
  | .restart _ => [.link]
  | .setTime _ _ => [.clock]
  | .timeTrim _ _ => [.clock, .minuteEnds]
  | .lineupPut _ _ _ _ _ _ _ => [.lineup]
  | .lineupDrop _ _ => [.lineup]
  | .tierRateSet _ _ _ => [.lineup]
  | .switchoverSchedule _ _ => [.lineup, .journal, .alarms]
  | .switchoverCancel _ => [.lineup, .journal, .alarms]
  | .tapAdd _ _ _ _ => [.taps, .sched]
  | .tapRemove _ _ => .sched :: (tapBlocks ++ nodeBlocks)
  | .transponderSet _ _ _ => [.transponders, .sched]
  | .pollOrder _ _ => [.sched]
  | .pollStart _ => [.sched]
  | .pollSuspend _ => [.sched]
  | .nodeConfig _ _ _ _ _ _ _ _ _ => nodeBlocks
  | .accountOpen _ _ _ _ _ _ => .accounts :: tapBlocks
  | .accountTiers _ _ _ => .accounts :: tapBlocks
  | .accountHold _ _ => .accounts :: tapBlocks
  | .accountResume _ _ => .accounts :: tapBlocks
  | .accountCut _ _ => .accounts :: tapBlocks
  | .accountRestore _ _ => .accounts :: tapBlocks
  | .accountClose _ _ => [.accounts, .meter, .alarms] ++ tapBlocks
  | .cycleClose _ _ _ => moneyBlocks
  | .eventAdd _ _ _ _ _ _ _ _ => [.events]
  | .eventCancel _ _ => eventBlocks
  | .purchaseEnter _ _ _ => eventBlocks
  | .journalRelease _ _ => [.journal, .alarms]
  | .alarmSet _ _ _ _ _ => [.alarms]
  | .compositeDefine _ _ _ _ _ _ => [.alarms]
  | .compositeRelease _ _ => [.alarms]
  | .alarmExpress _ _ _ => [.alarms]
  | .alarmAck _ _ => [.alarms]
  | .alarmDefer _ _ => [.alarms]
  | _ => []

/-- The blocks that a command that is no request can change. -/
def eventTouches : Instr → List Block
  | .firstPower => coldBlocks
  | .mainPowerLoss => [.phase, .storeValid, .clock, .freeCount]
  | .backupBelowRetention => [.backupLow, .storeValid, .clock, .freeCount]
  | .mainPowerReturn => coldBlocks
  | .resetPin => retainedBlocks
  | .restartUp => [.phase, .clock, .link, .deliveries, .journal, .meter, .alarms, .freeCount]
  | .restartEventStep => .deliveries :: eventBlocks
  | .gapRecord => [.deliveries, .journal, .alarms]
  | .secondTick => [.clock, .minuteEnds, .deliveries, .inputs, .nodes]
  | .monitorMinuteEnd => [.minuteEnds, .sample, .nodes, .deliveries]
  | .meterTallyTake => .deliveries :: moneyBlocks
  | .eventMinuteEnd => .minuteEnds :: .sample :: eventBlocks
  | .switchoverTake => .deliveries :: switchoverBlocks
  | .sourceLevelChange _ _ => [.inputs]
  | .sourceDebounceVerdict _ => [.inputs, .alarms]
  | .restoreHoldExpiry _ => nodeBlocks
  | .slotOpen => .carrier :: passBlocks
  | .replyWindowClose _ _ => .carrier :: .purchases :: .sched :: landBlocks
  | .purchaseDecide => .purchases :: .carrier :: eventBlocks
  | .outboundFrameDone => retainedBlocks
  | _ => [.link]

/-- The blocks that a command can change. -/
def touched (c : Instr) : List Block :=
  match ownerOf c with
  | some _ => .link :: ownerTouches c
  | none => eventTouches c

/-- A request touches the Host Link, and what its owner's step touches. -/
theorem Changes.serve {bs : List Block} {c : Instr} {owner : State → State × Reply}
    (h : ∀ u, Changes bs u (owner u).1) (s : State) : Changes (.link :: bs) s (serve c owner s) := by
  have wider (u : State) : Changes (.link :: bs) u (owner u).1 := fun b hb => h u b fun hbs => hb (.tail _ hbs)
  have link (u : State) (l : Link) : Changes (.link :: bs) u { u with link := l } := fun b hb =>
    (changes_changeLink (fun _ => l) u) b fun hbs => hb (List.mem_singleton.1 hbs ▸ .head _)
  unfold Machine.serve
  split
  · rename_i u hu
    refine Changes.trans ?_ (link _ _)
    obtain ⟨-, -, ⟨-, rfl⟩ | ⟨rest, -, rfl⟩⟩ := claimRequest_cases hu
    · exact wider u
    · exact (link s _).trans (wider _)
  · exact .whenRunning (fun u => link u _) s

/-- A step that reads and replies. -/
theorem changes_of_reads {bs : List Block} {s t : State} (h : t = s) : Changes bs s t := h.symm ▸ .refl s

theorem tapReadStep_reads (address : Nat) (s : State) : (tapReadStep address s).1 = s := by
  unfold tapReadStep; repeat' split
  all_goals rfl

theorem lineupReadStep_reads (bank low high : Nat) (s : State) : (lineupReadStep bank low high s).1 = s := by
  unfold lineupReadStep; split <;> rfl

theorem pollReadStep_reads (list start : Nat) (s : State) : (pollReadStep list start s).1 = s := by
  unfold pollReadStep; split <;> rfl

theorem nodeReadStep_reads (n : Nat) (s : State) : (nodeReadStep n s).1 = s := by
  unfold nodeReadStep; split <;> rfl

theorem sourceReadStep_reads (low high : Nat) (s : State) : (sourceReadStep low high s).1 = s := by
  unfold sourceReadStep; split <;> rfl

theorem accountReadStep_reads (k : Nat) (s : State) : (accountReadStep k s).1 = s := by
  unfold accountReadStep withAccount; repeat' split
  all_goals rfl

theorem eventReadStep_reads (id start : Nat) (s : State) : (eventReadStep id start s).1 = s := by
  unfold eventReadStep; repeat' split
  all_goals rfl

/-- What the owner's step of every request can change. -/
theorem owner_changes {c : Instr} {owner : State → State × Reply} (h : ownerOf c = some owner) (u : State) :
    Changes (ownerTouches c) u (owner u).1 := by
  cases c
  case status => cases h; exact .of_put rfl
  case restart => cases h; exact .of_put rfl
  case setTime _ time => cases h; exact changes_setTimeStep time u
  case timeTrim _ delta => cases h; exact changes_timeTrimStep delta u
  case lineupPut _ channel slot source kind tier label => cases h; exact changes_lineupPutStep channel slot source kind tier label u
  case lineupDrop _ channel => cases h; exact changes_lineupDropStep channel u
  case tierRateSet _ target rate => cases h; exact changes_tierRateSetStep target rate u
  case lineupRead => cases h; exact changes_of_reads (lineupReadStep_reads _ _ _ u)
  case switchoverSchedule _ time => cases h; exact changes_switchoverScheduleStep time u
  case switchoverCancel => cases h; exact changes_switchoverCancelStep u
  case tapAdd _ address node model => cases h; exact changes_tapAddStep address node model u
  case tapRemove _ address => cases h; exact changes_tapRemoveStep address u
  case transponderSet _ node address => cases h; exact changes_transponderSetStep node address u
  case tapRead => cases h; exact changes_of_reads (tapReadStep_reads _ u)
  case pollOrder _ order => cases h; exact changes_pollOrderStep order u
  case pollStart => cases h; exact changes_pollStartStep u
  case pollSuspend => cases h; exact changes_pollSuspendStep u
  case pollRead => cases h; exact changes_of_reads (pollReadStep_reads _ _ u)
  case nodeConfig => cases h; exact changes_nodeConfigStep _ _ u
  case nodeRead => cases h; exact changes_of_reads (nodeReadStep_reads _ u)
  case sourceRead => cases h; exact changes_of_reads (sourceReadStep_reads _ _ u)
  case accountOpen _ account address port tiers state => cases h; exact changes_accountOpenStep account address port tiers state u
  case accountTiers _ account tiers => cases h; exact changes_accountTiersStep account tiers u
  case accountHold _ account => cases h; exact changes_accountMove _ _ account u
  case accountResume _ account => cases h; exact changes_accountMove _ _ account u
  case accountCut _ account => cases h; exact changes_accountMove _ _ account u
  case accountRestore _ account => cases h; exact changes_accountMove _ _ account u
  case accountClose _ account => cases h; exact changes_accountCloseStep account u
  case accountRead => cases h; exact changes_of_reads (accountReadStep_reads _ u)
  case cycleClose _ low high => cases h; exact changes_cycleCloseStep low high u
  case eventAdd => cases h; exact changes_eventAddStep _ u
  case eventCancel _ event => cases h; exact changes_eventCancelStep event u
  case eventRead => cases h; exact changes_of_reads (eventReadStep_reads _ _ u)
  case eventList => cases h; exact .refl u
  case purchaseEnter _ account event => cases h; exact changes_purchaseEnterStep account event u
  case journalRead => cases h; exact .refl u
  case journalRelease _ sequence => cases h; exact changes_journalReleaseStep sequence u
  case alarmSet _ low high level kind => cases h; exact changes_alarmSetStep low high level kind u
  case compositeDefine _ index operation a b hold => cases h; exact changes_compositeDefineStep index operation a b hold u
  case compositeRelease _ index => cases h; exact changes_compositeReleaseStep index u
  case alarmExpress _ slot source => cases h; exact changes_alarmExpressStep slot source u
  case alarmAck _ source => cases h; exact changes_alarmAckStep source u
  case alarmDefer _ source => cases h; exact changes_alarmDeferStep source u
  case alarmQuery => cases h; exact .refl u
  all_goals cases h

/-- What every command that is no request can change. -/
theorem eventStep_changes (c : Instr) (s : State) : Changes (eventTouches c) s (eventStep c s) := by
  cases c with
  | firstPower => exact changes_coldReset s
  | mainPowerLoss => exact changes_mainPowerLossStep s
  | backupBelowRetention => exact changes_backupBelowRetentionStep s
  | mainPowerReturn => exact changes_mainPowerReturnStep s
  | resetPin => exact changes_resetPinStep s
  | restartUp => exact changes_restartUpStep s
  | restartEventStep => exact .whenRunning changes_restartEventStepStep s
  | gapRecord => exact .whenRunning changes_gapRecordStep s
  | secondTick => exact changes_secondTickStep s
  | monitorMinuteEnd => exact .whenRunning changes_monitorMinuteEndStep s
  | meterTallyTake => exact .whenRunning changes_meterTallyTakeStep s
  | eventMinuteEnd => exact .whenRunning changes_eventMinuteEndStep s
  | switchoverTake => exact .whenRunning changes_switchoverTakeStep s
  | sourceLevelChange i high => exact changes_sourceLevelChangeStep i high s
  | sourceDebounceVerdict i => exact .whenRunning (changes_sourceDebounceVerdictStep i) s
  | restoreHoldExpiry n => exact .whenRunning (changes_restoreHoldExpiryStep n) s
  | slotOpen => exact .whenRunning changes_slotOpenStep s
  | replyWindowClose energy message => exact .whenRunning (changes_replyWindowCloseStep energy message) s
  | purchaseDecide => exact .whenRunning changes_purchaseDecideStep s
  | frameArrival f check => exact .whenRunning (changes_frameArrivalStep f check) s
  | receiveGapTimeout => exact .whenRunning changes_receiveGapTimeoutStep s
  | outboundFrameDone => exact .whenRunning changes_outboundFrameDoneStep s
  | frameRefused => exact changes_frameRefusedStep s
  | hostLinkByteReceived b => exact .whenRunning (changes_byteReceivedStep b) s
  | _ => exact .refl s

/-- What every command can change. -/
theorem commandStep_changes (c : Instr) (s : State) : Changes (touched c) s (commandStep c s) := by
  unfold touched commandStep
  split
  · exact .serve (owner_changes ‹_›) s
  · exact eventStep_changes c s

/-! ### The step of the part -/

/-- Settles O1: both equations are the step's two rows. -/
theorem stepRunsFrontCommand : Obligations.StepRunsFrontCommand := fun _ _ _ => ⟨rfl, rfl⟩

theorem namesUnit_of_wf {c : Instr} (h : c.wf = true) : namesUnit c := by
  cases c
  case sourceLevelChange => simpa [Instr.wf, inputInRange, namesUnit] using h
  case sourceDebounceVerdict => simpa [Instr.wf, inputInRange, namesUnit] using h
  case restoreHoldExpiry => simpa [Instr.wf, nodeInRange, namesUnit] using h
  all_goals trivial

theorem pending_not_touched (c : Instr) : Block.isIn .pending (touched c) = false := by
  cases c <;> rfl

/-- Settles O2: a well-formed command takes its step, whose row of `touched` lists no queue of commands. -/
theorem everyWellFormedCommandCompletes : Obligations.EveryWellFormedCommandCompletes := by
  refine ⟨fun c s h => ⟨commandStep c s, exec_eq_commandStep (namesUnit_of_wf h) s,
    (commandStep_changes c s).same .pending (pending_not_touched c)⟩, fun i high s h => ⟨?_, ?_⟩, fun n s h => ?_⟩
  · exact if_neg (mt within_iff.1 h)
  · exact if_neg (mt within_iff.1 h)
  · exact if_neg (mt within_iff.1 h)

/-- A property that neither taking a command from the queue nor any command breaks is kept by every step. -/
theorem step_keeps {p : State → Prop} (pending : ∀ s cs, p s → p { s with pending := cs })
    (command : ∀ c s, namesUnit c → p s → p (commandStep c s)) {s t : State} (h : step s = .next t) (hs : p s) : p t := by
  unfold step at h
  split at h
  · cases h; exact hs
  · obtain ⟨hc, rfl⟩ := exec_next h
    exact command _ _ hc (pending _ _ hs)

end Sys2Proof.Machine
end

section
/-! SUPPORT. The Line-Up Store, the Control Carrier and the Host Link stay sound: what each of their operations makes of
a sound block, and then every command. -/

namespace Sys2Proof.Machine

/-! ### The Line-Up Store (R13, R14) -/

theorem coldBank_sound : bankSound coldBank := by
  simp [bankSound, coldBank, coldTariff, tariffSound, Vector.toList]

theorem coldLineup_sound : lineupSound coldLineup :=
  ⟨coldBank_sound, coldBank_sound, rfl, nofun, by decide⟩

theorem retainedLineup_sound {l : Lineup} (h : lineupSound l) : lineupSound (retainedLineup l) :=
  ⟨h.1, h.1, rfl, nofun, rfl⟩

/-- A sound line-up whose STAGED bank is replaced by a sound one of the same version. -/
theorem lineupSound_staged {l : Lineup} (h : lineupSound l) {b : Bank} (hb : bankSound b)
    (hv : b.version = l.staged.version) : lineupSound { l with staged := b } := by
  obtain ⟨hactive, -, hversion, hscheduled, hsources⟩ := h
  exact ⟨hactive, hb, hv.trans hversion, hscheduled, hsources⟩

/-- The entry of a LINEUP_PUT that passes its range check is sound. -/
theorem putFields_sound {channel slot source kind : Nat} {tier : Option Nat} {label : List Byte}
    (h : putInRange channel slot source kind tier label) :
    entrySound (putFields channel slot source kind tier label) := by
  obtain ⟨hc, hs, ho, hk, hl⟩ := h
  refine ⟨hc, hs, ho, labelInRange_iff.2 hl, ?_⟩
  obtain ⟨rfl, ht⟩ | ⟨rfl, rfl⟩ := hk
  · cases tier <;> simp_all
  · simp

/-- An entry whose slot no other channel occupies keeps the slots distinct. -/
theorem putEntry_slots {e : LineupEntry} {held : List LineupEntry} (h : rising (held.map (·.channel)))
    (hslots : (held.map (·.slot)).Nodup) (hfree : ∀ x ∈ held, x.slot = e.slot → x.channel = e.channel) :
    ((putEntry e held).map (·.slot)).Nodup := by
  induction held with
  | nil => simp [putEntry]
  | cons y ys ih =>
    obtain ⟨later, hys⟩ := rising_channels_cons.1 h
    obtain ⟨hy, hslots'⟩ := List.nodup_cons.1 hslots
    have other : ∀ x ∈ ys, x.channel ≠ e.channel → x.slot ≠ e.slot := fun x hx hne hs => hne (hfree x (.tail _ hx) hs)
    rw [putEntry]
    split_ifs with hlt heq
    · refine List.nodup_cons.2 ⟨fun hmem => ?_, hslots⟩
      obtain ⟨x, hx, hs⟩ := List.mem_map.1 hmem
      have hc := hfree x hx hs
      obtain rfl | hx := List.mem_cons.1 hx
      · omega
      · have := later x hx; omega
    · refine List.nodup_cons.2 ⟨fun hmem => ?_, hslots'⟩
      obtain ⟨x, hx, hs⟩ := List.mem_map.1 hmem
      have := later x hx
      exact other x hx (by omega) hs
    · refine List.nodup_cons.2 ⟨fun hmem => ?_, ih hys hslots' fun x hx => hfree x (.tail _ hx)⟩
      obtain ⟨x, hx, hs⟩ := List.mem_map.1 hmem
      obtain rfl | ⟨hx, -⟩ := (mem_putEntry hys).1 hx
      · exact heq (hfree y (.head _) hs.symm).symm
      · exact hy (hs ▸ List.mem_map_of_mem hx)

theorem lineupPutStep_sound (channel slot source kind : Nat) (tier : Option Nat) (label : List Byte) {u : State}
    (h : lineupSound u.lineup) : lineupSound (lineupPutStep channel slot source kind tier label u).1.lineup := by
  rw [lineupPutStep_eq]
  split_ifs with hsched hrange hconflict hfull
  · exact h
  · exact h
  · exact h
  · refine lineupSound_staged h ?_ rfl
    obtain ⟨-, ⟨hrising, hslots, hlength, hentries, hversion, htariff⟩, -⟩ := h
    refine ⟨putEntry_rising hrising, putEntry_slots hrising hslots fun x hx hs => ?_, ?_, fun x hx => ?_, hversion,
      htariff⟩
    · by_contra hne
      exact hconflict ⟨x, hx, hs, hne⟩
    · rw [length_putEntry hrising]
      split_ifs with hheld
      · exact hlength
      · by_contra hlong
        exact hfull ⟨by omega, fun x hx hc => hheld ⟨x, hx, hc⟩⟩
    · obtain rfl | ⟨hx, -⟩ := (mem_putEntry hrising).1 hx
      · exact putFields_sound hrange
      · exact hentries x hx
  · exact h

theorem lineupDropStep_sound (channel : Nat) {u : State} (h : lineupSound u.lineup) :
    lineupSound (lineupDropStep channel u).1.lineup := by
  rw [lineupDropStep_eq]
  split_ifs
  · exact h
  · exact h
  · refine lineupSound_staged h ?_ rfl
    obtain ⟨-, ⟨hrising, hslots, hlength, hentries, hversion, htariff⟩, -⟩ := h
    have sub : (u.lineup.staged.entries.filter fun x => x.channel ≠ channel).Sublist u.lineup.staged.entries :=
      List.filter_sublist
    exact ⟨hrising.sublist (sub.map _), hslots.sublist (sub.map _), sub.length_le.trans hlength,
      fun e he => hentries e (sub.mem he), hversion, htariff⟩
  · exact h

theorem mem_vecModify {α : Type} {n : Nat} {v : Vector α n} {i : Nat} {f : α → α} {x : α}
    (h : x ∈ (vecModify v i f).toList) : x ∈ v.toList ∨ ∃ y ∈ v.toList, x = f y := by
  have h' : x ∈ v.toList.modify i f := h
  rw [List.modify_eq_set_getElem?] at h'
  cases hi : v.toList[i]? with
  | none => rw [hi] at h'; exact .inl (by simpa using h')
  | some y =>
    rw [hi] at h'
    obtain h' | rfl := List.mem_or_eq_of_mem_set (by simpa using h')
    · exact .inl h'
    · exact .inr ⟨y, List.mem_of_getElem? hi, rfl⟩

theorem setRate_sound {target rate : Nat} {t : Tariff} (ht : tariffSound t) (hr : rate ≤ 1000000) :
    tariffSound (setRate target rate t) := by
  obtain ⟨htiers, hhold⟩ := ht
  unfold setRate
  split
  · exact ⟨htiers, hr⟩
  · refine ⟨fun r hmem => ?_, hhold⟩
    obtain h | ⟨_, -, rfl⟩ := mem_vecModify hmem
    · exact htiers r h
    · exact hr

theorem tierRateSetStep_sound (target rate : Nat) {u : State} (h : lineupSound u.lineup) :
    lineupSound (tierRateSetStep target rate u).1.lineup := by
  unfold tierRateSetStep
  split_ifs with hsched hrange
  · exact h
  · exact h
  · refine lineupSound_staged h ?_ rfl
    obtain ⟨-, ⟨hrising, hslots, hlength, hentries, hversion, htariff⟩, -⟩ := h
    refine ⟨hrising, hslots, hlength, hentries, hversion, setRate_sound htariff ?_⟩
    simp only [Bool.or_eq_true, decide_eq_true_eq] at hrange
    omega

theorem nextVersion_le {v : Nat} (h : v ≤ 255) : nextVersion v ≤ 255 := by
  unfold nextVersion; split <;> omega

theorem switchoverScheduleStep_sound (time : Nat) {u : State} (h : lineupSound u.lineup) :
    lineupSound (switchoverScheduleStep time u).1.lineup := by
  unfold switchoverScheduleStep
  split
  · exact h
  split
  · exact h
  split
  · exact h
  rename_i hrange
  split
  · exact h
  split
  · exact h
  obtain ⟨hactive, ⟨hrising, hslots, hlength, hentries, -, htariff⟩, -, -, hsources⟩ := h
  rw [show ∀ s, (takeReservation s).lineup = s.lineup from fun s => (changes_takeReservation s).same .lineup]
  refine ⟨hactive, ⟨hrising, hslots, hlength, hentries, nextVersion_le hactive.2.2.2.2.1, htariff⟩, rfl, ?_, hsources⟩
  rintro t ⟨⟩
  simp only [Bool.or_eq_true, bne_iff_ne, ne_eq, decide_eq_true_eq, not_or, not_not] at hrange
  exact hrange.1.1

theorem switchoverCancelStep_sound {u : State} (h : lineupSound u.lineup) :
    lineupSound (switchoverCancelStep u).1.lineup := by
  unfold switchoverCancelStep
  split
  · rw [show ∀ s, (releaseReservation s).lineup = s.lineup from fun s => (changes_releaseReservation s).same .lineup]
    obtain ⟨hactive, ⟨hrising, hslots, hlength, hentries, -, htariff⟩, -, -, hsources⟩ := h
    exact ⟨hactive, ⟨hrising, hslots, hlength, hentries, hactive.2.2.2.2.1, htariff⟩, rfl, nofun, hsources⟩
  · exact h

theorem switchLineup_sound (b : Nat) {l : Lineup} (h : lineupSound l) : lineupSound (switchLineup b l) :=
  ⟨h.2.1, h.2.1, rfl, nofun, rfl⟩

theorem switchoverTakeStep_sound {s : State} (h : lineupSound s.lineup) :
    lineupSound (switchoverTakeStep s).lineup := by
  unfold switchoverTakeStep
  split
  · exact h
  · dsimp only
    split
    · rw [takeSwitchover_lineup]; exact switchLineup_sound _ h
    · exact h

/-- What a reset pin, a return of main power or the end of a RESTART reply can make of the state: the state as it stood,
a cold reset, or a retained reset of a state in which at most the clock was stopped. -/
theorem mainPowerReturnStep_cases (s : State) :
    mainPowerReturnStep s = s ∨ mainPowerReturnStep s = coldReset s ∨
      (s.phase = .mainLost ∧ s.storeValid = true ∧ mainPowerReturnStep s = retainedReset .power s) := by
  unfold mainPowerReturnStep
  split_ifs with hp hv
  · exact .inr (.inr ⟨hp, hv, rfl⟩)
  · exact .inr (.inl rfl)
  · exact .inl rfl

theorem resetPinStep_cases (s : State) :
    resetPinStep s = s ∨ (s.phase ≠ .mainLost ∧ resetPinStep s = retainedReset .pin (stopClock s)) := by
  unfold resetPinStep
  split_ifs with hp
  · exact .inl rfl
  · exact .inr ⟨hp, rfl⟩

theorem outboundFrameDoneStep_cases (s : State) :
    outboundFrameDoneStep s = chooseFrame s ∨ outboundFrameDoneStep s = retainedReset .restart (stopClock s) := by
  unfold outboundFrameDoneStep
  split
  · exact .inr rfl
  · exact .inl rfl

theorem stopClock_lineup (s : State) : (stopClock s).lineup = s.lineup := (changes_stopClock s).same .lineup

theorem commandStep_lineupSound (c : Instr) {s : State} (h : lineupSound s.lineup) :
    lineupSound (commandStep c s).lineup := by
  have request {owner : State → State × Reply} (ho : ∀ u, lineupSound u.lineup → lineupSound (owner u).1.lineup) :
      lineupSound (serve c owner s).lineup :=
    serve_keeps (p := fun s => lineupSound s.lineup) (fun _ _ h => h) h ho
  have retained (kind : ResetKind) : lineupSound (retainedReset kind (stopClock s)).lineup :=
    retainedLineup_sound (by rw [stopClock_lineup]; exact h)
  cases c
  case lineupPut => exact request fun _ => lineupPutStep_sound _ _ _ _ _ _
  case lineupDrop => exact request fun _ => lineupDropStep_sound _
  case tierRateSet => exact request fun _ => tierRateSetStep_sound _ _
  case switchoverSchedule => exact request fun _ => switchoverScheduleStep_sound _
  case switchoverCancel => exact request fun _ => switchoverCancelStep_sound
  case switchoverTake => exact whenRunning_keeps (p := fun s => lineupSound s.lineup) h switchoverTakeStep_sound
  case firstPower => exact coldLineup_sound
  case mainPowerReturn =>
    change lineupSound (mainPowerReturnStep s).lineup
    obtain hr | hr | ⟨-, -, hr⟩ := mainPowerReturnStep_cases s <;> rw [hr]
    · exact h
    · exact coldLineup_sound
    · exact retainedLineup_sound h
  case resetPin =>
    change lineupSound (resetPinStep s).lineup
    obtain hr | ⟨-, hr⟩ := resetPinStep_cases s <;> rw [hr]
    · exact h
    · exact retained _
  case outboundFrameDone =>
    refine whenRunning_keeps (p := fun s => lineupSound s.lineup) h fun _ => ?_
    obtain hr | hr := outboundFrameDoneStep_cases s
    · rw [hr, show (chooseFrame s).lineup = s.lineup from (changes_chooseFrame s).same .lineup]; exact h
    · rw [hr]; exact retained _
  all_goals
    rw [show (commandStep _ s).lineup = s.lineup from (commandStep_changes _ s).same .lineup]
    exact h

/-! ### The Control Carrier (R33, R46, R47) -/

theorem nextSlot_le {i : Option Nat} (h : ∀ k ∈ i, k ≤ 15) : nextSlot i ≤ 15 := by
  unfold nextSlot
  split
  · omega
  · split
    · omega
    · have := h _ rfl
      omega

/-- What soundness of the carrier reads: the slot index, the reserved places, the answers owed and the purchases. -/
theorem carrierSound_congr {s t : State} (hslot : t.carrier.slotIndex = s.carrier.slotIndex)
    (hanswers : t.carrier.answers = s.carrier.answers) (hreserved : t.carrier.reserved = s.carrier.reserved)
    (hpurchases : t.due.purchases = s.due.purchases) (h : carrierSound s) : carrierSound t := by
  unfold carrierSound
  rw [hslot, hanswers, hreserved, hpurchases]
  exact h

theorem carrierSound_of_same {s t : State} (hcarrier : t.carrier = s.carrier)
    (hpurchases : t.due.purchases = s.due.purchases) (h : carrierSound s) : carrierSound t :=
  carrierSound_congr (by rw [hcarrier]) (by rw [hcarrier]) (by rw [hcarrier]) hpurchases h

theorem resetCarrier_sound {s : State} (hc : s.carrier = resetCarrier) (hd : s.due = noDeliveries) :
    carrierSound s := by
  unfold carrierSound
  rw [hc, hd]
  exact ⟨nofun, rfl, by decide⟩

theorem coldReset_carrierSound (s : State) : carrierSound (coldReset s) := resetCarrier_sound rfl rfl

theorem retainedReset_carrierSound (kind : ResetKind) (s : State) : carrierSound (retainedReset kind s) :=
  resetCarrier_sound rfl rfl

theorem sendPacket_carrierSound (p : Packet) (e : Option Expectation) {s : State} (h : carrierSound s) :
    carrierSound (sendPacket p e s) := carrierSound_congr rfl rfl rfl rfl h

theorem openSlot_carrierSound {i : Nat} {s : State} (hi : i ≤ 15) (h : carrierSound s) :
    carrierSound (openSlot i s) := by
  refine ⟨?_, h.2⟩
  rintro k ⟨⟩
  exact hi

theorem arbitrate_carrierSound (tap : Option TapRec) (poll : Option PollInFlight) {s : State} (h : carrierSound s) :
    carrierSound (arbitrate tap poll s) := by
  have tapSet (t : TapRec) : carrierSound (sendTapSet t s) := carrierSound_congr rfl rfl rfl rfl h
  have pollSent (p : PollInFlight) : carrierSound (sendPoll p s) := carrierSound_congr rfl rfl rfl rfl h
  unfold arbitrate
  split
  · rename_i a rest _ _ hanswers
    obtain ⟨hslot, hreserved, hplaces⟩ := h
    rw [hanswers, List.length_cons] at hplaces
    exact ⟨hslot, hreserved, by simp only [sendAnswer, sendPacket]; omega⟩
  · exact tapSet _
  · split
    · exact tapSet _
    · exact pollSent _
  · exact pollSent _
  · exact sendPacket_carrierSound _ _ h

theorem slotOpenStep_carrierSound {s : State} (h : carrierSound s) : carrierSound (slotOpenStep s) := by
  unfold slotOpenStep
  split
  · exact h
  · have opened := openSlot_carrierSound (nextSlot_le h.1) h
    dsimp only
    split
    · exact carrierSound_congr rfl rfl rfl rfl opened
    · unfold workingSlot
      dsimp only
      refine arbitrate_carrierSound _ _ ?_
      have offer := changes_pollOffer (openSlot (nextSlot s.carrier.slotIndex) s)
      exact carrierSound_of_same (offer.same .carrier) (offer.same .purchases) opened
    · exact sendPacket_carrierSound _ _ opened

theorem contentionResult_carrierSound (result : WindowResult) {s : State} (h : carrierSound s) :
    carrierSound (contentionResult result s) := by
  unfold contentionResult
  split
  · split
    · obtain ⟨hslot, hreserved, hplaces⟩ := h
      refine ⟨hslot, ?_, ?_⟩ <;> simp only [List.length_append, List.length_singleton] <;> omega
    · exact h
  · exact h

theorem replyWindowCloseStep_carrierSound (energy : Bool) (message : Option (List Byte)) {s : State}
    (h : carrierSound s) : carrierSound (replyWindowCloseStep energy message s) := by
  unfold replyWindowCloseStep
  split
  · exact h
  · have closed : carrierSound { s with carrier := { s.carrier with expectation := none } } := h
    revert closed
    generalize { s with carrier := { s.carrier with expectation := none } } = u
    intro hu
    unfold handResult
    split
    · exact carrierSound_of_same ((changes_pollResult _ _ u).same .carrier) ((changes_pollResult _ _ u).same .purchases) hu
    · exact carrierSound_of_same ((changes_judgeDelivery _ _ u).same .carrier) ((changes_judgeDelivery _ _ u).same .purchases) hu
    · exact contentionResult_carrierSound _ hu

/-- The oldest purchase leaves its place to its answer. -/
theorem purchaseDecideStep_carrierSound {s : State} (h : carrierSound s) : carrierSound (purchaseDecideStep s) := by
  unfold purchaseDecideStep
  split
  · exact h
  · rename_i p rest hdue
    obtain ⟨hslot, hreserved, hplaces⟩ := h
    rw [hdue, List.length_cons] at hreserved
    have answered (verdict : Verdict) (u : State) (hc : u.carrier = s.carrier) (hp : u.due.purchases = rest) :
        carrierSound (returnAnswer p verdict u) := by
      unfold returnAnswer carrierSound
      simp only [hc, hp, List.length_append, List.length_singleton]
      exact ⟨hslot, by omega, by omega⟩
    unfold decidePurchase
    split
    · exact answered _ _ rfl rfl
    · exact answered _ _ ((changes_acceptPurchase _ _ _ _ _).same .carrier)
        ((changes_acceptPurchase _ _ _ _ _).same .purchases)

theorem takeSwitchover_carrier (b : Nat) (s : State) :
    (takeSwitchover b s).carrier = { s.carrier with cursor := 0 } := by
  unfold takeSwitchover judgeAllSources
  dsimp only
  rw [show ∀ u, (List.foldl (fun u i => judgeSourceLost i u) u (upTo 64)).carrier = u.carrier from
      fun u => (Changes.foldl (fun u i => changes_judgeSourceLost i u) _ u).same .carrier,
    show ∀ named u, (switchoverTaps named u).carrier = u.carrier from
      fun named u => (changes_switchoverTaps named u).same .carrier]
  dsimp only
  rw [show ∀ time body u, (convertReservation time body u).carrier = u.carrier from
    fun time body u => (changes_convertReservation time body u).same .carrier]

theorem switchoverTakeStep_carrierSound {s : State} (h : carrierSound s) : carrierSound (switchoverTakeStep s) := by
  unfold switchoverTakeStep
  split
  · exact h
  · dsimp only
    split
    · have hcarrier := takeSwitchover_carrier
      refine carrierSound_congr ?_ ?_ ?_ ((changes_takeSwitchover _ _).same .purchases) h <;> rw [hcarrier]
    · exact h

theorem commandStep_carrierSound (c : Instr) {s : State} (h : carrierSound s) : carrierSound (commandStep c s) := by
  have running {f : State → State} (hf : ∀ {u}, carrierSound u → carrierSound (f u)) : carrierSound (whenRunning f s) :=
    whenRunning_keeps (p := carrierSound) h hf
  cases c
  case slotOpen => exact running slotOpenStep_carrierSound
  case replyWindowClose => exact running (replyWindowCloseStep_carrierSound _ _)
  case purchaseDecide => exact running purchaseDecideStep_carrierSound
  case switchoverTake => exact running switchoverTakeStep_carrierSound
  case firstPower => exact coldReset_carrierSound s
  case mainPowerReturn =>
    change carrierSound (mainPowerReturnStep s)
    obtain hr | hr | ⟨-, -, hr⟩ := mainPowerReturnStep_cases s <;> rw [hr]
    · exact h
    · exact coldReset_carrierSound s
    · exact retainedReset_carrierSound _ _
  case resetPin =>
    change carrierSound (resetPinStep s)
    obtain hr | ⟨-, hr⟩ := resetPinStep_cases s <;> rw [hr]
    · exact h
    · exact retainedReset_carrierSound _ _
  case outboundFrameDone =>
    refine running fun {u} hu => ?_
    obtain hr | hr := outboundFrameDoneStep_cases u <;> rw [hr]
    · exact carrierSound_of_same ((changes_chooseFrame u).same .carrier) ((changes_chooseFrame u).same .purchases) hu
    · exact retainedReset_carrierSound _ _
  all_goals
    refine carrierSound_of_same ?_ ?_ h
    · exact (commandStep_changes _ s).same .carrier
    · exact (commandStep_changes _ s).same .purchases

/-! ### The Host Link (Table 12-1) -/

theorem resetLink_sound (notice : RestartNotice) : linkSound (resetLink notice) := by
  simp [linkSound, resetLink]

theorem setReceiver_sound {l : Link} {r : Receiver} (h : linkSound l)
    (hr : (match r with
      | .hunting => 0
      | .receiving bs => bs.length) ≤ 1029) : linkSound { l with receiver := r } := by
  obtain ⟨hinbound, hbusy, hahead, hwaiting, -⟩ := h
  exact ⟨hinbound, hbusy, hahead, hwaiting, hr⟩

theorem arrive_sound (f : Frame) {s : State} (h : linkSound s.link) : linkSound (arrive f s).link := by
  obtain ⟨hinbound, hbusy, hahead, hwaiting, hreceiver⟩ := h
  unfold arrive
  dsimp only
  split
  · exact ⟨by rw [List.length_append, List.length_singleton]; omega, hbusy, hahead, hwaiting, hreceiver⟩
  · split
    · refine ⟨hinbound, ?_, ?_, hwaiting, hreceiver⟩ <;> simp only [List.length_append, List.length_singleton] <;> omega
    · exact ⟨hinbound, hbusy, hahead, hwaiting, hreceiver⟩

theorem answerFrame_sound (f : Frame) (r : Reply) {s : State} (h : linkSound s.link) :
    linkSound (answerFrame f r s).link := by
  obtain ⟨hinbound, hbusy, -, -, hreceiver⟩ := h
  exact ⟨hinbound, hbusy, le_rfl, nofun, hreceiver⟩

theorem dropFrame_sound {s : State} (h : linkSound s.link) : linkSound (dropFrame s).link := by
  obtain ⟨hinbound, hbusy, hahead, hwaiting, -⟩ := h
  exact ⟨hinbound, hbusy, hahead, hwaiting, Nat.zero_le _⟩

theorem hunting_sound {s : State} (h : linkSound s.link) : linkSound (setReceiver .hunting s).link :=
  setReceiver_sound h (Nat.zero_le _)

theorem partialFrame_sound (got : List Byte) {s : State} (h : linkSound s.link) :
    linkSound (partialFrame got s).link := by
  unfold partialFrame
  dsimp only
  split
  · exact setReceiver_sound h (by dsimp only; omega)
  · split
    · exact dropFrame_sound h
    · split
      · exact setReceiver_sound h (by dsimp only; omega)
      · unfold frameComplete
        dsimp only
        split
        · split
          · exact arrive_sound _ (hunting_sound h)
          · exact dropFrame_sound h
        · exact dropFrame_sound h

theorem byteReceivedStep_sound (b : Byte) {s : State} (h : linkSound s.link) :
    linkSound (byteReceivedStep b s).link := by
  unfold byteReceivedStep
  split
  · split
    · exact setReceiver_sound h (Nat.zero_le _)
    · exact h
  · exact partialFrame_sound _ h

theorem frameArrivalStep_sound (f : Frame) (check : BitVec 16) {s : State} (h : linkSound s.link) :
    linkSound (frameArrivalStep f check s).link := by
  unfold frameArrivalStep
  split
  · exact arrive_sound _ (hunting_sound h)
  · exact dropFrame_sound h

theorem receiveGapTimeoutStep_sound {s : State} (h : linkSound s.link) : linkSound (receiveGapTimeoutStep s).link := by
  unfold receiveGapTimeoutStep
  split
  · exact h
  · exact dropFrame_sound h

theorem tail_inbound_sound {l : Link} {f : Frame} {rest : List Frame} (h : linkSound l) (hl : l.inbound = f :: rest) :
    linkSound { l with inbound := rest } := by
  obtain ⟨hinbound, hbusy, hahead, hwaiting, hreceiver⟩ := h
  rw [hl, List.length_cons] at hinbound
  exact ⟨by dsimp only; omega, hbusy, hahead, hwaiting, hreceiver⟩

theorem frameRefusedStep_sound {s : State} (h : linkSound s.link) : linkSound (frameRefusedStep s).link := by
  unfold frameRefusedStep
  split
  · split
    · exact h
    · split
      · exact h
      · exact answerFrame_sound _ _ (tail_inbound_sound h ‹_›)
  · exact h

theorem nextReply_sound {l l' : Link} {r : TaggedReply} (h : linkSound l) (hr : nextReply l = some (r, l')) :
    linkSound l' := by
  obtain ⟨hinbound, hbusy, hahead, hwaiting, hreceiver⟩ := h
  unfold nextReply at hr
  split at hr
  · cases hr
    exact ⟨hinbound, hbusy, Nat.zero_le _, fun _ => rfl, hreceiver⟩
  · rename_i b rest hw hb
    rw [hb, List.length_cons] at hbusy hahead
    split at hr
    · cases hr
      refine ⟨hinbound, ?_, ?_, fun _ => ‹_›, hreceiver⟩ <;> simp only [hb, List.length_cons] <;> omega
    · cases hr
      exact ⟨hinbound, by dsimp only; omega, by dsimp only; omega, fun hn => absurd (hw.symm.trans hn) nofun, hreceiver⟩
  · rename_i b rest hw hb
    rw [hb, List.length_cons] at hbusy
    have := hwaiting hw
    cases hr
    exact ⟨hinbound, by dsimp only; omega, by dsimp only; omega, hwaiting, hreceiver⟩
  · cases hr

theorem putLine_sound (f : Option OutFrame) {s : State} (h : linkSound s.link) : linkSound (putLine f s).link := h

theorem chooseFrame_sound {s : State} (h : linkSound s.link) : linkSound (chooseFrame s).link := by
  unfold chooseFrame
  split
  · exact putLine_sound _ (nextReply_sound h ‹_›)
  · repeat' split
    all_goals exact h

/-- A request takes its frame off the inbound queue, if it waits there, and its reply becomes the waiting reply. -/
theorem serve_linkSound (c : Instr) {owner : State → State × Reply}
    (ho : ∀ u, linkSound u.link → linkSound (owner u).1.link) {s : State} (h : linkSound s.link) :
    linkSound (serve c owner s).link := by
  unfold serve
  split
  · refine answerFrame_sound _ _ (ho _ ?_)
    obtain ⟨-, -, ⟨-, rfl⟩ | ⟨rest, hl, rfl⟩⟩ := claimRequest_cases ‹_›
    · exact h
    · exact tail_inbound_sound h hl
  · exact whenRunning_keeps (p := fun s => linkSound s.link) h fun hu => arrive_sound _ hu

theorem commandStep_linkSound (c : Instr) {s : State} (h : linkSound s.link) : linkSound (commandStep c s).link := by
  have running {f : State → State} (hf : ∀ {u : State}, linkSound u.link → linkSound (f u).link) :
      linkSound (whenRunning f s).link := whenRunning_keeps (p := fun s => linkSound s.link) h hf
  have request {owner : State → State × Reply} (ho : ownerOf c = some owner)
      (apart : Block.isIn .link (ownerTouches c) = false) : linkSound (serve c owner s).link :=
    serve_linkSound c (fun u hu => by
      rw [show (owner u).1.link = u.link from (owner_changes ho u).same .link apart]; exact hu) h
  cases c
  case status => exact serve_linkSound _ (fun _ hu => hu) h
  case restart => exact serve_linkSound _ (fun _ hu => hu) h
  case frameArrival => exact running (frameArrivalStep_sound _ _)
  case receiveGapTimeout => exact running receiveGapTimeoutStep_sound
  case hostLinkByteReceived => exact running (byteReceivedStep_sound _)
  case frameRefused => exact frameRefusedStep_sound h
  case firstPower => exact resetLink_sound _
  case mainPowerReturn =>
    change linkSound (mainPowerReturnStep s).link
    obtain hr | hr | ⟨-, -, hr⟩ := mainPowerReturnStep_cases s <;> rw [hr]
    · exact h
    · exact resetLink_sound _
    · exact resetLink_sound _
  case resetPin =>
    change linkSound (resetPinStep s).link
    obtain hr | ⟨-, hr⟩ := resetPinStep_cases s <;> rw [hr]
    · exact h
    · exact resetLink_sound _
  case outboundFrameDone =>
    refine running fun {u} hu => ?_
    obtain hr | hr := outboundFrameDoneStep_cases u <;> rw [hr]
    · exact chooseFrame_sound hu
    · exact resetLink_sound _
  case restartUp =>
    change linkSound (restartUpStep s).link
    unfold restartUpStep
    split
    · rw [show ∀ u, (rejudge u).link = u.link from fun u => (changes_rejudge u).same .link]
      exact h
    · exact h
  all_goals first
    | exact request rfl rfl
    | (rw [show (commandStep _ s).link = s.link from (commandStep_changes _ s).same .link]; exact h)

/-- Settles O54: the three predicates are kept by every command, each by its own operations. -/
theorem lineupCarrierAndLinkStaySound : Obligations.LineupCarrierAndLinkStaySound := by
  intro s t h
  exact ⟨step_keeps (p := fun s => lineupSound s.lineup) (fun _ _ h => h) (fun c _ _ => commandStep_lineupSound c) h,
    step_keeps (p := carrierSound) (fun _ _ h => h) (fun c _ _ => commandStep_carrierSound c) h,
    step_keeps (p := fun s => linkSound s.link) (fun _ _ h => h) (fun c _ _ => commandStep_linkSound c) h⟩

end Sys2Proof.Machine
end

section
/-! SUPPORT. The wire forms read back: integers, the fields of a request and of an upstream message are read exactly from
the bytes that spell them. -/

namespace Sys2Proof.Machine

/-! ### Integers (R196) -/

@[simp] theorem length_uintBytes (k v : Nat) : (uintBytes k v).length = k := by
  induction k with
  | zero => rfl
  | succ k ih => simp [uintBytes, ih]

theorem foldl_uintOf (bs : List Byte) (acc : Nat) :
    bs.foldl (fun acc b => acc * 256 + b.toNat) acc = acc * 256 ^ bs.length + uintOf bs := by
  induction bs generalizing acc with
  | nil => simp [uintOf]
  | cons b bs ih =>
    rw [uintOf, List.foldl_cons, List.foldl_cons, ih, ih (0 * 256 + b.toNat), List.length_cons, pow_succ]
    ring

theorem uintOf_cons (b : Byte) (bs : List Byte) : uintOf (b :: bs) = b.toNat * 256 ^ bs.length + uintOf bs := by
  rw [uintOf, List.foldl_cons, foldl_uintOf]
  simp

theorem uintOf_lt (bs : List Byte) : uintOf bs < 256 ^ bs.length := by
  induction bs with
  | nil => simp [uintOf]
  | cons b bs ih =>
    rw [uintOf_cons, List.length_cons, pow_succ]
    have : b.toNat + 1 ≤ 256 := b.isLt
    nlinarith

theorem uintOf_uintBytes_mod (k v : Nat) : uintOf (uintBytes k v) = v % 256 ^ k := by
  induction k with
  | zero => simp [uintBytes, uintOf, Nat.mod_one]
  | succ k ih =>
    rw [uintBytes, uintOf_cons, ih, length_uintBytes, BitVec.toNat_ofNat, Nat.mod_pow_succ (b := 256) (k := k)]
    ring

theorem uintOf_uintBytes {k v : Nat} (h : v < 256 ^ k) : uintOf (uintBytes k v) = v := by
  rw [uintOf_uintBytes_mod, Nat.mod_eq_of_lt h]

/-- Bytes of one length spell different integers. -/
theorem uintOf_injective {as bs : List Byte} (hlength : as.length = bs.length) (h : uintOf as = uintOf bs) :
    as = bs := by
  induction as generalizing bs with
  | nil => exact (List.length_eq_zero_iff.1 hlength.symm).symm
  | cons a as ih =>
    cases bs with
    | nil => cases hlength
    | cons b bs =>
      have hl : as.length = bs.length := Nat.succ.inj hlength
      rw [uintOf_cons, uintOf_cons, hl] at h
      have ha := uintOf_lt as
      rw [hl] at ha
      have hb := uintOf_lt bs
      have pos : 0 < 256 ^ bs.length := Nat.pow_pos (by omega)
      have high : a.toNat = b.toNat := by
        have := congrArg (· / 256 ^ bs.length) h
        simpa [Nat.add_comm _ (uintOf _), Nat.add_mul_div_right _ _ pos, Nat.div_eq_of_lt ha, Nat.div_eq_of_lt hb]
          using this
      rw [high] at h
      rw [BitVec.eq_of_toNat_eq high, ih hl (by omega)]

theorem uintBytes_uintOf (bs : List Byte) : uintBytes bs.length (uintOf bs) = bs :=
  uintOf_injective (length_uintBytes _ _) (uintOf_uintBytes (uintOf_lt bs))

/-- `v` fits a two's complement field of `size` bytes. -/
def signedFits (size : Nat) (v : Int) : Prop := -(256 ^ size : Int) ≤ 2 * v ∧ 2 * v < (256 ^ size : Int)

@[simp] theorem length_sintBytes (k : Nat) (v : Int) : (sintBytes k v).length = k := length_uintBytes _ _

theorem signedFits_sintOf (bs : List Byte) : signedFits bs.length (sintOf bs) := by
  have h := uintOf_lt bs
  unfold signedFits sintOf
  zify at h
  split <;> rename_i hs <;> zify at hs <;> constructor <;> linarith

theorem sintOf_sintBytes {k : Nat} {v : Int} (h : signedFits k v) : sintOf (sintBytes k v) = v := by
  obtain ⟨hlow, hhigh⟩ := h
  unfold sintOf sintBytes
  have pos : (0 : Int) < 256 ^ k := by positivity
  have hnonneg := Int.emod_nonneg v pos.ne'
  have hlt := Int.emod_lt_of_pos v pos
  have fits : (v % 256 ^ k).toNat < 256 ^ k := by zify; rw [Int.toNat_of_nonneg hnonneg]; exact hlt
  rw [uintOf_uintBytes fits, length_uintBytes, Int.toNat_of_nonneg hnonneg]
  have heq : v % 256 ^ k = v ∨ v % 256 ^ k = v + 256 ^ k := by
    by_cases hv : 0 ≤ v
    · exact .inl (Int.emod_eq_of_lt hv (by linarith))
    · refine .inr ?_
      rw [← Int.add_emod_right]
      exact Int.emod_eq_of_lt (by linarith) (by linarith)
  split <;> rename_i hs <;> zify at hs <;> rw [Int.toNat_of_nonneg hnonneg] at hs <;>
    obtain heq | heq := heq <;> rw [heq] at hs ⊢ <;> linarith

theorem sintBytes_sintOf (bs : List Byte) : sintBytes bs.length (sintOf bs) = bs := by
  have h := uintOf_lt bs
  have same : sintOf bs % 256 ^ bs.length = uintOf bs := by
    have hu : (uintOf bs : Int) % 256 ^ bs.length = uintOf bs :=
      Int.emod_eq_of_lt (by positivity) (by exact_mod_cast h)
    unfold sintOf
    split
    · exact hu
    · rw [Int.sub_emod_right, hu]
  rw [sintBytes, same, Int.toNat_natCast, uintBytes_uintOf]

/-! ### Readers -/

/-- `read` takes exactly the values `ok` off the front of bytes, each from the bytes that `bytes` gives it. -/
def Reads {α : Type} (read : List Byte → Option (α × List Byte)) (ok : α → Prop) (bytes : α → List Byte) : Prop :=
  ∀ bs x rest, read bs = some (x, rest) ↔ ok x ∧ bs = bytes x ++ rest

theorem splitBytes_eq_some_iff {size : Nat} {bs h t : List Byte} :
    splitBytes size bs = some (h, t) ↔ h.length = size ∧ bs = h ++ t := by
  unfold splitBytes
  constructor
  · intro hs
    split at hs
    · cases hs
      exact ⟨by simpa using ‹_›, (List.take_append_drop _ _).symm⟩
    · cases hs
  · rintro ⟨rfl, rfl⟩
    simp

/-! ### The fields of a request (R190, R196) -/

/-- A value that a field of a form can hold. -/
def fieldFits : FieldForm → FieldValue → Prop
  | .uint size, .nat v => v < 256 ^ size
  | .sint size, .int v => signedFits size v
  | .optional size, .option v => ∀ x ∈ v, x < 256 ^ size
  | .label, .text bs => bs.length < 256
  | _, _ => False

theorem splitBytes_uint_iff {size v : Nat} {bs rest : List Byte} :
    (∃ h, splitBytes size bs = some (h, rest) ∧ uintOf h = v) ↔ v < 256 ^ size ∧ bs = uintBytes size v ++ rest := by
  simp only [splitBytes_eq_some_iff]
  constructor
  · rintro ⟨h, ⟨rfl, rfl⟩, rfl⟩
    exact ⟨uintOf_lt h, by rw [uintBytes_uintOf]⟩
  · rintro ⟨hv, rfl⟩
    exact ⟨_, ⟨length_uintBytes _ _, rfl⟩, uintOf_uintBytes hv⟩

theorem splitBytes_sint_iff {size : Nat} {v : Int} {bs rest : List Byte} :
    (∃ h, splitBytes size bs = some (h, rest) ∧ sintOf h = v) ↔ signedFits size v ∧ bs = sintBytes size v ++ rest := by
  simp only [splitBytes_eq_some_iff]
  constructor
  · rintro ⟨h, ⟨rfl, rfl⟩, rfl⟩
    exact ⟨signedFits_sintOf h, by rw [sintBytes_sintOf]⟩
  · rintro ⟨hv, rfl⟩
    exact ⟨_, ⟨length_sintBytes _ _, rfl⟩, sintOf_sintBytes hv⟩

theorem readField_uint {size : Nat} {bs rest : List Byte} {v : FieldValue} :
    readField (.uint size) bs = some (v, false, rest) ↔
      fieldFits (.uint size) v ∧ bs = fieldBytes (.uint size) v ++ rest := by
  cases v with
  | nat v =>
    rw [show fieldFits (.uint size) (.nat v) ↔ v < 256 ^ size from .rfl, fieldBytes, ← splitBytes_uint_iff]
    simp only [readField, Option.map_eq_some_iff, Prod.exists, Prod.mk.injEq, FieldValue.nat.injEq, true_and]
    exact ⟨fun ⟨h, _, hs, hv, ht⟩ => ⟨h, ht ▸ hs, hv⟩, fun ⟨h, hs, hv⟩ => ⟨h, rest, hs, hv, rfl⟩⟩
  | _ => simp [readField, fieldFits]

theorem readField_sint {size : Nat} {bs rest : List Byte} {v : FieldValue} :
    readField (.sint size) bs = some (v, false, rest) ↔
      fieldFits (.sint size) v ∧ bs = fieldBytes (.sint size) v ++ rest := by
  cases v with
  | int v =>
    rw [show fieldFits (.sint size) (.int v) ↔ signedFits size v from .rfl, fieldBytes, ← splitBytes_sint_iff]
    simp only [readField, Option.map_eq_some_iff, Prod.exists, Prod.mk.injEq, FieldValue.int.injEq, true_and]
    exact ⟨fun ⟨h, _, hs, hv, ht⟩ => ⟨h, ht ▸ hs, hv⟩, fun ⟨h, hs, hv⟩ => ⟨h, rest, hs, hv, rfl⟩⟩
  | _ => simp [readField, fieldFits]

theorem readField_optional {size : Nat} {bs rest : List Byte} {v : FieldValue} :
    readField (.optional size) bs = some (v, false, rest) ↔
      fieldFits (.optional size) v ∧ bs = fieldBytes (.optional size) v ++ rest := by
  have present (tail : List Byte) (x : Nat) :
      ((splitBytes size tail).map fun (h, t) => (FieldValue.option (some (uintOf h)), false, t)) =
          some (.option (some x), false, rest) ↔ x < 256 ^ size ∧ tail = uintBytes size x ++ rest := by
    rw [← splitBytes_uint_iff]
    simp only [Option.map_eq_some_iff, Prod.exists, Prod.mk.injEq, FieldValue.option.injEq, Option.some.injEq, true_and]
    exact ⟨fun ⟨h, _, hs, hv, ht⟩ => ⟨h, ht ▸ hs, hv⟩, fun ⟨h, hs, hv⟩ => ⟨h, rest, hs, hv, rfl⟩⟩
  cases v with
  | option v =>
    cases bs with
    | nil => cases v <;> simp [readField, fieldBytes]
    | cons p tail =>
      rw [readField]
      split_ifs with h0 h1 hbad
      · subst h0
        cases v <;> simp [fieldFits, fieldBytes, eq_comm]
      · subst h1
        cases v with
        | none => simp [fieldBytes]
        | some x => rw [present]; simp [fieldFits, fieldBytes]
      · cases v <;> simp [fieldBytes, h0, h1]
      · cases v <;> simp [fieldBytes, h0, h1]
  | _ =>
    cases bs with
    | nil => simp [readField, fieldFits]
    | cons p tail =>
      rw [readField]
      split_ifs <;> simp [fieldFits]

theorem readField_label {bs rest : List Byte} {v : FieldValue} :
    readField .label bs = some (v, false, rest) ↔ fieldFits .label v ∧ bs = fieldBytes .label v ++ rest := by
  cases v with
  | text label =>
    cases bs with
    | nil => simp [readField, fieldBytes]
    | cons n tail =>
      simp only [readField, Option.map_eq_some_iff, Prod.exists, Prod.mk.injEq, FieldValue.text.injEq, true_and,
        splitBytes_eq_some_iff, fieldFits, fieldBytes, List.cons_append, List.cons.injEq]
      constructor
      · rintro ⟨_, _, ⟨hl, rfl⟩, rfl, rfl⟩
        exact ⟨hl ▸ n.isLt, by rw [hl]; simp, rfl⟩
      · rintro ⟨hl, rfl, rfl⟩
        exact ⟨_, _, ⟨by simp [Nat.mod_eq_of_lt hl], rfl⟩, rfl, rfl⟩
  | _ =>
    cases bs with
    | nil => simp [readField, fieldFits]
    | cons n tail => simp [readField, fieldFits]

/-- A field is read, with a presence byte of 0 or 1, exactly from the bytes of a value that fits it. -/
theorem readField_eq_some_iff {form : FieldForm} {bs rest : List Byte} {v : FieldValue} :
    readField form bs = some (v, false, rest) ↔ fieldFits form v ∧ bs = fieldBytes form v ++ rest := by
  cases form with
  | uint => exact readField_uint
  | sint => exact readField_sint
  | optional => exact readField_optional
  | label => exact readField_label

theorem readFields_eq_some_iff {forms : List FieldForm} {bs : List Byte} {vs : List FieldValue} :
    readFields forms bs = some (vs, false) ↔ List.Forall₂ fieldFits forms vs ∧ bs = payloadBytes forms vs := by
  induction forms generalizing bs vs with
  | nil => cases bs <;> cases vs <;> simp [readFields, payloadBytes]
  | cons form forms ih =>
    have reads : readFields (form :: forms) bs = some (vs, false) ↔ ∃ v vs' rest,
        readField form bs = some (v, false, rest) ∧ readFields forms rest = some (vs', false) ∧ v :: vs' = vs := by
      rw [readFields]
      split
      · simp_all
      · rename_i v bad rest hread
        simp only [Option.map_eq_some_iff, Prod.exists, Prod.mk.injEq, Bool.or_eq_false_iff, hread, Option.some.injEq]
        constructor
        · rintro ⟨vs', bad', hr, rfl, rfl, rfl⟩
          exact ⟨v, vs', rest, ⟨rfl, rfl, rfl⟩, hr, rfl⟩
        · rintro ⟨_, vs', _, ⟨rfl, rfl, rfl⟩, hr, rfl⟩
          exact ⟨vs', false, hr, rfl, rfl, rfl⟩
    rw [reads]
    simp only [readField_eq_some_iff, ih]
    constructor
    · rintro ⟨v, vs', rest, ⟨hv, rfl⟩, ⟨hvs, rfl⟩, rfl⟩
      exact ⟨.cons hv hvs, rfl⟩
    · rintro ⟨hf, rfl⟩
      cases hf with
      | cons hv hvs => exact ⟨_, _, _, ⟨hv, rfl⟩, ⟨hvs, rfl⟩, rfl⟩

end Sys2Proof.Machine
end

section
/-! SUPPORT. A frame is read as a request exactly when it is that request's frame. -/

namespace Sys2Proof.Machine

theorem decodeRequest_eq_ok_iff {f : Frame} {c : Instr} :
    decodeRequest f = .ok c ↔ f.tag ≠ 0#8 ∧ ∃ forms values, requestForms f.kind.toNat = some forms ∧
      readFields forms f.payload = some (values, false) ∧ buildRequest f.kind.toNat f.tag values = some c := by
  unfold decodeRequest
  split
  · simp [*]
  · rename_i htag
    cases hforms : requestForms f.kind.toNat with
    | none => simp
    | some forms =>
      cases hread : readFields forms f.payload with
      | none => simp [hread]
      | some read =>
        obtain ⟨values, bad⟩ := read
        cases bad with
        | true => simp [hread]
        | false => cases hb : buildRequest f.kind.toNat f.tag values <;> simp [htag, hread, hb]

/-- A request's kind and values make the request again, and its kind is one that a frame can have. -/
theorem buildRequest_of_requestParts {c : Instr} {kind : Nat} {tag : Byte} {values : List FieldValue}
    (h : requestParts c = some (kind, tag, values)) : kind < 128 ∧ buildRequest kind tag values = some c := by
  cases c
  case accountOpen => exact (Laws.RequestFrame.accountOpen _ _ _ _ _ _ _ _ _ h).imp_right And.left
  case accountTiers => exact (Laws.RequestFrame.accountTiers _ _ _ _ _ _ h).imp_right And.left
  all_goals first
    | (cases h; exact ⟨Nat.le_of_ble_eq_true rfl, rfl⟩)
    | cases h

theorem fieldFits_uint_iff {size : Nat} {v : FieldValue} :
    fieldFits (.uint size) v ↔ ∃ x, v = .nat x ∧ x < 256 ^ size := by
  cases v <;> simp [fieldFits]

theorem fieldFits_sint_iff {size : Nat} {v : FieldValue} :
    fieldFits (.sint size) v ↔ ∃ x, v = .int x ∧ signedFits size x := by
  cases v <;> simp [fieldFits]

theorem fieldFits_optional_iff {size : Nat} {v : FieldValue} :
    fieldFits (.optional size) v ↔ ∃ x, v = .option x ∧ ∀ y ∈ x, y < 256 ^ size := by
  cases v <;> simp [fieldFits]

theorem fieldFits_label_iff {v : FieldValue} : fieldFits .label v ↔ ∃ x, v = .text x ∧ x.length < 256 := by
  cases v <;> simp [fieldFits]

/-- Values that fit the fields of a kind are the values of the request they make. -/
theorem requestParts_of_buildRequest {c : Instr} {kind : Nat} {tag : Byte} {values : List FieldValue}
    {forms : List FieldForm} (hforms : requestForms kind = some forms) (hfit : List.Forall₂ fieldFits forms values)
    (h : buildRequest kind tag values = some c) : requestParts c = some (kind, tag, values) := by
  have tiers {n : Nat} (hn : fieldFits (.uint 2) (.nat n)) : (BitVec.ofNat 16 n).toNat = n :=
    (BitVec.toNat_ofNat n 16).trans (Nat.mod_eq_of_lt hn)
  revert hfit h
  unfold requestForms at hforms
  split at hforms <;> cases hforms
  all_goals simp only [List.forall₂_cons_left_iff, List.forall₂_nil_left_iff, fieldFits_uint_iff, fieldFits_sint_iff,
    fieldFits_optional_iff, fieldFits_label_iff, forall_exists_index, and_imp]
  all_goals
    intros
    subst_vars
    rename_i made
    cases made
  all_goals first
    | rfl
    | (rw [requestParts, tiers]; assumption)

theorem fitsOptional_iff {size : Nat} {v : Option Nat} : fitsOptional size v = true ↔ ∀ x ∈ v, x < 256 ^ size := by
  cases v <;> simp [fitsOptional, fitsBytes]

/-- A request is well formed when its tag is not 0 and its values fit the fields of its kind. -/
theorem wf_iff_fieldsFit {c : Instr} {kind : Nat} {tag : Byte} {values : List FieldValue} {forms : List FieldForm}
    (h : requestParts c = some (kind, tag, values)) (hforms : requestForms kind = some forms) :
    c.wf = true ↔ tag ≠ 0#8 ∧ List.Forall₂ fieldFits forms values := by
  have tierSet (t : TierSet) : t.toNat < 65536 := t.isLt
  cases c
  all_goals
    cases h
    try cases hforms
    try simp [Instr.wf, requestTag, fitsBytes, fitsSigned, fitsOptional_iff, fieldFits, signedFits, and_assoc, tierSet]

theorem toNat_kind {kind : Nat} (h : kind < 128) : (BitVec.ofNat 8 kind).toNat = kind := by
  rw [BitVec.toNat_ofNat, Nat.mod_eq_of_lt (by omega)]

theorem requestFrame_of_requestParts {c : Instr} {kind : Nat} {tag : Byte} {values : List FieldValue}
    {forms : List FieldForm} (h : requestParts c = some (kind, tag, values)) (hforms : requestForms kind = some forms) :
    requestFrame c = ⟨BitVec.ofNat 8 kind, tag, payloadBytes forms values⟩ := by
  rw [requestFrame, h]
  dsimp only
  rw [hforms, Option.getD_some]

theorem requestForms_of_requestParts {c : Instr} {kind : Nat} {tag : Byte} {values : List FieldValue}
    (h : requestParts c = some (kind, tag, values)) : ∃ forms, requestForms kind = some forms := by
  cases c
  all_goals
    cases h
    try exact ⟨_, rfl⟩

/-- Settles O3: the fields by `readFields_eq_some_iff`, the request by its parts, which a frame's kind and values make
again. -/
theorem decodeAgreesWithRequestFrames : Obligations.DecodeAgreesWithRequestFrames := by
  intro f c
  rw [decodeRequest_eq_ok_iff]
  constructor
  · rintro ⟨htag, forms, values, hforms, hread, hbuild⟩
    obtain ⟨hfit, hpayload⟩ := readFields_eq_some_iff.1 hread
    have hparts := requestParts_of_buildRequest hforms hfit hbuild
    refine ⟨(wf_iff_fieldsFit hparts hforms).2 ⟨htag, hfit⟩, by simp [isRequest, hparts], ?_⟩
    rw [requestFrame_of_requestParts hparts hforms, ← hpayload, BitVec.ofNat_toNat, BitVec.setWidth_eq]
  · rintro ⟨hwf, hrequest, rfl⟩
    obtain ⟨⟨kind, tag, values⟩, hparts⟩ := Option.isSome_iff_exists.1 hrequest
    obtain ⟨hkind, hbuild⟩ := buildRequest_of_requestParts hparts
    obtain ⟨forms, hforms⟩ := requestForms_of_requestParts hparts
    obtain ⟨htag, hfit⟩ := (wf_iff_fieldsFit hparts hforms).1 hwf
    rw [requestFrame_of_requestParts hparts hforms]
    dsimp only
    rw [toNat_kind hkind]
    exact ⟨htag, forms, values, hforms, readFields_eq_some_iff.2 ⟨hfit, rfl⟩, hbuild⟩

end Sys2Proof.Machine
end

section
/-! SUPPORT. An upstream message is read exactly from its bytes. -/

namespace Sys2Proof.Machine

/-! ### The readers of an upstream message -/

theorem readNat_reads (size low high : Nat) :
    Reads (readNat size low high) (fun v => (low ≤ v ∧ v ≤ high) ∧ v < 256 ^ size) (uintBytes size) := by
  intro bs v rest
  rw [and_assoc, ← splitBytes_uint_iff]
  simp only [readNat, Option.bind_eq_some_iff, Prod.exists]
  constructor
  · rintro ⟨h, t, hs, hv⟩
    split at hv
    · rename_i hw
      cases hv
      exact ⟨within_iff.1 hw, h, hs, rfl⟩
    · cases hv
  · rintro ⟨hw, h, hs, rfl⟩
    exact ⟨h, rest, hs, if_pos (within_iff.2 hw)⟩

theorem readLevel_reads : Reads readLevel (fun v => -200 ≤ v ∧ v ≤ 700) (sintBytes 2) := by
  intro bs v rest
  have fits (h : -200 ≤ v ∧ v ≤ 700) : signedFits 2 v := by
    obtain ⟨hlow, hhigh⟩ := h
    constructor <;> norm_num <;> omega
  rw [show (-200 ≤ v ∧ v ≤ 700) ∧ bs = sintBytes 2 v ++ rest ↔
    (-200 ≤ v ∧ v ≤ 700) ∧ signedFits 2 v ∧ bs = sintBytes 2 v ++ rest from
    ⟨fun ⟨h, e⟩ => ⟨h, fits h, e⟩, fun ⟨h, _, e⟩ => ⟨h, e⟩⟩, ← splitBytes_sint_iff]
  simp only [readLevel, Option.bind_eq_some_iff, Prod.exists]
  constructor
  · rintro ⟨h, t, hs, hv⟩
    split at hv
    · rename_i hw
      cases hv
      exact ⟨hw, h, hs, rfl⟩
    · cases hv
  · rintro ⟨hw, h, hs, rfl⟩
    exact ⟨h, rest, hs, if_pos hw⟩

/-- The bytes of a field list. -/
def bytesOf (fields : List Field) : List Byte := fields.flatMap replyFieldBytes

theorem bytesOf_append (xs ys : List Field) : bytesOf (xs ++ ys) = bytesOf xs ++ bytesOf ys := List.flatMap_append

@[simp] theorem bytesOf_byte1 (v : Nat) : bytesOf (byte1 v) = uintBytes 1 v := List.append_nil _
@[simp] theorem bytesOf_byte2 (v : Nat) : bytesOf (byte2 v) = uintBytes 2 v := List.append_nil _
@[simp] theorem bytesOf_signed2 (v : Int) : bytesOf (signed2 v) = sintBytes 2 v := List.append_nil _

/-- A grant as a message can carry it. -/
def grantInRange (g : Grant) : Prop := (1 ≤ g.event ∧ g.event ≤ 255) ∧ (1 ≤ g.slot ∧ g.slot ≤ 150)

def grantField (g : Grant) : List Field := byte1 g.event ++ byte1 g.slot

theorem readGrants_reads (n : Nat) :
    Reads (readGrants n) (fun gs => gs.length = n ∧ ∀ g ∈ gs, grantInRange g) (fun gs => bytesOf (gs.flatMap grantField)) := by
  induction n with
  | zero =>
    intro bs gs rest
    rw [readGrants]
    constructor
    · rintro ⟨⟩
      exact ⟨⟨rfl, nofun⟩, rfl⟩
    · rintro ⟨⟨hn, -⟩, rfl⟩
      rw [List.length_eq_zero_iff.1 hn]
      rfl
  | succ n ih =>
    intro bs gs rest
    simp only [readGrants, Option.bind_eq_some_iff, Option.map_eq_some_iff, Prod.exists, readNat_reads _ _ _ _ _ _,
      ih _ _ _, Prod.mk.injEq]
    constructor
    · rintro ⟨event, _, ⟨⟨he, -⟩, rfl⟩, slot, _, ⟨⟨hs, -⟩, rfl⟩, gs', _, ⟨⟨hl, hg⟩, rfl⟩, rfl, rfl⟩
      refine ⟨⟨by rw [List.length_cons, hl], List.forall_mem_cons.2 ⟨⟨he, hs⟩, hg⟩⟩, ?_⟩
      simp [bytesOf_append, grantField]
    · rintro ⟨⟨hl, hg⟩, rfl⟩
      cases gs with
      | nil => cases hl
      | cons g gs' =>
        obtain ⟨⟨he, hs⟩, hg⟩ := List.forall_mem_cons.1 hg
        refine ⟨g.event, _, ⟨⟨he, by omega⟩, ?_⟩, g.slot, _, ⟨⟨hs, by omega⟩, rfl⟩, gs', _,
          ⟨⟨Nat.succ.inj hl, hg⟩, rfl⟩, rfl, rfl⟩
        simp [bytesOf_append, grantField]

theorem bytesOf_portField (p : PortSetting) :
    bytesOf (portField p) = uintBytes 1 (if p.on then 1 else 0) ++ (uintBytes 2 p.tiers.toNat ++
      (uintBytes 1 p.grants.length ++ bytesOf (p.grants.flatMap grantField))) := by
  simp only [portField, listField, tierSet2, bytesOf_append, bytesOf_byte1, bytesOf_byte2, List.append_assoc]
  rfl

theorem readPort_reads : Reads readPort portInRange (fun p => bytesOf (portField p)) := by
  intro bs p rest
  simp only [readPort, Option.bind_eq_some_iff, Option.map_eq_some_iff, Prod.exists, readNat_reads _ _ _ _ _ _,
    readGrants_reads _ _ _ _, Prod.mk.injEq, bytesOf_portField, List.append_assoc]
  constructor
  · rintro ⟨on, _, ⟨⟨hon, -⟩, rfl⟩, tiers, _, ⟨⟨ht, -⟩, rfl⟩, count, _, ⟨⟨hc, -⟩, rfl⟩, gs, _, ⟨⟨hl, hg⟩, rfl⟩, rfl, rfl⟩
    refine ⟨⟨by dsimp only; omega, hg⟩, ?_⟩
    have honcode : (if decide (on = 1) = true then 1 else 0) = on := by
      split <;> simp_all
      omega
    dsimp only
    rw [honcode, hl, BitVec.toNat_ofNat, Nat.mod_eq_of_lt (by omega)]
  · rintro ⟨⟨hl, hg⟩, rfl⟩
    have htiers := p.tiers.isLt
    refine ⟨_, _, ⟨⟨?_, ?_⟩, rfl⟩, _, _, ⟨⟨?_, htiers⟩, rfl⟩, _, _, ⟨⟨?_, ?_⟩, rfl⟩, p.grants, _, ⟨⟨rfl, hg⟩, rfl⟩, ?_,
      rfl⟩
    · split <;> omega
    · split <;> omega
    · omega
    · omega
    · omega
    · obtain ⟨on, tiers, grants⟩ := p
      cases on <;> simp

theorem readSetting_reads :
    Reads readSetting (fun ports => ∀ p ∈ ports.toList, portInRange p) (fun ports => bytesOf (settingField ports)) := by
  intro bs ports rest
  have four (a b c d : PortSetting) : bytesOf (settingField #v[a, b, c, d]) = bytesOf (portField a) ++
      (bytesOf (portField b) ++ (bytesOf (portField c) ++ bytesOf (portField d))) := by
    simp [settingField, arrayField, bytesOf_append, Vector.toList]
  simp only [readSetting, Option.bind_eq_some_iff, Option.map_eq_some_iff, Prod.exists, readPort_reads _ _ _,
    Prod.mk.injEq]
  constructor
  · rintro ⟨a, _, ⟨ha, rfl⟩, b, _, ⟨hb, rfl⟩, c, _, ⟨hc, rfl⟩, d, _, ⟨hd, rfl⟩, rfl, rfl⟩
    refine ⟨?_, ?_⟩
    · simp only [Vector.toList, List.forall_mem_cons]
      exact ⟨ha, hb, hc, hd, nofun⟩
    rw [four]
    simp only [List.append_assoc]
  · rintro ⟨hp, rfl⟩
    obtain ⟨⟨list⟩, hlist⟩ := ports
    obtain ⟨a, b, c, d, rfl⟩ : ∃ a b c d, list = [a, b, c, d] := by
      match list, hlist with
      | [a, b, c, d], _ => exact ⟨a, b, c, d, rfl⟩
    simp only [Vector.toList, List.forall_mem_cons] at hp
    obtain ⟨ha, hb, hc, hd, -⟩ := hp
    refine ⟨a, _, ⟨ha, ?_⟩, b, _, ⟨hb, rfl⟩, c, _, ⟨hc, rfl⟩, d, _, ⟨hd, rfl⟩, rfl, rfl⟩
    rw [← List.append_assoc, ← List.append_assoc, ← List.append_assoc]
    congr 1
    simp only [List.append_assoc]
    exact four a b c d

/-! ### The message and its check -/

/-- The type byte of a message (Table 12-9). -/
def upType : UpMessage → Nat
  | .tapStatus _ => 0x11
  | .transponderStatus _ _ => 0x12
  | .ack _ _ _ => 0x13
  | .purchase _ => 0x14

/-- The fields of a message behind its address. -/
def upFields : UpMessage → List Field
  | .tapStatus t => settingField t.ports ++ byte1 t.version ++ byte1 t.serial ++ signed2 t.level
  | .transponderStatus _ r => readingField r
  | .ack _ serial ports => byte1 serial ++ settingField ports
  | .purchase p => byte1 p.port ++ byte1 p.event ++ byte1 p.counter

theorem upBytes_eq (m : UpMessage) : upBytes m = plantBytes (upType m) (upAddress m) (upFields m) := by
  cases m <;> rfl

/-- The fields are read as a message exactly when they are its fields, each in its range. -/
theorem readUpFields_eq_some_iff {kind address : Nat} (ha : address < 16777216) {bs : List Byte} {m : UpMessage} :
    readUpFields kind address bs = some m ↔
      kind = upType m ∧ address = upAddress m ∧ upInRange m ∧ bs = bytesOf (upFields m) := by
  constructor
  · intro h
    unfold readUpFields at h
    split at h
    all_goals
      simp only [Option.bind_eq_some_iff, Prod.exists, readNat_reads _ _ _ _ _ _, readSetting_reads _ _ _,
        readLevel_reads _ _ _, Option.ite_none_right_eq_some, List.isEmpty_iff, Option.some.injEq, reduceCtorEq] at h
    · obtain ⟨ports, _, ⟨hp, rfl⟩, version, _, ⟨⟨hv, -⟩, rfl⟩, serial, _, ⟨⟨hs, -⟩, rfl⟩, level, _, ⟨hl, rfl⟩, rfl, rfl⟩ := h
      exact ⟨rfl, rfl, ⟨ha, hp, hv.2, hs.2, hl⟩, by simp [upFields, bytesOf_append]⟩
    · obtain ⟨voltage, _, ⟨⟨hv, -⟩, rfl⟩, level, _, ⟨hl, rfl⟩, rfl, rfl⟩ := h
      exact ⟨rfl, rfl, ⟨ha, hv.2, hl⟩, by simp [upFields, readingField, bytesOf_append]⟩
    · obtain ⟨serial, _, ⟨⟨hs, -⟩, rfl⟩, ports, _, ⟨hp, rfl⟩, rfl, rfl⟩ := h
      exact ⟨rfl, rfl, ⟨ha, hs.2, hp⟩, by simp [upFields, bytesOf_append]⟩
    · obtain ⟨port, _, ⟨⟨hp, -⟩, rfl⟩, event, _, ⟨⟨he, -⟩, rfl⟩, counter, _, ⟨⟨hc, -⟩, rfl⟩, rfl, rfl⟩ := h
      exact ⟨rfl, rfl, ⟨ha, hp, he, hc.2⟩, by simp [upFields, bytesOf_append]⟩
  · rintro ⟨rfl, rfl, ⟨-, hm⟩, rfl⟩
    cases m
    all_goals
      simp only [readUpFields, upType, upFields, readingField, bytesOf_append, bytesOf_byte1, bytesOf_byte2,
        bytesOf_signed2, Option.bind_eq_some_iff, Prod.exists, readNat_reads _ _ _ _ _ _, readSetting_reads _ _ _,
        readLevel_reads _ _ _, Option.ite_none_right_eq_some, List.isEmpty_iff, Option.some.injEq, List.append_assoc]
    case tapStatus t =>
      obtain ⟨hp, hv, hs, hl⟩ := hm
      exact ⟨t.ports, _, ⟨hp, rfl⟩, t.version, _, ⟨⟨by omega, by omega⟩, rfl⟩, t.serial, _, ⟨⟨by omega, by omega⟩, rfl⟩,
        t.level, [], ⟨hl, (List.append_nil _).symm⟩, rfl, rfl⟩
    case transponderStatus a r =>
      obtain ⟨hv, hl⟩ := hm
      exact ⟨r.voltage, _, ⟨⟨by omega, by omega⟩, rfl⟩, r.level, [], ⟨hl, (List.append_nil _).symm⟩, rfl, rfl⟩
    case ack a serial ports =>
      obtain ⟨hs, hp⟩ := hm
      exact ⟨serial, _, ⟨⟨by omega, by omega⟩, rfl⟩, ports, [], ⟨hp, (List.append_nil _).symm⟩, rfl, rfl⟩
    case purchase p =>
      obtain ⟨hp, he, hc⟩ := hm
      exact ⟨p.port, _, ⟨⟨hp, by omega⟩, rfl⟩, p.event, _, ⟨⟨he, by omega⟩, rfl⟩, p.counter, [],
        ⟨⟨by omega, by omega⟩, (List.append_nil _).symm⟩, rfl, rfl⟩

/-- Bytes of a body with its check behind it. -/
theorem checked_iff {bs : List Byte} :
    (6 ≤ bs.length ∧ crcBytes (bs.take (bs.length - 2)) = bs.drop (bs.length - 2)) ↔
      ∃ body : List Byte, 4 ≤ body.length ∧ bs = body ++ crcBytes body := by
  constructor
  · rintro ⟨hlength, hcrc⟩
    exact ⟨bs.take (bs.length - 2), by rw [List.length_take]; omega, by rw [hcrc, List.take_append_drop]⟩
  · rintro ⟨body, hlength, rfl⟩
    have hl : (body ++ crcBytes body).length - 2 = body.length := by simp [crcBytes]
    rw [hl, List.take_left, List.drop_left]
    exact ⟨by simp [crcBytes]; omega, rfl⟩

theorem readUpMessage_eq_some_iff {bs : List Byte} {m : UpMessage} :
    readUpMessage bs = some m ↔ ∃ body : List Byte, 4 ≤ body.length ∧ bs = body ++ crcBytes body ∧
      readUpFields (uintOf (body.take 1)) (uintOf ((body.drop 1).take 3)) (body.drop 4) = some m := by
  have body_of {body : List Byte} (h : bs = body ++ crcBytes body) : bs.take (bs.length - 2) = body := by
    rw [h, show (body ++ crcBytes body).length - 2 = body.length by simp [crcBytes], List.take_left]
  unfold readUpMessage
  dsimp only
  constructor
  · intro h
    split at h
    · obtain ⟨body, hlength, hbs⟩ := checked_iff.1 ‹_›
      rw [body_of hbs] at h
      exact ⟨body, hlength, hbs, h⟩
    · cases h
  · rintro ⟨body, hlength, hbs, h⟩
    rw [if_pos (checked_iff.2 ⟨body, hlength, hbs⟩), body_of hbs]
    exact h

/-- Settles O25: the readers of the fields, from the grants up, read exactly what spells them. -/
theorem upstreamMessagesAreReadExactly : Obligations.UpstreamMessagesAreReadExactly := by
  intro bs m
  rw [readUpMessage_eq_some_iff, upBytes_eq]
  constructor
  · rintro ⟨body, hlength, rfl, h⟩
    have haddress : ((body.drop 1).take 3).length = 3 := by simp; omega
    have hkind : (body.take 1).length = 1 := by simp; omega
    have ha : uintOf ((body.drop 1).take 3) < 16777216 := by
      have := uintOf_lt ((body.drop 1).take 3)
      rwa [haddress] at this
    obtain ⟨hk, haddr, hm, hfields⟩ := (readUpFields_eq_some_iff ha).1 h
    refine ⟨hm, ?_⟩
    have spelled : body = uintBytes 1 (upType m) ++ uintBytes 3 (upAddress m) ++ bytesOf (upFields m) := by
      have h1 := uintBytes_uintOf (body.take 1)
      have h3 := uintBytes_uintOf ((body.drop 1).take 3)
      rw [hkind] at h1
      rw [haddress] at h3
      rw [← hk, ← haddr, h1, h3, ← hfields, List.append_assoc, show 4 = 1 + 3 from rfl, ← List.drop_drop,
        List.take_append_drop, List.take_append_drop]
    rw [plantBytes]
    exact congrArg (fun b => b ++ crcBytes b) spelled
  · rintro ⟨hm, rfl⟩
    refine ⟨uintBytes 1 (upType m) ++ uintBytes 3 (upAddress m) ++ bytesOf (upFields m), by simp; omega, rfl, ?_⟩
    have htype : upType m < 256 ^ 1 := by cases m <;> simp [upType]
    have h1 : (uintBytes 1 (upType m)).length = 1 := length_uintBytes _ _
    have h3 : (uintBytes 3 (upAddress m)).length = 3 := length_uintBytes _ _
    rw [List.append_assoc, List.take_left' h1, List.drop_left' h1, List.take_left' h3, ← List.append_assoc,
      List.drop_left' (by rw [List.length_append, h1, h3]), uintOf_uintBytes htype, uintOf_uintBytes hm.1]
    exact (readUpFields_eq_some_iff hm.1).2 ⟨rfl, rfl, hm, rfl⟩

end Sys2Proof.Machine
end

section
/-! SUPPORT. The Host Link: turns of requests, the receiver, refused frames, the outbound line, STATUS and RESTART. -/

namespace Sys2Proof.Machine

/-! ### Requests (R189, R190) -/

/-- All that a request needs to come to execution. -/
theorem claimRequest_eq_some_iff {f : Frame} {s u : State} :
    claimRequest f s = some u ↔ mayExecute s = true ∧ f.tag ≠ 0#8 ∧
      ((s.link.inbound = [] ∧ u = s) ∨
        ∃ rest, s.link.inbound = f :: rest ∧ u = { s with link := { s.link with inbound := rest } }) := by
  refine ⟨claimRequest_cases, ?_⟩
  rintro ⟨hmay, htag, ⟨hl, rfl⟩ | ⟨rest, hl, rfl⟩⟩ <;> simp [claimRequest, hmay, htag, hl]

theorem ownerOf_of_isRequest {c : Instr} (h : isRequest c = true) : ∃ owner, ownerOf c = some owner := by
  cases c
  all_goals first
    | exact ⟨_, rfl⟩
    | cases h

/-- A request is served by its owner. -/
theorem exec_of_owner {c : Instr} {owner : State → State × Reply} (h : ownerOf c = some owner) (s : State) :
    exec c s = .next (serve c owner s) := by
  have names : namesUnit c := by
    cases c
    all_goals first
      | exact trivial
      | cases h
  rw [exec_eq_commandStep names, commandStep, h]

/-- Settles O4: the claim by its four conditions, and what is not claimed by `serve_unclaimed`. -/
theorem requestsTakeTheirTurn : Obligations.RequestsTakeTheirTurn := by
  intro c s u hc
  obtain ⟨owner, ho⟩ := ownerOf_of_isRequest hc
  refine ⟨?_, fun hp hn => ?_, fun hp => ?_⟩
  · rw [executes, claimRequest_eq_some_iff, mayExecute_iff, and_assoc, and_assoc]
  · rw [exec_of_owner ho, serve_unclaimed hn, whenRunning_of_running hp]
  · have hn : claimRequest (requestFrame c) s = none := by
      rw [Option.eq_none_iff_forall_ne_some]
      intro v hv
      exact hp ((mayExecute_iff s).1 (claimRequest_cases hv).1).1
    rw [exec_of_owner ho, serve_unclaimed hn, whenRunning_of_stopped hp]

/-! ### The receiver (R188) -/

theorem frameArrivalStep_eq (f : Frame) (check : BitVec 16) (s : State) :
    frameArrivalStep f check s = { s with
      link :=
        if f.payload.length ≤ 1024 ∧ check = crc16 (frameBody f) then
          if s.link.inbound.length < 4 then { s.link with receiver := .hunting, inbound := s.link.inbound ++ [f] }
          else if s.link.busy.length < 4 then
            { s.link with
              receiver := .hunting,
              busy := s.link.busy ++
                [{ kind := f.kind ^^^ 0x80#8, tag := f.tag, reply := { status := .busy, fields := [] } }] }
          else { s.link with receiver := .hunting, linkError := true }
        else { s.link with receiver := .hunting, linkError := true } } := by
  unfold frameArrivalStep
  split
  · unfold arrive
    congr 1
  · rfl

theorem receiveGapTimeoutStep_hunting {s : State} (h : s.link.receiver = .hunting) : receiveGapTimeoutStep s = s := by
  simp [receiveGapTimeoutStep, h]

theorem receiveGapTimeoutStep_receiving {s : State} {bs : List Byte} (h : s.link.receiver = .receiving bs) :
    receiveGapTimeoutStep s = dropFrame s := by
  simp [receiveGapTimeoutStep, h]

theorem byteReceivedStep_hunting {s : State} (h : s.link.receiver = .hunting) (b : Byte) :
    byteReceivedStep b s = if b = startByte then setReceiver (.receiving []) s else s := by
  simp [byteReceivedStep, h]

theorem byteReceivedStep_receiving {s : State} {bs : List Byte} (h : s.link.receiver = .receiving bs) (b : Byte) :
    byteReceivedStep b s = partialFrame (bs ++ [b]) s := by
  simp [byteReceivedStep, h]

/-- The second length byte: a length within its limits is kept, and any other drops the frame. -/
theorem partialFrame_pair (high low : Byte) (s : State) :
    partialFrame [high, low] s =
      if 2 ≤ high.toNat * 256 + low.toNat ∧ high.toNat * 256 + low.toNat ≤ 1026 then
        setReceiver (.receiving [high, low]) s
      else dropFrame s := by
  have hlength : uintOf ([high, low].take 2) = high.toNat * 256 + low.toNat := by simp [uintOf]
  unfold partialFrame
  dsimp only
  rw [hlength, if_neg (by simp)]
  by_cases hin : 2 ≤ high.toNat * 256 + low.toNat ∧ high.toNat * 256 + low.toNat ≤ 1026
  · rw [if_neg (by omega), if_pos (by simp), if_pos hin]
  · rw [if_pos (by omega), if_neg hin]

/-- Settles O5: each clause is the equation of its step. -/
theorem arrivalsAndDrops : Obligations.ArrivalsAndDrops := by
  intro s hp
  refine ⟨fun f check => ?_, fun hr => ⟨?_, fun b => ?_⟩, fun bs hr => ⟨?_, fun high low hbs => ?_⟩⟩
  · exact congrArg _ ((whenRunning_of_running hp).trans (frameArrivalStep_eq f check s))
  · exact congrArg _ ((whenRunning_of_running hp).trans (receiveGapTimeoutStep_hunting hr))
  · exact congrArg _ ((whenRunning_of_running hp).trans (byteReceivedStep_hunting hr b))
  · exact congrArg _ ((whenRunning_of_running hp).trans (receiveGapTimeoutStep_receiving hr))
  · subst hbs
    refine congrArg _ ((whenRunning_of_running hp).trans ?_)
    rw [byteReceivedStep_receiving hr, List.singleton_append, partialFrame_pair]
    split <;> rfl

/-! ### A frame given byte by byte (R188) -/

theorem run_of_next {M : Host.Core} {k : Nat} {s t : M.State} (h : M.step s = .next t) :
    M.run (k + 1) s = M.run k t := by
  rw [Host.Core.run, h]

theorem exec_byte_hunting {s : State} (hp : s.phase = .running) (hr : s.link.receiver = .hunting) :
    exec (.hostLinkByteReceived startByte) s = .next (setReceiver (.receiving []) s) :=
  congrArg _ ((whenRunning_of_running hp).trans ((byteReceivedStep_hunting hr startByte).trans (if_pos rfl)))

theorem exec_byte_receiving {s : State} {bs : List Byte} (hp : s.phase = .running)
    (hr : s.link.receiver = .receiving bs) (b : Byte) :
    exec (.hostLinkByteReceived b) s = .next (partialFrame (bs ++ [b]) s) :=
  congrArg _ ((whenRunning_of_running hp).trans (byteReceivedStep_receiving hr b))

/-- The bytes of a frame behind its start byte. -/
def frameRest (f : Frame) : List Byte := frameBody f ++ crcBytes (frameBody f)

section
variable {f : Frame} (hf : f.payload.length ≤ 1024)

theorem length_frameRest (f : Frame) : (frameRest f).length = f.payload.length + 6 := by
  simp [frameRest, frameBody, crcBytes]
  omega

include hf in
theorem uintOf_take_frameRest {got more : List Byte} (h : got ++ more = frameRest f) (hl : 2 ≤ got.length) :
    uintOf (got.take 2) = f.payload.length + 2 := by
  have hgot : got.take 2 = (frameRest f).take 2 := by rw [← h, List.take_append_of_le_length hl]
  rw [hgot, frameRest, frameBody, List.append_assoc,
    List.take_left' (length_uintBytes 2 (f.payload.length + 2)), uintOf_uintBytes (by omega)]

include hf in
/-- Bytes that do not complete the frame are kept. -/
theorem partialFrame_incomplete {got more : List Byte} (h : got ++ more = frameRest f) (hmore : more ≠ []) (s : State) :
    partialFrame got s = setReceiver (.receiving got) s := by
  have hlength : got.length + more.length = f.payload.length + 6 := by
    rw [← List.length_append, h, length_frameRest]
  have : 0 < more.length := List.length_pos_iff.2 hmore
  unfold partialFrame
  dsimp only
  split
  · rfl
  · rw [uintOf_take_frameRest hf h (by omega), if_neg (by omega), if_pos (by omega)]

include hf in
/-- The byte that completes the frame makes its arrival. -/
theorem partialFrame_complete (s : State) : partialFrame (frameRest f) s = arrive f (setReceiver .hunting s) := by
  have hlength := length_frameRest f
  have hcrc : (frameRest f).length - 2 = (frameBody f).length := by simp [frameRest, crcBytes]
  unfold partialFrame
  dsimp only
  rw [if_neg (by omega), uintOf_take_frameRest hf (List.append_nil _) (by omega), if_neg (by omega), if_neg (by omega)]
  unfold frameComplete
  dsimp only
  rw [hcrc, frameRest, List.take_left, List.drop_left]
  have hbody : (frameBody f).drop 2 = f.kind :: f.tag :: f.payload := by
    rw [frameBody, List.drop_left' (length_uintBytes 2 (f.payload.length + 2))]
  rw [hbody]
  dsimp only
  rw [if_pos rfl]

include hf in
/-- A receiver that holds the front of a frame and is given the rest byte by byte hands the frame on. -/
theorem run_receiving {rest : List Instr} {got more : List Byte} (h : got ++ more = frameRest f) (hmore : more ≠ [])
    {s : State} (hp : s.phase = .running) (hr : s.link.receiver = .receiving got) :
    Host.Core.run Sys2Proof.core more.length
        { s with pending := more.map Instr.hostLinkByteReceived ++ rest } =
      .next (arrive f (setReceiver .hunting { s with pending := rest })) := by
  induction more generalizing got s with
  | nil => exact absurd rfl hmore
  | cons b more ih =>
    have front : (got ++ [b]) ++ more = frameRest f := by rw [List.append_assoc]; exact h
    have taken := exec_byte_receiving
      (s := { s with pending := more.map Instr.hostLinkByteReceived ++ rest }) hp hr b
    refine (run_of_next taken).trans ?_
    by_cases hlast : more = []
    · subst hlast
      rw [List.append_nil] at front
      rw [front, partialFrame_complete hf]
      rfl
    · rw [partialFrame_incomplete hf front hlast]
      exact ih (s := setReceiver (.receiving (got ++ [b])) s) front hlast hp rfl

end

/-- Settles O6: the start byte, and then the rest of the frame byte by byte. -/
theorem receivedBytesMakeTheirFrame : Obligations.ReceivedBytesMakeTheirFrame := by
  intro f rest s hp hr hf
  have start := exec_byte_hunting
    (s := { s with pending := (frameRest f).map Instr.hostLinkByteReceived ++ rest }) hp hr
  have nonempty : frameRest f ≠ [] := by
    intro h
    have := length_frameRest f
    rw [h] at this
    cases this
  refine ((run_of_next start).trans
    (run_receiving hf (s := setReceiver (.receiving []) s) (List.nil_append _) nonempty hp rfl)).trans ?_
  refine congrArg (fun l => Host.Outcome.next (arrive f { s with link := l, pending := rest })) ?_
  exact congrArg (fun r => { s.link with receiver := r }) hr.symm

/-! ### Refused frames (R190) -/

theorem frameRefusedStep_passed {f : Frame} {rest : List Frame} {s : State} {c : Instr} (hmay : mayExecute s = true)
    (hl : s.link.inbound = f :: rest) (h : decodeRequest f = .ok c) : frameRefusedStep s = s := by
  simp [frameRefusedStep, hmay, hl, h]

theorem frameRefusedStep_failed {f : Frame} {rest : List Frame} {s : State} {e : FrameError} (hmay : mayExecute s = true)
    (hl : s.link.inbound = f :: rest) (h : decodeRequest f = .error e) :
    frameRefusedStep s =
      answerFrame f (refusal (frameErrorStatus e)) (changeLink (fun l => { l with inbound := rest }) s) := by
  simp [frameRefusedStep, hmay, hl, h]

/-- Values read for a kind make its request. -/
theorem buildRequest_isSome {kind : Nat} {tag : Byte} {forms : List FieldForm} {values : List FieldValue}
    (hforms : requestForms kind = some forms) (hfit : List.Forall₂ fieldFits forms values) :
    (buildRequest kind tag values).isSome := by
  revert hfit
  unfold requestForms at hforms
  split at hforms <;> cases hforms
  all_goals simp only [List.forall₂_cons_left_iff, List.forall₂_nil_left_iff, fieldFits_uint_iff, fieldFits_sint_iff,
    fieldFits_optional_iff, fieldFits_label_iff, forall_exists_index, and_imp]
  all_goals
    intros
    subst_vars
    rfl

/-- Settles O7: the checks of `decodeRequest` one after the other. -/
theorem refusedFrames : Obligations.RefusedFrames := by
  intro f rest s hp hw ho hl
  have hmay := (mayExecute_iff s).2 ⟨hp, hw, ho⟩
  have refused {e : FrameError} (he : decodeRequest f = .error e) : exec .frameRefused s =
      .next (answerFrame f (refusal (frameErrorStatus e)) (changeLink (fun l => { l with inbound := rest }) s)) :=
    congrArg _ (frameRefusedStep_failed hmay hl he)
  refine ⟨fun htag => refused (e := .malformed) ?_, fun htag hforms => refused (e := .unknownKind) ?_,
    fun forms htag hforms => ⟨fun hread => refused (e := .badLength) ?_,
      fun values => ⟨fun hread => refused (e := .malformed) ?_, fun hread => ?_⟩⟩⟩
  · simp [decodeRequest, htag]
  · simp [decodeRequest, htag, hforms]
  · simp [decodeRequest, htag, hforms, hread]
  · simp [decodeRequest, htag, hforms, hread]
  · obtain ⟨c, hc⟩ := Option.isSome_iff_exists.1
      (buildRequest_isSome (tag := f.tag) hforms (readFields_eq_some_iff.1 hread).1)
    exact congrArg _ (frameRefusedStep_passed hmay hl
      (decodeRequest_eq_ok_iff.2 ⟨htag, forms, values, hforms, hread, hc⟩))

/-! ### The outbound line (R191) -/

theorem exec_outboundFrameDone {s : State} (hp : s.phase = .running)
    (hr : (s.link.restartOwed && restartReplyOnLine s.link) = false) :
    exec .outboundFrameDone s = .next (chooseFrame s) := by
  refine congrArg _ ((whenRunning_of_running hp).trans ?_)
  rw [outboundFrameDoneStep, hr]
  rfl

theorem chooseFrame_reply {s : State} {r : TaggedReply} {l : Link} (h : nextReply s.link = some (r, l)) :
    chooseFrame s = putLine (some (.reply r)) { s with link := l } := by
  simp [chooseFrame, h]

/-- Settles O8: the cases of `nextReply`, and behind them those of `chooseFrame`. -/
theorem freeLineChoosesInOrder : Obligations.FreeLineChoosesInOrder := by
  intro s hp hrestart
  rw [exec_outboundFrameDone hp hrestart]
  refine ⟨fun r hw hfirst => ?_, fun r b rest hw hb hahead => ?_, fun b rest hw hb => ?_, fun hw hb => ?_⟩
  · cases hbusy : s.link.busy with
    | nil =>
      exact ⟨0, congrArg _ (chooseFrame_reply (l := { s.link with waiting := none, busyAhead := 0 })
        (by simp [nextReply, hw, hbusy]))⟩
    | cons b rest =>
      have hahead : s.link.busyAhead = 0 := hfirst.resolve_left (by simp [hbusy])
      exact ⟨s.link.busyAhead, congrArg _ (chooseFrame_reply (l := { s.link with waiting := none })
        (by simp [nextReply, hw, hbusy, hahead]))⟩
  · exact congrArg _ (chooseFrame_reply (l := { s.link with busy := rest, busyAhead := s.link.busyAhead - 1 })
      (by simp [nextReply, hw, hb, hahead.ne']))
  · exact congrArg _ (chooseFrame_reply (l := { s.link with busy := rest }) (by simp [nextReply, hw, hb]))
  · have none : nextReply s.link = .none := by simp [nextReply, hw, hb]
    refine ⟨fun n hn => ?_, fun hn => ⟨fun report rest hq => ?_, fun hq => ?_⟩⟩
    · simp [chooseFrame, none, hn, putLine, changeLink]
    · simp [chooseFrame, none, hn, hq, putLine, changeLink]
    · simp [chooseFrame, none, hn, hq, putLine, changeLink]

/-! ### STATUS and RESTART (R192, R194) -/

theorem claimRequest_of_restartOwed {s : State} (h : s.link.restartOwed = true) (f : Frame) :
    claimRequest f s = none := by
  simp [claimRequest, mayExecute, h]

theorem optionalField_byte4 (v : Option Nat) :
    optionalField byte4 v = match v with
      | none => [Field.uint 1 0]
      | some t => [Field.uint 1 1, Field.uint 4 t] := by
  cases v <;> rfl

theorem clockStateCode_eq (c : ClockState) : clockStateCode c = if c = .unset then 0 else 1 := by
  cases c <;> rfl

/-- Settles O9: each by its owner's step. -/
theorem statusAndRestart : Obligations.StatusAndRestart := by
  intro tag s u
  refine ⟨fun h => ?_, fun h => ⟨exec_of_executes (owner := restartStep) rfl h, fun t ht f => ?_⟩⟩
  · rw [exec_of_executes (owner := statusStep) rfl h]
    intro optional kind taps nodes sources held shown
    have fields : statusFields u = shown := by
      have opt (v : Option Nat) : optionalField byte4 v = optional v := optionalField_byte4 v
      simp only [statusFields, clockFields, opt, shown, byte1, byte2, byte4, flag1, arrayField, List.append_assoc,
        List.cons_append, List.nil_append, List.flatMap_cons, List.flatMap_nil, List.append_nil]
      rw [clockStateCode_eq]
      rfl
    rw [← fields]
    rfl
  · rw [exec_of_executes (owner := restartStep) rfl h] at ht
    cases ht
    exact claimRequest_of_restartOwed rfl f

end Sys2Proof.Machine
end

section
/-! SUPPORT. The Service Clock, the supplies, both resets, the coming up behind a reset and the tariff by time. -/

namespace Sys2Proof.Machine

/-! ### Setting, trimming and counting the time (R1 to R8) -/

theorem laterBoundary_iff {t : Nat} {c : Clock} : laterBoundary t c = true ↔ ∀ b ∈ c.lastBoundary, b < t := by
  cases h : c.lastBoundary <;> simp [laterBoundary, h]

/-- The trimmed time stays within the interval, and within the clock's range. -/
theorem appliedDelta_range {time : Nat} (h : time ≤ 4294967295) (delta : Int) :
    0 ≤ time + appliedDelta time delta ∧ (time : Int) / 900 * 900 ≤ time + appliedDelta time delta ∧
      time + appliedDelta time delta ≤ (time : Int) / 900 * 900 + 899 ∧
      time + appliedDelta time delta ≤ 4294967295 := by
  unfold appliedDelta intervalStart maxTime
  dsimp only
  generalize hfirst : max (-60) (min 60 delta) = first
  have : -60 ≤ first ∧ first ≤ 60 := by omega
  push_cast
  split_ifs <;> omega

theorem trimTo_eq (new : Nat) (s : State) :
    let m := new / 60 * 60
    let crossed := s.clock.time < m ∧ ∀ b ∈ s.clock.lastBoundary, b < m
    let ends : List MinuteEnd := if crossed then [{ time := m, marked := decide (m % 900 = 0) }] else []
    trimTo new s = { s with
      clock := { s.clock with time := new, lastBoundary := if crossed then some m else s.clock.lastBoundary },
      due := { s.due with monitorEnds := s.due.monitorEnds ++ ends, eventEnds := s.due.eventEnds ++ ends } } := by
  intro m crossed ends
  have cond : (s.clock.time < minuteBelow new ∧ laterBoundary (minuteBelow new) s.clock = true) ↔ crossed :=
    and_congr_right fun _ => laterBoundary_iff
  by_cases hc : crossed
  · simp only [trimTo, if_pos (cond.2 hc), ends, if_pos hc]
    rfl
  · simp only [trimTo, if_neg (mt cond.1 hc), ends, if_neg hc, List.append_nil]

/-- A minute boundary that a trim crosses forward is no interval boundary: the new time stays in the interval. -/
theorem crossed_not_interval {time : Nat} {delta : Int} :
    let new := (time + appliedDelta time delta).toNat
    time < new / 60 * 60 → (new / 60 * 60) % 900 ≠ 0 := by
  intro new h
  have : (time : Int) + appliedDelta time delta ≤ (time : Int) / 900 * 900 + 899 := by
    unfold appliedDelta intervalStart maxTime
    dsimp only
    push_cast
    split_ifs <;> omega
  omega

/-- Settles O10: SET_TIME by its cases, TIME_TRIM by `trimTo_eq` and the range of the applied delta. -/
theorem settingAndTrimmingTheTime : Obligations.SettingAndTrimmingTheTime := by
  intro tag s u
  refine ⟨fun time htime h => ?_, fun delta h => ⟨fun hunset => ?_, fun hset => ?_⟩⟩
  · rw [exec_of_executes (owner := setTimeStep time) rfl h, setTimeStep]
    cases hstate : u.clock.state with
    | unset =>
      rw [if_neg (by simp), if_neg (by unfold maxTime; omega), if_pos rfl]
      rfl
    | set => rw [if_pos rfl, if_neg (by simp)]
  · rw [exec_of_executes (owner := timeTrimStep delta) rfl h, timeTrimStep, if_pos hunset]
  · intro time start first second applied new m crossed ends
    have happlied : applied = appliedDelta u.clock.time delta := by
      simp only [applied, second, first, start, time, appliedDelta, intervalStart, maxTime]
      push_cast
      rfl
    have range (ht : u.clock.time ≤ 4294967295) := happlied ▸ appliedDelta_range ht delta
    refine ⟨range, ?_⟩
    have hends : (if crossed then [{ time := m, marked := decide (m % 900 = 0) }] else []) = ends := by
      by_cases hc : crossed
      · have hmark : m % 900 ≠ 0 := by
          have h := crossed_not_interval (time := u.clock.time) (delta := delta)
          rw [← happlied] at h
          exact h hc.1
        simp only [if_pos hc, ends, hmark, decide_false]
      · simp only [if_neg hc, ends]
    rw [exec_of_executes (owner := timeTrimStep delta) rfl h, timeTrimStep, if_neg (by simp [hset])]
    dsimp only
    rw [← happlied]
    refine congrArg (replies _ _) ((trimTo_eq new u).trans ?_)
    rw [← hends]

theorem tickNode_eq (r : NodeRec) :
    tickNode r = if r.state = .restoring then { r with
      restoreTimer := r.restoreTimer.bind fun k => if k ≤ 1 then none else some (k - 1) } else r := by
  obtain ⟨state, thresholds, timer, tally, current, previous, power, levelStep⟩ := r
  cases state <;> cases timer <;> rfl

theorem deliverBoundary_eq (t : Nat) (s : State) :
    deliverBoundary t s =
      { s with due := { s.due with boundaries := s.due.boundaries ++ if t % 900 = 0 then [t] else [] } } := by
  unfold deliverBoundary
  split
  · rfl
  · rw [List.append_nil]

/-- All that a second of a running part gives out. -/
theorem reach_eq (t : Nat) (s : State) :
    let emits := t % 60 = 0 ∧ ∀ b ∈ s.clock.lastBoundary, b < t
    let ends : List MinuteEnd := if emits then [{ time := t, marked := t % 900 = 0 }] else []
    reach t s = { s with
      clock := { s.clock with lastBoundary := if emits then some t else s.clock.lastBoundary },
      due := { s.due with
        monitorEnds := s.due.monitorEnds ++ ends,
        eventEnds := s.due.eventEnds ++ ends,
        boundaries := s.due.boundaries ++ if t % 900 = 0 then [t] else [] } } := by
  intro emits ends
  unfold reach
  by_cases h60 : t % 60 = 0
  · rw [if_pos h60, deliverBoundary_eq]
    by_cases he : emits
    · have hends : ends = [{ time := t, marked := t % 900 = 0 }] := if_pos he
      rw [if_pos (laterBoundary_iff.2 he.2), if_pos he, hends]
      rfl
    · have hends : ends = [] := if_neg he
      rw [if_neg fun h => he ⟨h60, laterBoundary_iff.1 h⟩, if_neg he, hends, List.append_nil, List.append_nil]
  · have he : ¬emits := fun h => h60 h.1
    have hends : ends = [] := if_neg he
    rw [if_neg h60, if_neg he, hends, if_neg (by omega), List.append_nil, List.append_nil, List.append_nil]

/-- Settles O11: while running, the second by `reach_eq`; otherwise the count alone. -/
theorem secondTickCounts : Obligations.SecondTickCounts := by
  intro s counts t emits ends time
  have hcount : countSecond s.clock = { s.clock with time := time } := by
    by_cases hc : counts
    · have htime : time = t := if_pos hc
      rw [htime]
      exact if_pos hc
    · have htime : time = s.clock.time := if_neg hc
      rw [htime]
      exact if_neg hc
  refine ⟨fun hp => ?_, fun hp => ?_⟩
  · have htick : tickNode = fun r => if r.state = .restoring then { r with
        restoreTimer := r.restoreTimer.bind fun k => if k ≤ 1 then none else some (k - 1) } else r :=
      funext tickNode_eq
    have hstep : exec .secondTick s = .next (runningSecond s) := congrArg _ (if_pos hp)
    rw [hstep, runningSecond, hcount, secondTick]
    dsimp only
    by_cases hc : counts
    · have htime : time = t := if_pos hc
      have hboundary : (if counts ∧ t % 900 = 0 then [t] else []) = if t % 900 = 0 then [t] else [] :=
        if_congr (and_iff_right hc) rfl rfl
      rw [htime, if_neg (by omega), reach_eq, htick, hboundary]
      dsimp only
      by_cases he : t % 60 = 0 ∧ ∀ b ∈ s.clock.lastBoundary, b < t
      · have hends : ends = [{ time := t, marked := t % 900 = 0 }] := if_pos ⟨hc, he⟩
        rw [if_pos he, if_pos he, if_pos (show emits from ⟨hc, he⟩), hends]
        rfl
      · have hends : ends = [] := if_neg fun h => he h.2
        rw [if_neg he, if_neg he, if_neg fun h : emits => he h.2, hends]
        rfl
    · have htime : time = s.clock.time := if_neg hc
      have hemits : ¬emits := fun h => hc h.1
      have hends : ends = [] := if_neg hemits
      rw [htime, if_pos rfl, htick, if_neg hemits, if_neg fun h => hc h.1, hends, List.append_nil, List.append_nil,
        List.append_nil]
      rfl
  · have hstep : exec .secondTick s = .next (if s.storeValid then { s with clock := countSecond s.clock } else s) :=
      congrArg _ (if_neg hp)
    rw [hstep, hcount]
    split <;> rfl

/-! ### The resets (R193) -/

theorem coldReset_of_invalid {s : State} (hp : s.phase = .mainLost) (hv : s.storeValid = false) :
    mainPowerReturnStep s = coldReset s := by
  simp [mainPowerReturnStep, hp, hv]

/-- A pin keeps its level through a reset of its input's record. -/
theorem inputOf_reset {s t : State} (h : t.inputs = vecMap (fun r => resetInput r.high) s.inputs) {i : Nat}
    (hi : i ∈ upTo 64) : inputOf t i = resetInput (inputOf s i).high := by
  obtain ⟨hlow, hhigh⟩ := mem_upTo.1 hi
  rw [inputOf, h, vecGet_vecMap _ _ _ (resetInput false) _ (by omega)]
  rfl

/-- Settles O12: the values of `State.reset`, read table by table. -/
theorem coldResetValues : Obligations.ColdResetValues := by
  intro s
  have bank (b : Bank) (hb : b = coldBank ∨ b = coldBank) :
      b.version = 0 ∧ b.entries = [] ∧ (∀ r ∈ b.tariff.tiers.toList, r = 0) ∧ b.tariff.holdRate = 0 := by
    obtain rfl : b = coldBank := or_self_iff.1 hb
    exact ⟨rfl, rfl, by simp [coldBank, coldTariff, Vector.toList], rfl⟩
  have node (n : Nat) : nodeOf (coldReset s) n = resetNode defaultThresholds := vecGet_replicate 32 (n - 1) _
  have input {i : Nat} (hi : i ∈ upTo 64) := inputOf_reset (t := coldReset s) rfl hi
  refine ⟨coldReset s, rfl, fun hp hv => congrArg _ (coldReset_of_invalid hp hv), rfl, rfl, rfl, rfl, rfl, bank, rfl, rfl,
    rfl, rfl, rfl, rfl, rfl, rfl, rfl, rfl, rfl, fun n _ => vecGet_replicate 32 (n - 1) _, rfl, rfl, rfl, rfl, rfl, rfl,
    rfl, fun n _ => vecGet_replicate 32 (n - 1) false, rfl, rfl, rfl, fun _ _ => rfl, fun n _ => ?_, fun i hi => ?_, rfl,
    rfl, rfl, rfl, rfl, fun i _ => vecGet_replicate 234 i coldAlarm, rfl, fun k _ => ⟨vecGet_replicate 8 k none,
    vecGet_replicate 8 k false⟩, rfl, rfl, rfl, rfl, rfl, rfl, rfl, rfl, rfl, rfl, rfl⟩
  · rw [node n]
    exact ⟨rfl, rfl, rfl, rfl, rfl, rfl, rfl, rfl⟩
  · rw [input hi]
    exact ⟨rfl, rfl, rfl, rfl, rfl, rfl⟩

theorem stopClock_eq (s : State) :
    stopClock s = { s with clock := { s.clock with
      resetTime := if s.phase = .running ∧ s.clock.state = .set then some s.clock.time else s.clock.resetTime } } := by
  unfold stopClock
  by_cases h : s.phase = .running ∧ s.clock.state = .set
  · rw [if_pos h, if_pos h]
  · rw [if_neg h, if_neg h]

/-- What causes a retained reset, and its kind (R193, R194). -/
def retainedCause (s : State) (kind : ResetKind) (cause : Instr) : Prop :=
  (kind = .pin ∧ cause = .resetPin ∧ s.phase ≠ .mainLost) ∨
    (kind = .power ∧ cause = .mainPowerReturn ∧ s.phase = .mainLost ∧ s.storeValid = true) ∨
    (kind = .restart ∧ cause = .outboundFrameDone ∧ s.phase = .running ∧ s.link.restartOwed = true ∧
      restartReplyOnLine s.link = true)

theorem exec_retainedCause {s : State} {kind : ResetKind} {cause : Instr} (h : retainedCause s kind cause) :
    exec cause s = .next (retainedReset kind (stopClock s)) := by
  obtain ⟨rfl, rfl, hp⟩ | ⟨rfl, rfl, hp, hv⟩ | ⟨rfl, rfl, hp, ho, hr⟩ := h
  · exact congrArg _ (if_neg hp)
  · have hstop : stopClock s = s := if_neg (by simp [hp])
    rw [hstop]
    exact congrArg _ ((if_pos hp).trans (if_pos hv))
  · refine congrArg _ ((whenRunning_of_running hp).trans ?_)
    rw [outboundFrameDoneStep, ho, hr]
    rfl

/-- The switching record of a kept tap is built from the state the reset leaves. -/
theorem retainedReset_taps (kind : ResetKind) (s : State) :
    (retainedReset kind s).taps = (s.taps.filter (·.state != .removing)).map fun r =>
      { retainedTap r with switching := freshSwitch (deriveSetting (retainedReset kind s) (retainedTap r)) } :=
  List.map_map

theorem retainedClock_set {c : Clock} (h : c.state = .set) : retainedClock c = c := by
  simp [retainedClock, h]

theorem retainedClock_unset {c : Clock} (h : c.state = .unset) :
    retainedClock c = { c with resetTime := none, restartTime := none } := by
  simp [retainedClock, h]

theorem retainedClock_kept (c : Clock) :
    (retainedClock c).state = c.state ∧ (retainedClock c).time = c.time ∧
      (retainedClock c).lastBoundary = c.lastBoundary := by
  cases h : c.state with
  | set => rw [retainedClock_set h]; exact ⟨h, rfl, rfl⟩
  | unset => rw [retainedClock_unset h]; exact ⟨h, rfl, rfl⟩

theorem dropRemoving_address (r : TransponderRec) :
    (dropRemoving r).address = if r.state = .removing then none else r.address := by
  unfold dropRemoving
  split <;> rfl

/-- Which taps have a bound port is read off their addresses and ports alone. -/
theorem boundTaps_map {f : TapRec → TapRec} (hf : ∀ r, (f r).address = r.address ∧ (f r).ports = r.ports)
    (taps : List TapRec) : boundTaps (taps.map f) = boundTaps taps := by
  simp only [boundTaps, List.filter_map, List.map_map, Function.comp_def, hf]

/-- Settles O13: the values of `retainedReset` behind the stopped clock, read table by table. -/
theorem retainedResetKeepsTheStore : Obligations.RetainedResetKeepsTheStore := by
  intro s kind cause h
  refine ⟨_, exec_retainedCause h, ?_⟩
  rw [stopClock_eq]
  set stopped : Clock := { s.clock with
    resetTime := if s.phase = .running ∧ s.clock.state = .set then some s.clock.time else s.clock.resetTime } with hc
  set t := retainedReset kind { s with clock := stopped } with ht
  have hclock : t.clock = retainedClock stopped := rfl
  obtain ⟨hstate, htime, hlast⟩ := retainedClock_kept stopped
  have htaps : t.taps = _ := retainedReset_taps kind { s with clock := stopped }
  have node {n : Nat} (hn : n ∈ upTo 32) : n - 1 < 32 := by have := mem_upTo.1 hn; omega
  refine ⟨rfl, rfl, rfl, rfl, hstate, htime, hlast, fun hu => ?_, fun hs => ?_, rfl, rfl, ?_, fun r hr => ?_, ?_,
    fun n hn => ?_, rfl, rfl, rfl, rfl, rfl, rfl, rfl, fun n _ => vecGet_replicate 32 (n - 1) false, rfl, rfl,
    fun n hn => ?_, fun i hi => inputOf_reset rfl hi, rfl, rfl, rfl, rfl, rfl, ?_, rfl, fun i hi => ?_, rfl, rfl,
    fun k _ => vecGet_replicate 8 k false, rfl, rfl, rfl, rfl, rfl, rfl, rfl, rfl, ?_, rfl, rfl⟩
  · rw [hclock, retainedClock_unset (c := stopped) hu]
    exact ⟨rfl, rfl⟩
  · rw [hclock, retainedClock_set (c := stopped) hs]
    refine ⟨if_congr (and_iff_left hs) rfl rfl, rfl⟩
  · rw [htaps, List.map_map]
    rfl
  · rw [htaps] at hr
    obtain ⟨x, -, rfl⟩ := List.mem_map.1 hr
    exact ⟨rfl, rfl, rfl, rfl, rfl, rfl, rfl, rfl⟩
  · rw [← boundTaps, htaps, boundTaps_map]
    · exact boundTaps_map (f := retainedTap) (fun _ => ⟨rfl, rfl⟩) _
    · exact fun _ => ⟨rfl, rfl⟩
  · rw [← dropRemoving_address]
    exact vecGet_vecMap retainedTransponder _ _ absentTransponder _ (node hn)
  · exact vecGet_vecMap _ _ _ _ _ (node hn)
  · change (if s.lineup.scheduled.isSome then s.journal.reserved - 1 else s.journal.reserved) = _
    split <;> rfl
  · exact vecGet_vecMap _ _ _ coldAlarm _ (List.mem_range.1 hi)
  · exact congrArg some (by rw [noticeOf, ← hclock, hclock, hstate])

/-! ### The supplies (R2, R10) -/

theorem judgeRetention_held {s : State} (h : ¬(s.phase = .mainLost ∧ s.backupLow ∧ s.storeValid)) :
    judgeRetention s = s := if_neg h

theorem judgeRetention_lost {s : State} (hp : s.phase = .mainLost) (hb : s.backupLow = true)
    (hv : s.storeValid = true) :
    judgeRetention s =
      { s with storeValid := false, clock := unheldClock s.freeCount, freeCount := s.freeCount + 4 } :=
  if_pos ⟨hp, hb, hv⟩

/-- Settles O14: the stop of the clock, and then the monitor's judgement. -/
theorem lossOfMainPowerAndOfBackup : Obligations.LossOfMainPowerAndOfBackup := by
  intro s stopped
  refine ⟨fun hp => ?_, fun hp => ?_⟩
  · have loss : exec .mainPowerLoss s = .next (judgeRetention stopped) := by
      refine congrArg _ ((if_neg hp).trans ?_)
      rw [stopClock_eq]
    have held := judgeRetention_held (s := { s with backupLow := true }) fun h => hp h.1
    refine ⟨fun h => ?_, fun hb hv => ⟨_, _, loss.trans (congrArg _ (judgeRetention_lost rfl hb hv))⟩,
      congrArg _ held, congrArg _ (if_neg hp)⟩
    refine loss.trans (congrArg _ (judgeRetention_held ?_))
    rintro ⟨-, hb, hv⟩
    obtain h | h := h
    · exact absurd (h.symm.trans hb) nofun
    · exact absurd (h.symm.trans hv) nofun
  · refine ⟨congrArg _ (if_pos hp), fun hv => ⟨_, _, congrArg _ (judgeRetention_lost
      (s := { s with backupLow := true }) hp rfl hv)⟩, fun hv => ?_⟩
    refine congrArg _ (judgeRetention_held (s := { s with backupLow := true }) ?_)
    rintro ⟨-, -, h⟩
    exact absurd (hv.symm.trans h) nofun

/-! ### Coming up (R10, R142) -/

theorem restartClock_eq (c : Clock) :
    restartClock c = { c with
      resetTime := if c.state = .set then c.resetTime else none,
      restartTime := if c.state = .set then some c.time else none } := by
  cases h : c.state <;> simp [restartClock, h]

theorem plainWrite_full {s : State} (h : journalFree s.journal = 0) (time : Nat) (body : RecordBody) :
    plainWrite time body s = s := if_neg (by omega)

theorem condition_given_last {i : Nat} (hi : i < 226) {now : Nat} {b : Bool} {a : Alarms} :
    (alarmOf (alarmsGive now i b a) i).condition = b := by
  rw [condition_alarmsGive _ _ _ _ _ hi, if_pos rfl]

theorem condition_given_first {i j : Nat} (hi : i < 226) (h : j ≠ i) {now : Nat} {b c : Bool} {a : Alarms} :
    (alarmOf (alarmsGive now j c (alarmsGive now i b a)) i).condition = b := by
  rw [condition_alarmsGive _ _ _ _ _ hi, if_neg h, condition_given_last hi]

/-- Settles O15: the two judgements in either order, and the GAP record by the two cases of a plain write. -/
theorem comingUpAndTheGapRecord : Obligations.ComingUpAndTheGapRecord := by
  have journalHigh_lt : journalHighSource < 226 := by decide
  have balanceOverflow_lt : balanceOverflowSource < 226 := by decide
  have apart : balanceOverflowSource ≠ journalHighSource := by decide
  refine ⟨?_, ?_⟩
  · intro s hp set clock
    have hclock : restartClock s.clock = clock := restartClock_eq s.clock
    have up : exec .restartUp s = .next (rejudge { s with
        phase := .running,
        clock := clock,
        link := { s.link with notice := some (noticeOf s.lastReset clock) },
        due := { s.due with restartStep := set, gapRecord := set } }) := by
      refine congrArg _ ((if_pos hp).trans ?_)
      rw [hclock]
    rw [up]
    unfold rejudge
    split
    · exact ⟨_, _, _, _, rfl, rfl, rfl, .inl rfl, condition_given_first journalHigh_lt apart, condition_given_last balanceOverflow_lt⟩
    · exact ⟨_, _, _, _, rfl, rfl, rfl, .inr rfl, condition_given_last journalHigh_lt, condition_given_first balanceOverflow_lt apart.symm⟩
  · intro s r t hp hgap hreset hrestart taken
    have step : exec .gapRecord s = .next (plainWrite t (.gap r t) taken) := by
      refine congrArg _ ((whenRunning_of_running hp).trans ?_)
      simp only [gapRecordStep, hgap, hreset, hrestart, if_true]
      rfl
    rw [step]
    split
    · exact congrArg _ (plainWrite_of_free (by unfold journalFree journalHeld; dsimp only [taken]; omega) _ _)
    · exact congrArg _ (plainWrite_full (by unfold journalFree journalHeld; dsimp only [taken]; omega) _ _)

end Sys2Proof.Machine
end

section
/-! SUPPORT. The state after reset is sound; a switchover's schedule; the tariff by time. -/

namespace Sys2Proof.Machine

/-! ### The state after reset (O60) -/

theorem mem_replicate_toList {α : Type} {n : Nat} {a x : α} (h : x ∈ (Vector.replicate n a).toList) : x = a := by
  have : x ∈ List.replicate n a := by simpa [Vector.toList] using h
  exact List.eq_of_mem_replicate this

theorem alarmOf_coldAlarms (i : Nat) : alarmOf coldAlarms i = coldAlarm := vecGet_replicate 234 i coldAlarm

theorem sourcesWith_coldAlarms {p : AlarmRec → Bool} (h : p coldAlarm = false) : sourcesWith coldAlarms p = [] := by
  rw [sourcesWith, List.map_eq_nil_iff, List.filter_eq_nil_iff]
  intro x hx
  rw [mem_replicate_toList (List.fst_mem_of_mem_zipIdx hx), h]
  exact Bool.false_ne_true

theorem openAt_coldAlarms (level : Nat) (p : Nat → Bool) : openAt coldAlarms level p = 0 := by
  rw [openAt, sourcesWith_coldAlarms rfl]
  rfl

theorem coldAlarms_sound : alarmsSound coldAlarms := by
  have express (k : Nat) : vecGet coldAlarms.express k none = none := vecGet_replicate 2 k none
  have composite (k : Nat) : vecGet coldAlarms.composites k none = none := vecGet_replicate 8 k none
  refine ⟨Nat.zero_le _, fun r hr => ?_, ?_, ?_, fun k _ d hd => ?_, ?_, ?_, ?_, ?_⟩
  · rw [mem_replicate_toList hr]
    simp [alarmRecSound, coldAlarm]
  · rw [express]
    nofun
  · rw [express]
    nofun
  · rw [composite] at hd
    cases hd
  all_goals
    rw [openAt_coldAlarms]
    exact Nat.zero_le _

theorem coldAlarms_compositesSound : compositesSound coldAlarms := by
  intro k _
  rw [alarmOf_coldAlarms, show vecGet coldAlarms.composites k none = none from vecGet_replicate 8 k none]
  rfl

section
variable {s : State}

theorem directorySound_of_empty (htaps : s.taps = []) (hnext : s.sched.next = [])
    (htransponders : s.transponders = Vector.replicate 32 absentTransponder) : directorySound s := by
  have absent {r : TransponderRec} (hr : r ∈ s.transponders.toList) : r = absentTransponder :=
    mem_replicate_toList (htransponders ▸ hr)
  have addresses : transponderAddresses s = [] := by
    rw [transponderAddresses, List.filterMap_eq_nil_iff]
    exact fun r hr => by rw [absent hr]; rfl
  have live : liveEntries s = [] := by
    rw [liveEntries, htaps, List.filter_nil, List.map_nil, List.nil_append, List.filterMap_eq_nil_iff]
    intro x hx
    rw [absent (List.fst_mem_of_mem_zipIdx hx)]
    rfl
  unfold directorySound
  rw [addresses, live, htaps, hnext]
  refine ⟨.nil, Nat.zero_le _, .nil, List.forall_mem_nil _, fun r hr a ha => ?_, .nil⟩
  rw [absent hr] at ha
  cases ha

theorem monitorSound_of_reset {ts : Thresholds} (hts : thresholdsSound ts)
    (hnodes : s.nodes = Vector.replicate 32 (resetNode ts)) (hinputs : s.inputs = Vector.replicate 64 (resetInput false))
    (hsample : s.sample = resetSample) : monitorSound s := by
  unfold monitorSound
  rw [hnodes, hinputs, hsample]
  refine ⟨fun r hr => ?_, fun r hr => ?_, .nil, List.forall_mem_nil _, .nil, List.forall_mem_nil _⟩
  · rw [mem_replicate_toList hr]
    exact ⟨hts, Nat.zero_le _, fun _ h => nomatch h⟩
  · rw [mem_replicate_toList hr]
    exact ⟨Nat.zero_le _, fun _ => rfl⟩

theorem accountsSound_of_empty (h : s.accounts = []) : accountsSound s := by
  unfold accountsSound
  rw [h]
  exact ⟨.nil, List.forall_mem_nil _⟩

theorem bindingsSound_of_empty (h : s.accounts = []) (htaps : s.taps = []) : bindingsSound s := by
  unfold bindingsSound
  rw [h, htaps]
  exact ⟨.nil, .nil, List.forall_mem_nil _, List.forall_mem_nil _, List.forall_mem_nil _⟩

theorem reservationsSound_of_empty (h : s.accounts = []) (hevents : s.events = []) (hsched : s.lineup.scheduled = none)
    (hreserved : s.journal.reserved = 0) : reservationsSound s := by
  unfold reservationsSound holdersSound openPurchases
  rw [h, hevents, hsched, hreserved]
  exact ⟨⟨.nil, .nil, List.forall_mem_nil _, List.forall_mem_nil _⟩, rfl⟩

theorem switchingSound_of_empty (htaps : s.taps = []) (hqueue : s.commandQueue = []) : switchingSound s := by
  unfold switchingSound
  rw [htaps, hqueue]
  exact ⟨.nil, .nil, List.forall_mem_nil _, List.forall_mem_nil _⟩

theorem clockSound_of_cold (hclock : s.clock = coldClock) (hdue : s.due = noDeliveries) (hp : s.phase = .running)
    (hv : s.storeValid = true) : clockSound s := by
  unfold clockSound
  rw [hclock, hdue, hp, hv]
  exact ⟨fun _ => rfl, nofun, fun _ => ⟨Nat.zero_le _, nofun, fun _ => ⟨rfl, rfl, rfl⟩,
    ⟨.nil, List.forall_mem_nil _⟩, .nil, List.forall_mem_nil _⟩⟩

/-- With every copy absent and every owner's condition absent the copies agree. -/
theorem conditionsSound_of_cold (h : s.accounts = []) (htaps : s.taps = []) (halarms : s.alarms = coldAlarms)
    (hnodes : s.nodes = Vector.replicate 32 (resetNode defaultThresholds))
    (hinputs : s.inputs = Vector.replicate 64 (resetInput false)) (hjournal : s.journal = coldJournal)
    (hmeter : s.meter = coldMeter) : conditionsSound s := by
  have node (n : Nat) : nodeOf s n = resetNode defaultThresholds := by rw [nodeOf, hnodes, vecGet_replicate]
  have input (i : Nat) : inputOf s i = resetInput false := by rw [inputOf, hinputs, vecGet_replicate]
  have source (i : Nat) : (alarmOf s.alarms i).condition = false := by rw [halarms, alarmOf_coldAlarms]; rfl
  have fault (n : Nat) : switchFault s n = false := by rw [switchFault, htaps]; rfl
  unfold conditionsSound copiesAgree
  rw [h, htaps, hjournal, hmeter]
  refine ⟨.nil, List.forall_mem_nil _, fun _ => ⟨fun n _ => ?_, fun i _ => ?_, source _, source _⟩, fun _ => ⟨rfl, rfl⟩⟩
  · rw [node, fault]
    exact ⟨source _, source _, source _, source _, source _⟩
  · rw [input]
    exact ⟨source _, rfl⟩

end

/-- Settles O60: each block is empty, or at its cold values in every place. -/
theorem resetStateIsSound : Obligations.ResetStateIsSound :=
  ⟨coldLineup_sound, resetCarrier_sound rfl rfl, resetLink_sound _, clockSound_of_cold rfl rfl rfl rfl,
    monitorSound_of_reset (by decide) rfl rfl rfl, directorySound_of_empty rfl rfl rfl, accountsSound_of_empty rfl,
    bindingsSound_of_empty rfl rfl, reservationsSound_of_empty rfl rfl rfl rfl, ⟨by decide, by decide, by decide⟩,
    coldAlarms_sound, coldAlarms_compositesSound, switchingSound_of_empty rfl rfl,
    conditionsSound_of_cold rfl rfl rfl rfl rfl rfl rfl⟩

/-! ### Scheduling a switchover (R20, R21) -/

/-- In a list of rising keys the first element of a kind is the one of the lowest key. -/
theorem find?_eq_some_of_lowest {α : Type} {key : α → Nat} {p : α → Bool} {xs : List α} (h : rising (xs.map key))
    {x : α} (hx : x ∈ xs) (hp : p x = true) (lowest : ∀ y ∈ xs, p y = true → key x ≤ key y) : xs.find? p = some x := by
  cases hf : xs.find? p with
  | none => exact absurd hp (List.find?_eq_none.1 hf x hx)
  | some y =>
    obtain ⟨hy, before, after, rfl, hbefore⟩ := List.find?_eq_some_iff_append.1 hf
    rw [rising, List.map_append, List.pairwise_append, List.map_cons, List.pairwise_cons] at h
    obtain ⟨-, ⟨hlater, -⟩, -⟩ := h
    obtain hx | hx := List.mem_append.1 hx
    · exact absurd hp (by simpa using hbefore x hx)
    · obtain rfl | hx := List.mem_cons.1 hx
      · rfl
      · have := hlater _ (List.mem_map_of_mem hx)
        have := lowest y (by simp) hy
        omega

theorem inconsistentEvent_eq_some {s : State} (h : rising (s.events.map (·.id))) {e : EventRec} (he : e ∈ s.events)
    (hp : isPpv e.channel s.lineup.staged = false)
    (lowest : ∀ x ∈ s.events, isPpv x.channel s.lineup.staged = false → e.id ≤ x.id) :
    inconsistentEvent s = some e.id := by
  rw [inconsistentEvent, find?_eq_some_of_lowest h he (by rw [hp]; rfl)
    fun y hy hn => lowest y hy (by simpa using hn)]
  rfl

theorem inconsistentEvent_eq_none {s : State} (h : ∀ e ∈ s.events, isPpv e.channel s.lineup.staged = true) :
    inconsistentEvent s = none := by
  rw [inconsistentEvent, List.find?_eq_none.2 fun e he => by rw [h e he]; exact Bool.false_ne_true]
  rfl

theorem takeReservation_of_free {s : State} (h : 1 ≤ journalFree s.journal) :
    takeReservation s = putJournal { s.journal with reserved := s.journal.reserved + 1 } s := if_pos h

theorem switchoverScheduleStep_range {time : Nat} {u : State} (hset : u.clock.state = .set)
    (hnone : u.lineup.scheduled = none) :
    switchoverScheduleStep time u =
      if ¬(time % 900 = 0 ∧ u.clock.time < time ∧ time ≤ 4294967295) then (u, refusal .outOfRange)
      else
        match inconsistentEvent u with
        | some e => (u, { status := .conflict, fields := byte1 e })
        | none =>
          if journalFree u.journal = 0 then (u, refusal .journalFull)
          else
            let version := nextVersion u.lineup.active.version
            (takeReservation
              { u with lineup :=
                  { u.lineup with scheduled := some time, staged := { u.lineup.staged with version := version } } },
              replyOk (byte4 time ++ byte1 version)) := by
  unfold switchoverScheduleStep
  rw [if_neg (by simp [hset]), if_neg (by simp [hnone])]
  have range : (time % 900 != 0 || decide (time ≤ u.clock.time) || decide (maxTime < time)) = true ↔
      ¬(time % 900 = 0 ∧ u.clock.time < time ∧ time ≤ 4294967295) := by
    have hmax : maxTime = 4294967295 := rfl
    simp only [Bool.or_eq_true, bne_iff_ne, decide_eq_true_eq]
    omega
  by_cases hr : time % 900 = 0 ∧ u.clock.time < time ∧ time ≤ 4294967295
  · exact (if_neg fun h => range.1 h hr).trans (if_neg (not_not.2 hr)).symm
  · rw [if_pos (range.2 hr), if_pos hr]

/-- Settles O18: the checks of the owner's step one after the other. -/
theorem switchoverSchedule : Obligations.SwitchoverSchedule := by
  intro tag time s u c version h
  have hexec := exec_of_executes (owner := switchoverScheduleStep time) rfl h
  refine ⟨fun hunset => ?_, fun hset => ⟨fun hsched => ?_, fun hnone => ?_⟩⟩
  · rw [hexec, switchoverScheduleStep, if_pos hunset]
  · rw [hexec, switchoverScheduleStep, if_neg (by simp [hset]), if_pos hsched]
  rw [switchoverScheduleStep_range hset hnone] at hexec
  refine ⟨fun hr => ?_, fun h900 hlater hmax => ?_⟩
  · rw [hexec, if_pos hr]
  rw [if_neg (not_not.2 ⟨h900, hlater, hmax⟩)] at hexec
  refine ⟨fun hrising e he hp lowest => ?_, fun hall => ⟨fun hfull => ?_, fun hroom => ?_⟩⟩
  · rw [hexec, inconsistentEvent_eq_some hrising he hp lowest]
    rfl
  · rw [hexec, inconsistentEvent_eq_none hall]
    dsimp only
    rw [if_pos (by unfold journalFree journalHeld; omega)]
  · have hfree : 1 ≤ journalFree u.journal := by unfold journalFree journalHeld; omega
    rw [hexec, inconsistentEvent_eq_none hall]
    dsimp only
    rw [if_neg (by omega)]
    dsimp only
    exact congrArg _ (takeReservation_of_free (s := { u with lineup := _ }) hfree)

/-! ### The tariff by time (R25, R26) -/

theorem tariffFor_scheduled {t b : Nat} {l : Lineup} (h : l.scheduled = some b) (hb : b ≤ t) :
    tariffFor t l = l.staged.tariff := by
  simp [tariffFor, h, hb]

theorem tariffFor_effective {t : Nat} {l : Lineup} (h : ∀ b ∈ l.scheduled, t < b) (he : l.effective ≤ t) :
    tariffFor t l = l.active.tariff := by
  have none : l.scheduled.any (· ≤ t) = false := by
    cases hs : l.scheduled with
    | none => rfl
    | some b => simpa using h b hs
  simp [tariffFor, none, he]

theorem tariffFor_before {t : Nat} {l : Lineup} (h : ∀ b ∈ l.scheduled, t < b) (he : t < l.effective) :
    tariffFor t l =
      (l.previous.elim l.active.tariff fun p => if t < p.endTime then p.tariff else l.active.tariff) := by
  have none : l.scheduled.any (· ≤ t) = false := by
    cases hs : l.scheduled with
    | none => rfl
    | some b => simpa using h b hs
  rw [tariffFor, none, if_neg Bool.false_ne_true, if_neg (Nat.not_le.2 he)]
  cases l.previous <;> rfl

/-- The taking of a switchover gives the same tariff to every interval from the effective time of ACTIVE on. -/
theorem tariffFor_switchLineup {t b : Nat} {l : Lineup} (hs : l.scheduled = some b) (he : l.effective ≤ t) :
    tariffFor t (switchLineup b l) = tariffFor t l := by
  by_cases hb : b ≤ t
  · rw [tariffFor_scheduled hs hb, tariffFor_effective (fun _ hc => absurd hc (Option.not_mem_none _)) hb]
    rfl
  · have ht : t < b := by omega
    rw [tariffFor_effective (fun c hc => by rw [hs] at hc; cases hc; exact ht) he,
      tariffFor_before (fun _ hc => absurd hc (Option.not_mem_none _)) ht]
    exact if_pos ht

/-- Settles O21: the cases of R26, and the taking by `tariffFor_switchLineup`. -/
theorem tariffDoesNotDependOnTheTaking : Obligations.TariffDoesNotDependOnTheTaking := by
  refine ⟨fun t l => ⟨?_, fun hlater => ⟨fun he => tariffFor_effective hlater he, fun he => ⟨fun p hp ht => ?_,
    fun hp => ?_⟩⟩⟩, fun s u b rest hp hdue hs hexec t ht => ?_⟩
  · rintro ⟨b, hb, hle⟩
    exact tariffFor_scheduled hb hle
  · rw [tariffFor_before hlater he, hp]
    exact if_pos ht
  · rw [tariffFor_before hlater he]
    cases hprev : l.previous with
    | none => rfl
    | some p => exact if_neg (Nat.not_lt.2 (hp p hprev))
  · rw [exec_switchoverTake_scheduled hp hdue hs] at hexec
    cases hexec
    rw [takeSwitchover_lineup]
    exact tariffFor_switchLineup hs ht

end Sys2Proof.Machine
end

section
/-! SUPPORT. The slots of the Control Carrier, the arbiter's choice, reply windows and the judgement of a delivery. -/

namespace Sys2Proof.Machine

/-! ### Slots (R33 to R36) -/

theorem slotOpenStep_expecting {s : State} (h : s.carrier.expectation.isSome) : slotOpenStep s = s := if_pos h

theorem slotOpenStep_free {s : State} (h : s.carrier.expectation = none) :
    slotOpenStep s = match slotUse (nextSlot s.carrier.slotIndex) with
      | .carousel => carouselSlot (openSlot (nextSlot s.carrier.slotIndex) s)
      | .working => workingSlot (openSlot (nextSlot s.carrier.slotIndex) s)
      | .contention => contentionSlot (openSlot (nextSlot s.carrier.slotIndex) s) := if_neg (by simp [h])

theorem nextSlot_eq (i : Option Nat) :
    nextSlot i = match i with
      | none => 0
      | some k => if k = 15 then 0 else k + 1 := by
  cases i <;> rfl

theorem slotUse_carousel {i : Nat} (h : i = 0 ∨ i = 8) : slotUse i = .carousel := if_pos h

theorem slotUse_contention : slotUse 15 = .contention := rfl

theorem slotUse_working {i : Nat} (h : ¬(i = 0 ∨ i = 8)) (h15 : i ≠ 15) : slotUse i = .working := by
  rw [slotUse, if_neg h, if_neg h15]

/-- The slice at the cursor and the cursor behind it. -/
theorem sliceAt_eq (k : Nat) (l : Lineup) :
    let m := (l.active.entries.length + 3) / 4
    let header := k = 0 ∨ m < k
    sliceAt k l =
      (if header then .header l.active.version l.active.entries.length l.effective
        else .entries l.active.version k ((l.active.entries.drop (4 * (k - 1))).take 4),
        if header then (if m = 0 then 0 else 1) else if k < m then k + 1 else 0) := by
  intro m header
  by_cases h : header
  · have hfirst : (if 1 ≤ m then 1 else 0) = if m = 0 then 0 else 1 := by split_ifs <;> omega
    rw [if_pos h, if_pos h, ← hfirst]
    exact if_pos h
  · have hdrop : 4 * k - 4 = 4 * (k - 1) := by omega
    rw [if_neg h, if_neg h, ← hdrop]
    exact if_neg h

/-- Settles O22: each slot of fixed use by its step, the carousel's by `sliceAt_eq`. -/
theorem carouselAndContentionSlots : Obligations.CarouselAndContentionSlots := by
  intro s hp
  refine ⟨fun he => congrArg _ ((whenRunning_of_running hp).trans (slotOpenStep_expecting he)), fun he => ?_⟩
  intro index bank m k
  have hindex : nextSlot s.carrier.slotIndex = index := nextSlot_eq _
  have hstep : exec .slotOpen s = .next _ :=
    congrArg Host.Outcome.next ((whenRunning_of_running hp).trans (slotOpenStep_free he))
  rw [hindex] at hstep
  refine ⟨fun hi => ?_, fun hi => ?_⟩
  · intro header slice
    rw [hstep, slotUse_carousel hi]
    dsimp only
    have hslice : sliceAt (openSlot index s).carrier.cursor (openSlot index s).lineup = _ := sliceAt_eq k s.lineup
    rw [carouselSlot, hslice]
    dsimp only [sendPacket, openSlot]
    rw [he]
  · rw [hstep, hi, slotUse_contention]
    rfl

/-! ### A working slot (R36, R37) -/

theorem exec_workingSlot {s u : State} {k : Nat} {poll : Option PollInFlight} (hp : s.phase = .running)
    (he : s.carrier.expectation = none) (hk : s.carrier.slotIndex = some k) (h14 : k < 14) (h7 : k ≠ 7)
    (hoffer : pollOffer { s with carrier := { s.carrier with slotIndex := some (k + 1) } } = (u, poll)) :
    exec .slotOpen s = .next (arbitrate (switchingOffer u) poll u) := by
  have hindex : nextSlot s.carrier.slotIndex = k + 1 := by rw [hk, nextSlot_eq]; exact if_neg (by omega)
  have hopen : openSlot (k + 1) s = { s with carrier := { s.carrier with slotIndex := some (k + 1) } } := by
    rw [openSlot, if_neg (by omega)]
  refine congrArg _ ((whenRunning_of_running hp).trans ((slotOpenStep_free he).trans ?_))
  rw [hindex, slotUse_working (by omega) (by omega)]
  dsimp only
  rw [workingSlot, hopen, hoffer]

theorem arbitrate_answer {tap : Option TapRec} {poll : Option PollInFlight} {u : State} {a : Answer}
    {rest : List Answer} (h : u.carrier.answers = a :: rest) : arbitrate tap poll u = sendAnswer a rest u := by
  simp only [arbitrate, h]

theorem arbitrate_tapSet {t : TapRec} {poll : Option PollInFlight} {u : State} (h : u.carrier.answers = [])
    (hc : u.carrier.frameTapSets < 4 ∨ poll = none) : arbitrate (some t) poll u = sendTapSet t u := by
  cases poll with
  | none => simp only [arbitrate, h]
  | some p => simp only [arbitrate, h, hc.resolve_right nofun, if_true]

theorem arbitrate_poll {tap : Option TapRec} {p : PollInFlight} {u : State} (h : u.carrier.answers = [])
    (hc : tap = none ∨ 4 ≤ u.carrier.frameTapSets) : arbitrate tap (some p) u = sendPoll p u := by
  cases tap with
  | none => simp only [arbitrate, h]
  | some t =>
    have : ¬u.carrier.frameTapSets < 4 := Nat.not_lt.2 (hc.resolve_left nofun)
    simp only [arbitrate, h, this, if_false]

theorem arbitrate_idle {u : State} (h : u.carrier.answers = []) :
    arbitrate none none u = sendPacket (.idle false) none u := by
  simp only [arbitrate, h]

theorem sendable_iff {s : State} {a : Nat} :
    sendable s a = true ↔ ∃ t, findTap a s.taps = some t ∧ (nodeOf s t.node).state ≠ .outage ∧
      t.switching.inFlight = false := by
  unfold sendable
  split <;> simp [*]

theorem not_sendable_iff {s : State} {a : Nat} :
    sendable s a = false ↔ ∀ r, findTap a s.taps = some r → (nodeOf s r.node).state = .outage ∨
      r.switching.inFlight = true := by
  rw [← Bool.not_eq_true, sendable_iff]
  constructor
  · intro h r hr
    by_contra hn
    rw [not_or] at hn
    exact h ⟨r, hr, hn.1, by simpa using hn.2⟩
  · rintro h ⟨t, ht, hn, hf⟩
    obtain h | h := h t ht
    · exact hn h
    · exact absurd (hf.symm.trans h) nofun

/-- The tap offered is the oldest of the queue that can be sent (R95). -/
theorem switchingOffer_eq_some_iff {s : State} {t : TapRec} :
    switchingOffer s = some t ↔
      ∃ older younger, s.commandQueue = older ++ t.address :: younger ∧ findTap t.address s.taps = some t ∧
        (nodeOf s t.node).state ≠ .outage ∧ t.switching.inFlight = false ∧
        ∀ a ∈ older, ∀ r, findTap a s.taps = some r → (nodeOf s r.node).state = .outage ∨ r.switching.inFlight = true := by
  simp only [switchingOffer, Option.bind_eq_some_iff, List.find?_eq_some_iff_append]
  constructor
  · rintro ⟨a, ⟨hs, older, younger, hq, hold⟩, ht⟩
    obtain ⟨-, rfl⟩ := findTap_some ht
    obtain ⟨t', ht', hn, hf⟩ := sendable_iff.1 hs
    obtain rfl : t' = t := Option.some.inj (ht'.symm.trans ht)
    exact ⟨older, younger, hq, ht, hn, hf, fun a ha => not_sendable_iff.1 (by simpa using hold a ha)⟩
  · rintro ⟨older, younger, hq, ht, hn, hf, hold⟩
    exact ⟨t.address, ⟨sendable_iff.2 ⟨t, ht, hn, hf⟩, older, younger, hq,
      fun a ha => by simpa using not_sendable_iff.2 (hold a ha)⟩, ht⟩

/-- Settles O23: the arbiter's cases, and the Switching Engine's offer by `switchingOffer_eq_some_iff`. -/
theorem workingSlotChoosesByCase : Obligations.WorkingSlotChoosesByCase := by
  refine ⟨fun s u k poll hp he hk h14 h7 hoffer => ?_, fun s t => switchingOffer_eq_some_iff⟩
  rw [exec_workingSlot hp he hk h14 h7 hoffer]
  have hcarrier : u.carrier = { s.carrier with slotIndex := some (k + 1) } := by
    have := (changes_pollOffer { s with carrier := { s.carrier with slotIndex := some (k + 1) } }).same .carrier
    rw [hoffer] at this
    exact this
  have hexpect : u.carrier.expectation = none := by rw [hcarrier]; exact he
  refine ⟨fun a rest ha => ?_, fun ha => ⟨fun t ht hc => ?_, fun p hpoll hc => ?_, fun hpoll ht => ?_⟩⟩
  · rw [arbitrate_answer ha, sendAnswer, sendPacket, ← hexpect]
  · rw [ht, arbitrate_tapSet ha hc]
    rfl
  · rw [hpoll, arbitrate_poll ha hc, sendPoll]
    cases hkind : p.entry.kind <;> rfl
  · rw [hpoll, ht, arbitrate_idle ha, sendPacket, ← hexpect]

/-! ### Reply windows (R43 to R46) -/

theorem fitsExpectation_iff {e : Expectation} {m : UpMessage} :
    fitsExpectation e m = true ↔
      upKind m = e.kind ∧ (∀ a ∈ e.address, upAddress m = a) ∧
        (e.address = none → addressInRange (upAddress m) = true) := by
  unfold fitsExpectation
  cases e.address <;> simp

theorem classify_good_iff {e : Expectation} {energy : Bool} {message : Option (List Byte)} {m : UpMessage} :
    classify e energy message = .good m ↔
      ∃ bs, message = some bs ∧ readUpMessage bs = some m ∧ fitsExpectation e m = true := by
  cases message with
  | none => cases energy <;> simp [classify]
  | some bs =>
    cases hread : readUpMessage bs with
    | none => simp [classify, hread]
    | some x =>
      by_cases hfit : fitsExpectation e x = true
      · simp only [classify, hread, hfit, if_true, WindowResult.good.injEq, Option.some.injEq, exists_eq_left']
        constructor
        · rintro rfl
          exact ⟨rfl, hfit⟩
        · exact fun h => h.1
      · simp only [classify, hread, hfit, Option.some.injEq, exists_eq_left']
        constructor
        · simp
        · rintro ⟨rfl, h⟩
          exact absurd h hfit

theorem classify_none_iff {e : Expectation} {energy : Bool} {message : Option (List Byte)} :
    classify e energy message = .none ↔ energy = false ∧ message = none := by
  cases message with
  | none => cases energy <;> simp [classify]
  | some bs =>
    simp only [classify, reduceCtorEq, and_false, iff_false]
    split
    · split <;> nofun
    · nofun

/-- The state in which a window's result is handed on: the expectation has ended (R44). -/
def closeWindow (s : State) : State := { s with carrier := { s.carrier with expectation := none } }

theorem exec_replyWindowClose {s : State} {e : Expectation} (hp : s.phase = .running)
    (he : s.carrier.expectation = some e) (energy : Bool) (message : Option (List Byte)) :
    exec (.replyWindowClose energy message) s =
      .next (handResult e (classify e energy message) (closeWindow s)) := by
  refine congrArg _ ((whenRunning_of_running hp).trans ?_)
  rw [replyWindowCloseStep, he]
  rfl

/-- Settles O24: the classification by its two equivalences, and the contention slot's result by its cases. -/
theorem replyWindowsAndContention : Obligations.ReplyWindowsAndContention := by
  refine ⟨fun e energy message m => ⟨?_, classify_none_iff⟩, fun s energy message hp => ⟨fun he => ?_,
    fun e he howner => ?_⟩⟩
  · rw [classify_good_iff]
    simp only [fitsExpectation_iff]
  · refine congrArg _ ((whenRunning_of_running hp).trans ?_)
    rw [replyWindowCloseStep, he]
  · rw [exec_replyWindowClose hp he, handResult, howner]
    dsimp only
    refine ⟨fun p hgood hroom => ?_, fun h => ?_⟩
    · rw [hgood]
      exact congrArg _ (if_pos hroom)
    · unfold contentionResult
      split
      · rename_i p hgood
        exact congrArg _ (if_neg (Nat.not_lt.2 (h.resolve_left fun hn => hn p hgood)))
      · rfl

end Sys2Proof.Machine
end

section
/-! SUPPORT. Changes of one tap record, and the judgement of a delivery (R97, R98). -/

namespace Sys2Proof.Machine

/-! ### One tap of the table -/

theorem modifyTap_modifyTap (a : Nat) (f g : TapRec → TapRec) (hf : ∀ t, (f t).address = t.address)
    (taps : List TapRec) : modifyTap a g (modifyTap a f taps) = modifyTap a (fun t => g (f t)) taps := by
  rw [modifyTap, modifyTap, modifyTap, List.map_map]
  refine List.map_congr_left fun t _ => ?_
  by_cases h : t.address = a
  · simp [h, hf]
  · simp [h]

/-- Rising addresses: the tap found is the only one with its address. -/
theorem eq_of_address {taps : List TapRec} (h : rising (taps.map (·.address))) {t x : TapRec} (ht : t ∈ taps)
    (hx : x ∈ taps) (ha : x.address = t.address) : x = t :=
  List.inj_on_of_nodup_map h.nodup hx ht ha

/-- Two changes that agree on the tap found make the same table. -/
theorem modifyTap_congr {taps : List TapRec} (h : rising (taps.map (·.address))) {t : TapRec}
    (ht : findTap t.address taps = some t) {f g : TapRec → TapRec} (hfg : f t = g t) :
    modifyTap t.address f taps = modifyTap t.address g taps := by
  refine List.map_congr_left fun x hx => ?_
  by_cases ha : x.address = t.address
  · rw [if_pos ha, if_pos ha, eq_of_address h (findTap_some ht).1 hx ha, hfg]
  · rw [if_neg ha, if_neg ha]

/-- The fault condition of a node once a tap's flag is clear: it is the other taps'. -/
theorem any_fault_cleared {taps : List TapRec} {a n : Nat} {f : SwitchRec → SwitchRec}
    (hf : ∀ r, (f r).fault = false) :
    ((modifyTap a (fun t => { t with switching := f t.switching }) taps).any fun x => x.node = n && x.switching.fault) =
      taps.any fun x => x.node = n && x.address ≠ a && x.switching.fault := by
  rw [modifyTap, List.any_map]
  refine List.any_congr rfl fun x => ?_
  by_cases h : x.address = a <;> simp [h, hf]

/-- The fault condition of a node once one of its taps has its flag set. -/
theorem any_fault_set {taps : List TapRec} {t : TapRec} (ht : t ∈ taps) {f : SwitchRec → SwitchRec}
    (hf : (f t.switching).fault = true) :
    ((modifyTap t.address (fun t => { t with switching := f t.switching }) taps).any fun x =>
      x.node = t.node && x.switching.fault) = true := by
  rw [modifyTap, List.any_map, List.any_eq_true]
  exact ⟨t, ht, by simp [hf]⟩

theorem unqueue_eq (a : Nat) (queue : List Nat) : unqueue a queue = queue.filter fun x => x ≠ a := by
  refine List.filter_congr fun x _ => ?_
  by_cases h : x = a <;> simp [h]

/-! ### The judgement of a delivery -/

theorem deliverySucceeds_iff {r : SwitchRec} {result : WindowResult} :
    deliverySucceeds r result = true ↔ ∃ sent a ports, r.sent = some sent ∧ result = .good (.ack a r.serial ports) ∧
      sameSetting ports sent = true := by
  unfold deliverySucceeds
  split
  · rename_i a serial ports
    cases hs : r.sent with
    | none => simp
    | some sent =>
      simp only [Bool.and_eq_true, decide_eq_true_eq, Option.any_some, WindowResult.good.injEq, UpMessage.ack.injEq,
        Option.some.injEq]
      constructor
      · rintro ⟨rfl, h⟩
        exact ⟨sent, a, ports, rfl, ⟨rfl, rfl, rfl⟩, h⟩
      · rintro ⟨_, _, _, rfl, ⟨-, rfl, rfl⟩, h⟩
        exact ⟨rfl, h⟩
  · rename_i h
    simp only [Bool.false_eq_true, false_iff, not_exists, not_and]
    rintro sent a ports - rfl
    exact absurd rfl (h _ _ _)

section
variable {s : State} {t : TapRec} (ht : findTap t.address s.taps = some t)

include ht in
theorem judgeDelivery_done {result : WindowResult} (h : deliverySucceeds t.switching result = true) :
    judgeDelivery t.address result s = deliveryDone t s := by
  rw [judgeDelivery, ht]
  exact if_pos h

include ht in
theorem judgeDelivery_failed {result : WindowResult} (h : ¬deliverySucceeds t.switching result = true) :
    judgeDelivery t.address result s = deliveryFailed t s := by
  rw [judgeDelivery, ht]
  exact if_neg h

/-- The record of a tap whose window has closed. -/
def closeSent (r : SwitchRec) : SwitchRec := { r with sent := none, inFlight := false }

include ht in
theorem deliveryDone_eq (hrising : rising (s.taps.map (·.address))) {sent : TapSetting}
    (hsent : t.switching.sent = some sent) :
    deliveryDone t s =
      giveCondition (switchFaultSource t.node)
        (s.taps.any fun x => x.node = t.node && x.address ≠ t.address && x.switching.fault)
        { s with
          taps := modifyTap t.address (fun x => { x with switching :=
            { closeSent x.switching with confirmed := some sent, attempts := 0, fault := false } }) s.taps,
          commandQueue :=
            if sameSetting sent t.switching.desired then s.commandQueue.filter fun x => x ≠ t.address
            else if t.state = .removing then s.commandQueue
            else (s.commandQueue.filter fun x => x ≠ t.address) ++ [t.address] } := by
  have hfault := any_fault_cleared (taps := s.taps) (a := t.address) (n := t.node) (f := fun r =>
    { r with confirmed := r.sent, attempts := 0, fault := false, sent := none, inFlight := false }) fun _ => rfl
  rw [deliveryDone, judgeSwitchFault, switchFault, ← hfault]
  simp only [hsent, confirms, Option.any_some, toTail, unqueue_eq]
  have htaps := modifyTap_congr hrising ht (f := fun x => { x with switching :=
      { x.switching with confirmed := x.switching.sent, attempts := 0, fault := false, sent := none, inFlight := false } })
    (g := fun x => { x with switching :=
      { closeSent x.switching with confirmed := some sent, attempts := 0, fault := false } })
    (by rw [hsent]; rfl)
  rw [← htaps]
  rfl

theorem deliveryFailed_unqueued (hq : t.address ∉ s.commandQueue) :
    deliveryFailed t s =
      { s with taps := modifyTap t.address (fun x => { x with switching := closeSent x.switching }) s.taps } :=
  if_neg (by simpa using hq)

include ht in
theorem deliveryFailed_counted (hrising : rising (s.taps.map (·.address))) (hq : t.address ∈ s.commandQueue)
    (hattempts : t.switching.attempts + 1 < 4) :
    deliveryFailed t s =
      { s with
        taps := modifyTap t.address (fun x => { x with switching :=
          { closeSent x.switching with attempts := t.switching.attempts + 1 } }) s.taps,
        commandQueue := (s.commandQueue.filter fun x => x ≠ t.address) ++ [t.address] } := by
  rw [deliveryFailed, if_pos (by simpa using hq), if_pos hattempts, toTail, unqueue_eq, modifySwitch, modifySwitch]
  dsimp only
  rw [modifyTap_modifyTap]
  · congr 1
    exact modifyTap_congr hrising ht rfl
  · exact fun _ => rfl

include ht in
theorem deliveryFailed_last (hq : t.address ∈ s.commandQueue) (hattempts : 4 ≤ t.switching.attempts + 1) :
    deliveryFailed t s =
      giveCondition (switchFaultSource t.node) true
        { s with
          taps := modifyTap t.address (fun x => { x with switching :=
            { closeSent x.switching with attempts := 4, fault := true, confirmed := none } }) s.taps,
          commandQueue := s.commandQueue.filter fun x => x ≠ t.address } := by
  have hfault := any_fault_set (findTap_some ht).1 (f := fun r =>
    { closeSent r with attempts := 4, fault := true, confirmed := none }) rfl
  rw [deliveryFailed, if_pos (by simpa using hq), if_neg (by omega), unqueue_eq, modifySwitch, modifySwitch,
    judgeSwitchFault, switchFault]
  dsimp only
  rw [modifyTap_modifyTap]
  · exact congrArg (fun b => giveCondition (switchFaultSource t.node) b _) hfault
  · exact fun _ => rfl

end

/-- Settles O26: an acknowledgement is a success by `deliverySucceeds_iff`, and each outcome has its equation. -/
theorem deliveryIsJudged : Obligations.DeliveryIsJudged := by
  intro s t energy message e hp he howner haddress ht a r closed without delivered
  have hexec := exec_replyWindowClose hp he energy message
  rw [handResult, howner, haddress] at hexec
  dsimp only [Option.getD_some] at hexec
  have hsucceeds : deliverySucceeds r (classify e energy message) = true ↔ delivered := by
    rw [deliverySucceeds_iff]
    constructor
    · rintro ⟨sent, b, ports, hsent, hgood, hsame⟩
      obtain ⟨bs, -, -, hfit⟩ := classify_good_iff.1 hgood
      obtain rfl : b = a := (fitsExpectation_iff.1 hfit).2.1 a haddress
      exact ⟨sent, r.serial, ports, hsent, hgood, rfl, hsame⟩
    · rintro ⟨sent, _, ports, hsent, hgood, rfl, hsame⟩
      exact ⟨sent, a, ports, hsent, hgood, hsame⟩
  refine ⟨fun sent hsent hd hrising => ?_, fun hd => ⟨fun hq => ?_, fun hq hattempts hrising => ?_,
    fun hq hattempts => ?_⟩⟩
  · rw [hexec, judgeDelivery_done (s := closeWindow s) ht (hsucceeds.2 hd), deliveryDone_eq (s := closeWindow s) ht hrising hsent]
    rfl
  all_goals rw [hexec, judgeDelivery_failed (s := closeWindow s) ht (mt hsucceeds.1 hd)]
  · rw [deliveryFailed_unqueued (s := closeWindow s) hq]
    rfl
  · rw [deliveryFailed_counted (s := closeWindow s) ht hrising hq hattempts]
    rfl
  · rw [deliveryFailed_last (s := closeWindow s) ht hq hattempts]
    rfl

end Sys2Proof.Machine
end

section
/-! SUPPORT. Adding and removing units, the scheduler's requests, the orders of a pass and the scheduler's offer. -/

namespace Sys2Proof.Machine

/-! ### A record put at its place in rising order of its key -/

/-- The insertion that `insertTap`, `insertAccount` and `insertEvent` make, for any key. -/
def insertKeyed {α : Type} (key : α → Nat) (x : α) : List α → List α
  | [] => [x]
  | y :: ys => if key x < key y then x :: y :: ys else y :: insertKeyed key x ys

theorem mem_insertKeyed {α : Type} {key : α → Nat} {x z : α} {xs : List α} :
    z ∈ insertKeyed key x xs ↔ z = x ∨ z ∈ xs := by
  induction xs with
  | nil => simp [insertKeyed]
  | cons y ys ih =>
    rw [insertKeyed]
    split
    · simp
    · simp only [List.mem_cons, ih]
      tauto

theorem rising_insertKeyed {α : Type} {key : α → Nat} {x : α} {xs : List α} (h : rising (xs.map key))
    (hfree : ∀ y ∈ xs, key y ≠ key x) : rising ((insertKeyed key x xs).map key) := by
  induction xs with
  | nil => simp [insertKeyed, rising]
  | cons y ys ih =>
    obtain ⟨later, hys⟩ := List.pairwise_cons.1 h
    have hy := hfree y (.head _)
    rw [insertKeyed]
    split
    · rename_i hlt
      refine List.pairwise_cons.2 ⟨fun k hk => ?_, h⟩
      obtain rfl | hk := List.mem_cons.1 hk
      · exact hlt
      · exact hlt.trans (later k hk)
    · refine List.pairwise_cons.2 ⟨fun k hk => ?_, ih hys fun z hz => hfree z (.tail _ hz)⟩
      obtain ⟨z, hz, rfl⟩ := List.mem_map.1 hk
      obtain rfl | hz := mem_insertKeyed.1 hz
      · exact lt_of_le_of_ne (Nat.not_lt.1 ‹_›) hy
      · exact later _ (List.mem_map_of_mem hz)

theorem insertTap_eq (t : TapRec) (xs : List TapRec) : insertTap t xs = insertKeyed (·.address) t xs := by
  induction xs with
  | nil => rfl
  | cons b bs ih => rw [insertTap, insertKeyed, ih]

theorem insertAccount_eq (a : Account) (xs : List Account) : insertAccount a xs = insertKeyed (·.number) a xs := by
  induction xs with
  | nil => rfl
  | cons b bs ih => rw [insertAccount, insertKeyed, ih]

theorem insertEvent_eq (e : EventRec) (xs : List EventRec) : insertEvent e xs = insertKeyed (·.id) e xs := by
  induction xs with
  | nil => rfl
  | cons b bs ih => rw [insertEvent, insertKeyed, ih]

/-! ### Adding a tap (R52) -/

theorem addressInRange_iff {a : Nat} : addressInRange a = true ↔ 1 ≤ a ∧ a ≤ 16777214 := by
  unfold addressInRange broadcastAddress
  simp only [Bool.and_eq_true, decide_eq_true_eq]
  omega

theorem findTap_isSome_iff {a : Nat} {taps : List TapRec} :
    (findTap a taps).isSome = true ↔ ∃ t ∈ taps, t.address = a := by
  simp [findTap, List.find?_isSome]

theorem transponderNode_isSome_iff {a : Nat} {s : State} :
    (transponderNode a s).isSome = true ↔ ∃ n ∈ upTo 32, (transponderOf s n).address = some a := by
  simp [transponderNode, List.find?_isSome]

/-- The model that a code 0..2 names. -/
def modelNamed : Nat → TapModel
  | 0 => .onoff
  | 1 => .tiered
  | _ => .event

theorem tapModelOf_eq (model : Nat) : tapModelOf model = if model ≤ 2 then some (modelNamed model) else none := by
  match model with
  | 0 => rfl
  | 1 => rfl
  | 2 => rfl
  | n + 3 => rw [if_neg (by omega)]; rfl

theorem tapAddStep_eq (address node model : Nat) (u : State) :
    tapAddStep address node model u =
      if ¬((1 ≤ address ∧ address ≤ 16777214) ∧ (1 ≤ node ∧ node ≤ 32) ∧ model ≤ 2) then (u, refusal .outOfRange)
      else if (∃ t ∈ u.taps, t.address = address) ∨ (∃ n ∈ upTo 32, (transponderOf u n).address = some address) then
        (u, refusal .existing)
      else if 512 ≤ u.taps.length then (u, refusal .tableFull)
      else
        (changeNextList (· ++ [{ kind := .tap, address := address, node := node }])
          { u with taps := insertTap (newTap address node (modelNamed model)) u.taps }, replyOk []) := by
  have hrange : (!addressInRange address || !within 1 32 node) = true ↔
      ¬((1 ≤ address ∧ address ≤ 16777214) ∧ (1 ≤ node ∧ node ≤ 32)) := by
    simp only [Bool.or_eq_true, Bool.not_eq_true', ← Bool.not_eq_true, addressInRange_iff, within_iff]
    tauto
  have htaken : ((findTap address u.taps).isSome || (transponderNode address u).isSome) = true ↔
      (∃ t ∈ u.taps, t.address = address) ∨ (∃ n ∈ upTo 32, (transponderOf u n).address = some address) := by
    rw [Bool.or_eq_true, findTap_isSome_iff, transponderNode_isSome_iff]
  unfold tapAddStep
  rw [tapModelOf_eq]
  by_cases hr : (1 ≤ address ∧ address ≤ 16777214) ∧ (1 ≤ node ∧ node ≤ 32)
  · rw [if_neg fun h => hrange.1 h hr]
    by_cases hm : model ≤ 2
    · rw [if_pos hm, if_neg (not_not.2 ⟨hr.1, hr.2, hm⟩)]
      dsimp only
      exact if_congr htaken rfl rfl
    · rw [if_neg hm, if_pos fun h => hm h.2.2]
  · rw [if_pos (hrange.2 hr), if_pos fun h => hr ⟨h.1, h.2.1⟩]

/-! ### Removing a tap (R53, R102) -/

theorem tapRemoveStep_outOfRange {address : Nat} {u : State} (h : ¬(1 ≤ address ∧ address ≤ 16777214)) :
    tapRemoveStep address u = (u, refusal .outOfRange) :=
  if_pos (by simpa [← Bool.not_eq_true, addressInRange_iff] using h)

theorem tapRemoveStep_inRange {address : Nat} {u : State} (h : 1 ≤ address ∧ address ≤ 16777214) :
    tapRemoveStep address u = match findTap address u.taps with
      | none => (u, refusal .notFound)
      | some t =>
        if t.state = .removing || t.ports.toList.any (·.isSome) then (u, refusal .wrongState)
        else
          (withdraw t (setTapState t .removing
            (changeNextList (fun l => l.filter fun e => !(e.kind = .tap && e.address = address)) u)), replyOk []) :=
  if_neg (by simpa [addressInRange_iff] using h)

theorem removal_blocked_iff {t : TapRec} :
    (t.state = .removing || t.ports.toList.any (·.isSome)) = true ↔
      t.state = .removing ∨ ∃ p ∈ t.ports.toList, p ≠ none := by
  simp only [Bool.or_eq_true, decide_eq_true_eq, List.any_eq_true, Option.isSome_iff_ne_none]

/-- A withdrawn tap: off the queue, its attempts and fault clear, and SWITCH_FAULT that of the node's other taps. -/
theorem withdraw_eq (t : TapRec) (s : State) :
    withdraw t s = giveCondition (switchFaultSource t.node)
      (s.taps.any fun r => r.node = t.node && r.address ≠ t.address && r.switching.fault)
      { s with
        commandQueue := s.commandQueue.filter fun x => x ≠ t.address,
        taps := modifyTap t.address (fun r => { r with switching := { r.switching with attempts := 0, fault := false } })
          s.taps } := by
  have hfault := any_fault_cleared (taps := s.taps) (a := t.address) (n := t.node)
    (f := fun r => { r with attempts := 0, fault := false }) fun _ => rfl
  rw [withdraw, judgeSwitchFault, switchFault, ← hfault, unqueue_eq]
  rfl

theorem setTapState_of_ne {t : TapRec} {state : UnitState} (h : t.state ≠ state) (s : State) :
    setTapState t state s =
      reevaluate t.node { s with taps := modifyTap t.address (fun r => { r with state := state }) s.taps } := if_neg h

/-- Settles O27: TAP_ADD by the equation of its step and the place of the new record, TAP_REMOVE by its cases. -/
theorem tapAddAndRemove : Obligations.TapAddAndRemove := by
  refine ⟨fun tag address node model s u => ?_, fun tag address s u => ?_⟩
  · intro c made h
    refine ⟨?_, fun hrising hfree => ⟨insertTap_eq _ _ ▸ rising_insertKeyed hrising hfree,
      fun t => insertTap_eq _ _ ▸ mem_insertKeyed⟩⟩
    rw [exec_of_executes (owner := tapAddStep address node model) rfl h, tapAddStep_eq]
    split_ifs <;> rfl
  · intro c h
    have hexec := exec_of_executes (owner := tapRemoveStep address) rfl h
    refine ⟨fun hr => ?_, fun hlow hhigh => ?_⟩
    · rw [hexec, tapRemoveStep_outOfRange hr]
    rw [tapRemoveStep_inRange ⟨hlow, hhigh⟩] at hexec
    refine ⟨fun hnone => ?_, fun t ht => ⟨fun hblocked => ?_, fun hstate hports => ?_⟩⟩
    · rw [hexec, hnone]
    · rw [hexec, ht]
      dsimp only
      rw [if_pos (removal_blocked_iff.2 hblocked)]
    · obtain ⟨-, rfl⟩ := findTap_some ht
      intro v
      have hfree : ¬(t.state = .removing || t.ports.toList.any (·.isSome)) = true := by
        rw [removal_blocked_iff]
        rintro (h | ⟨p, hp, hne⟩)
        · exact hstate h
        · exact hne (hports p hp)
      rw [hexec, ht]
      dsimp only
      rw [if_neg hfree, setTapState_of_ne hstate, withdraw_eq]
      have hnext : (u.sched.next.filter fun e => !(decide (e.kind = .tap) && decide (e.address = t.address))) =
          u.sched.next.filter fun e => ¬(e.kind = .tap ∧ e.address = t.address) := by
        refine List.filter_congr fun e _ => ?_
        simp
      rw [changeNextList, hnext]
      rfl

/-! ### TRANSPONDER_SET (R54) -/

theorem transponder_inRange_iff {n : Nat} {address : Option Nat} :
    (!within 1 32 n || address.any fun a => !addressInRange a) = true ↔
      ¬((1 ≤ n ∧ n ≤ 32) ∧ ∀ a ∈ address, 1 ≤ a ∧ a ≤ 16777214) := by
  have hany : (address.any fun a => !addressInRange a) = true ↔ ¬∀ a ∈ address, 1 ≤ a ∧ a ≤ 16777214 := by
    cases address with
    | none => simp
    | some a => simp [← Bool.not_eq_true, addressInRange_iff]
  rw [Bool.or_eq_true, hany, Bool.not_eq_true', ← Bool.not_eq_true, within_iff]
  tauto

theorem addressTaken_iff {n : Nat} {address : Option Nat} {u : State} :
    (address.any fun a => addressTaken n a u) = true ↔
      ∃ a ∈ address, (∃ t ∈ u.taps, t.address = a) ∨
        ∃ m ∈ upTo 32, m ≠ n ∧ (transponderOf u m).address = some a := by
  cases address with
  | none => simp
  | some a => simp [addressTaken, findTap_isSome_iff]

/-- The rows of TRANSPONDER_SET's table, behind its two checks. -/
def transponderRow (n : Nat) (held : Option Nat) (state : UnitState) (address : Option Nat) (u : State) :
    State × Reply :=
  match held, address with
  | none, some a =>
    (changeNextList (· ++ [{ kind := .transponder, address := a, node := n }])
      (modifyTransponder n (fun _ => freshTransponder a) u), replyOk [])
  | none, none => (u, replyOk [])
  | some h, some a => if state ≠ .removing ∧ h = a then (u, replyOk []) else (u, refusal .wrongState)
  | some _, none =>
    if state = .removing then (u, replyOk [])
    else
      (changeNextList (fun l => l.filter fun e => ¬(e.kind = .transponder ∧ e.node = n))
        (modifyTransponder n (fun r => { r with state := .removing }) u), replyOk [])

theorem transponderSetStep_row {n : Nat} {address : Option Nat} {u : State}
    (hr : (1 ≤ n ∧ n ≤ 32) ∧ ∀ a ∈ address, 1 ≤ a ∧ a ≤ 16777214)
    (ht : ¬∃ a ∈ address, (∃ t ∈ u.taps, t.address = a) ∨
      ∃ m ∈ upTo 32, m ≠ n ∧ (transponderOf u m).address = some a) :
    transponderSetStep n address u =
      transponderRow n (transponderOf u n).address (transponderOf u n).state address u := by
  have hnext : (u.sched.next.filter fun e => !(decide (e.kind = .transponder) && decide (e.node = n))) =
      u.sched.next.filter fun e => ¬(e.kind = .transponder ∧ e.node = n) := by
    refine List.filter_congr fun e _ => ?_
    simp
  rw [transponderSetStep, if_neg fun h => transponder_inRange_iff.1 h hr, if_neg fun h => ht (addressTaken_iff.1 h)]
  dsimp only
  generalize hheld : (transponderOf u n).address = held
  generalize hstate : (transponderOf u n).state = state
  cases held with
  | none => cases address <;> rfl
  | some h =>
    cases address with
    | some a => cases state <;> simp [transponderRow]
    | none => cases state <;> simp only [transponderRow, changeNextList, modifyTransponder, hnext] <;> rfl

/-- Settles O28: the two checks, and then the rows of the step's table. -/
theorem transponderSet : Obligations.TransponderSet := by
  intro tag node address s u c r taken h
  have hexec := exec_of_executes (owner := transponderSetStep node address) rfl h
  refine ⟨fun hr => ?_, fun hlow hhigh ha => ⟨fun ht => ?_, fun ht => ?_⟩⟩
  · rw [hexec, transponderSetStep, if_pos (transponder_inRange_iff.2 hr)]
  · rw [hexec, transponderSetStep, if_neg fun hr => transponder_inRange_iff.1 hr ⟨⟨hlow, hhigh⟩, ha⟩,
      if_pos (addressTaken_iff.2 ht)]
  have hr : transponderOf u node = r := rfl
  rw [transponderSetStep_row ⟨⟨hlow, hhigh⟩, ha⟩ ht, hr] at hexec
  rw [hexec]
  refine ⟨fun a hnone haddress => ?_, fun hnone haddress => ?_, fun held hheld hstate => ⟨fun haddress => ?_,
    fun haddress => ?_, fun a haddress hne => ?_⟩, fun hsome hstate => ?_⟩
  · rw [hnone, haddress]
    rfl
  · rw [hnone, haddress]
    rfl
  · rw [hheld, haddress]
    exact congrArg (fun x : State × Reply => replies c x.2 x.1) (if_pos ⟨hstate, rfl⟩)
  · rw [hheld, haddress]
    exact congrArg (fun x : State × Reply => replies c x.2 x.1) (if_neg hstate)
  · rw [hheld, haddress]
    exact congrArg (fun x : State × Reply => replies c x.2 x.1) (if_neg fun h => hne h.2.symm)
  · obtain ⟨held, hheld⟩ := Option.ne_none_iff_exists'.1 hsome
    rw [hheld, hstate]
    cases address <;> rfl

/-! ### POLL_ORDER and POLL_SUSPEND (R57, R63) -/

/-- Settles O30, by the codes of the orders and the states of the scheduler. -/
theorem pollOrderAndSuspend : Obligations.PollOrderAndSuspend := by
  refine ⟨fun tag order s u => ?_, fun tag s u => ?_⟩
  · intro c h
    rw [exec_of_executes (owner := pollOrderStep order) rfl h, pollOrderStep]
    match order with
    | 0 => rfl
    | 1 => rfl
    | n + 2 => rfl
  · intro c h
    rw [exec_of_executes (owner := pollSuspendStep) rfl h, pollSuspendStep]
    by_cases hr : u.sched.state = .running
    · rw [if_pos hr, if_neg (not_not.2 hr)]
      cases hf : u.sched.inFlight <;> rfl
    · rw [if_neg hr, if_pos hr]

end Sys2Proof.Machine
end

section
/-! SUPPORT. The orders of a pass, the scheduler's offer and the pass end, and the landing of a poll's reply. -/

namespace Sys2Proof.Machine

/-! ### The orders of a pass (R57) -/

theorem spreadBits_spec {l : Nat} (h : l ≤ 544) :
    spreadBits l ≤ 10 ∧ l ≤ 2 ^ spreadBits l ∧ ∀ b, l ≤ 2 ^ b → spreadBits l ≤ b := by
  unfold spreadBits
  cases hf : (List.range 10).find? fun b => l ≤ 2 ^ b with
  | none =>
    refine ⟨le_rfl, h.trans (by norm_num), fun b hb => ?_⟩
    by_contra hlt
    have := List.find?_eq_none.1 hf b (List.mem_range.2 (by simpa using hlt))
    simp [hb] at this
  | some b =>
    obtain ⟨hp, hb, hlower⟩ := List.find?_range_eq_some.1 hf
    refine ⟨(List.mem_range.1 hb).le, by simpa using hp, fun c hc => ?_⟩
    by_contra hlt
    have := hlower c (by simpa using hlt)
    simp [hc] at this

theorem reverseDigits_lt (bits k : Nat) : reverseDigits bits k < 2 ^ bits := by
  induction bits generalizing k with
  | zero => simp [reverseDigits]
  | succ b ih =>
    have hrest := ih (k / 2)
    have hdigit : k % 2 ≤ 1 := by omega
    rw [reverseDigits, pow_succ]
    nlinarith

/-- The digits of a visit's position are those of the visit in reverse. -/
theorem testBit_reverseDigits {bits i : Nat} (k : Nat) (hi : i < bits) :
    (reverseDigits bits k).testBit i = k.testBit (bits - 1 - i) := by
  induction bits generalizing k i with
  | zero => omega
  | succ b ih =>
    rw [reverseDigits, Nat.mul_comm, Nat.testBit_two_pow_mul_add _ (reverseDigits_lt b (k / 2))]
    split
    · rename_i hib
      rw [ih (k / 2) hib, ← Nat.testBit_succ]
      congr 1
      omega
    · obtain rfl : i = b := by omega
      rw [Nat.sub_self, show i + 1 - 1 - i = 0 by omega, Nat.testBit_zero, Nat.testBit_zero, Nat.mod_mod]

/-- Reversing the digits twice gives the number back. -/
theorem reverseDigits_reverseDigits {bits k : Nat} (h : k < 2 ^ bits) :
    reverseDigits bits (reverseDigits bits k) = k := by
  refine Nat.eq_of_testBit_eq fun i => ?_
  by_cases hi : i < bits
  · rw [testBit_reverseDigits _ hi, testBit_reverseDigits _ (by omega)]
    congr 1
    omega
  · have hpow : 2 ^ bits ≤ 2 ^ i := Nat.pow_le_pow_right (by norm_num) (Nat.not_lt.1 hi)
    rw [Nat.testBit_lt_two_pow ((reverseDigits_lt _ _).trans_le hpow), Nat.testBit_lt_two_pow (h.trans_le hpow)]

theorem reverseDigits_perm (bits : Nat) :
    ((List.range (2 ^ bits)).map (reverseDigits bits)).Perm (List.range (2 ^ bits)) := by
  have hnodup : ((List.range (2 ^ bits)).map (reverseDigits bits)).Nodup := by
    refine List.Nodup.map_on (fun x hx y hy hxy => ?_) List.nodup_range
    rw [← reverseDigits_reverseDigits (List.mem_range.1 hx), hxy, reverseDigits_reverseDigits (List.mem_range.1 hy)]
  have hsubset : (List.range (2 ^ bits)).map (reverseDigits bits) ⊆ List.range (2 ^ bits) := by
    intro x hx
    obtain ⟨k, -, rfl⟩ := List.mem_map.1 hx
    exact List.mem_range.2 (reverseDigits_lt _ _)
  exact (List.subperm_of_subset hnodup hsubset).perm_of_length_le (by simp)

/-- Settles O31: the digits by `testBit_reverseDigits`, and the visits of a SPREAD pass by `reverseDigits_perm`. -/
theorem passOrdersVisitEachPositionOnce : Obligations.PassOrdersVisitEachPositionOnce := by
  refine ⟨fun l k => ⟨rfl, rfl⟩, fun l hl => ?_⟩
  obtain ⟨hten, hfits, hleast⟩ := spreadBits_spec hl
  exact ⟨spreadBits l, hten, rfl, hfits, hleast, fun k i _ hi => testBit_reverseDigits k hi,
    reverseDigits_perm (spreadBits l)⟩

/-! ### The look for an offer (R58, R60) -/

theorem nextOffer_eq_some_iff {s : State} {fuel k j : Nat} {p : PollInFlight} :
    nextOffer s fuel k = some (j, p) ↔
      k ≤ j ∧ j < k + fuel ∧ visitOffer s j = some p ∧ ∀ i, k ≤ i → i < j → visitOffer s i = none := by
  induction fuel generalizing k with
  | zero =>
    simp only [nextOffer, reduceCtorEq, false_iff]
    omega
  | succ fuel ih =>
    rw [nextOffer]
    cases hv : visitOffer s k with
    | some q =>
      dsimp only
      constructor
      · rintro ⟨⟩
        exact ⟨le_rfl, by omega, hv, fun i hi hlt => by omega⟩
      · rintro ⟨hkj, -, hj, hbefore⟩
        obtain rfl | hlt := hkj.eq_or_lt
        · rw [hv] at hj
          cases hj
          rfl
        · exact absurd ((hbefore k le_rfl hlt).symm.trans hv) nofun
    | none =>
      dsimp only
      rw [ih]
      constructor
      · rintro ⟨hkj, hj, hp, hbefore⟩
        refine ⟨by omega, by omega, hp, fun i hi hlt => ?_⟩
        obtain rfl | hki := hi.eq_or_lt
        · exact hv
        · exact hbefore i hki hlt
      · rintro ⟨hkj, hj, hp, hbefore⟩
        have hne : k ≠ j := by
          rintro rfl
          rw [hv] at hp
          cases hp
        exact ⟨by omega, by omega, hp, fun i hi hlt => hbefore i (by omega) hlt⟩

theorem nextOffer_eq_none_iff {s : State} {fuel k : Nat} :
    nextOffer s fuel k = none ↔ ∀ i, k ≤ i → i < k + fuel → visitOffer s i = none := by
  induction fuel generalizing k with
  | zero =>
    simp only [nextOffer, true_iff]
    omega
  | succ fuel ih =>
    rw [nextOffer]
    cases hv : visitOffer s k with
    | some q =>
      simp only [reduceCtorEq, false_iff, not_forall]
      exact ⟨k, le_rfl, by omega, by simp [hv]⟩
    | none =>
      dsimp only
      rw [ih]
      constructor
      · intro h i hi hlt
        obtain rfl | hki := hi.eq_or_lt
        · exact hv
        · exact h i hki (by omega)
      · exact fun h i hi hlt => h i (by omega) (by omega)

theorem look_some {s : State} {k : Nat} {p : PollInFlight} (hk : s.sched.cursor ≤ k) (hlt : k < passVisits s.sched)
    (hp : visitOffer s k = some p) (hbefore : ∀ j, s.sched.cursor ≤ j → j < k → visitOffer s j = none) :
    look s = (setCursor k s, some p) := by
  rw [look, nextOffer_eq_some_iff.2 ⟨hk, by omega, hp, hbefore⟩]

theorem look_none {s : State} (h : ∀ k, s.sched.cursor ≤ k → k < passVisits s.sched → visitOffer s k = none) :
    look s = (setCursor (max s.sched.cursor (passVisits s.sched)) s, none) := by
  rw [look, nextOffer_eq_none_iff.2 fun i hi hlt => h i hi (by omega)]

/-- All that a look from the start of a pass can give. -/
theorem look_of_start {s : State} (hstart : s.sched.cursor = 0) :
    ∃ k poll, look s = (setCursor k s, poll) ∧
      (∀ p, poll = some p → k < passVisits s.sched ∧ visitOffer s k = some p ∧ ∀ j, j < k → visitOffer s j = none) ∧
      (poll = none → k = passVisits s.sched ∧ ∀ j, j < k → visitOffer s j = none) := by
  rw [look, hstart, Nat.sub_zero]
  cases hn : nextOffer s (passVisits s.sched) 0 with
  | some found =>
    obtain ⟨k, p⟩ := found
    obtain ⟨-, hlt, hp, hbefore⟩ := nextOffer_eq_some_iff.1 hn
    refine ⟨k, some p, rfl, ?_, nofun⟩
    rintro q ⟨⟩
    exact ⟨by omega, hp, fun j hj => hbefore j (Nat.zero_le _) hj⟩
  | none =>
    refine ⟨_, none, rfl, nofun, fun _ => ⟨Nat.max_eq_right (Nat.zero_le _), fun j hj => ?_⟩⟩
    exact nextOffer_eq_none_iff.1 hn j (Nat.zero_le _) (by omega)

/-- Settles the first clause of O32: what the scheduler makes of one visit. -/
theorem visitOffer_eq (s : State) (k : Nat) :
    visitOffer s k =
      match s.sched.current[visitPosition s.sched.orderInForce s.sched.current.length k]? with
      | none => none
      | some e =>
        if e.kind = .tap ∧ ∀ t ∈ findTap e.address s.taps, t.state = .removing then none
        else if e.kind = .transponder ∧
            ((transponderOf s e.node).address ≠ some e.address ∨ (transponderOf s e.node).state = .removing) then none
        else if (nodeOf s e.node).state ≠ .outage then some { entry := e, probe := false }
        else if vecGet s.sched.probeMarks (e.node - 1) false = true then none
        else some { entry := e, probe := true } := by
  rw [visitOffer]
  cases s.sched.current[visitPosition s.sched.orderInForce s.sched.current.length k]? with
  | none => rfl
  | some e =>
    dsimp only
    have hgone : entryGone s e = true ↔
        (e.kind = .tap ∧ ∀ t ∈ findTap e.address s.taps, t.state = .removing) ∨
          e.kind = .transponder ∧
            ((transponderOf s e.node).address ≠ some e.address ∨ (transponderOf s e.node).state = .removing) := by
      unfold entryGone
      cases hkind : e.kind with
      | tap => cases findTap e.address s.taps <;> simp
      | transponder => simp
    have houtage (poll probe : Option PollInFlight) :
        (if (nodeOf s e.node).state = .outage then if probeMark s e.node then none else probe else poll) =
        if (nodeOf s e.node).state ≠ .outage then poll
        else if vecGet s.sched.probeMarks (e.node - 1) false = true then none else probe := by
      by_cases ho : (nodeOf s e.node).state = .outage
      · rw [if_pos ho, if_neg (not_not.2 ho)]
        rfl
      · rw [if_neg ho, if_pos ho]
    rw [houtage]
    by_cases htap : e.kind = .tap ∧ ∀ t ∈ findTap e.address s.taps, t.state = .removing
    · rw [if_pos (hgone.2 (.inl htap)), if_pos htap]
    · rw [if_neg htap]
      by_cases htrans : e.kind = .transponder ∧
          ((transponderOf s e.node).address ≠ some e.address ∨ (transponderOf s e.node).state = .removing)
      · rw [if_pos (hgone.2 (.inr htrans)), if_pos htrans]
      · rw [if_neg fun h => (hgone.1 h).elim htap htrans, if_neg htrans]

/-! ### The pass end (R59) -/

/-- A node's record once its transponder has lost its address (R120). -/
def lostReadings (r : NodeRec) : NodeRec := { r with current := none, previous := none, power := false, levelStep := false }

theorem loseTransponder_nodeOf {n m : Nat} (s : State) (hn : n ∈ upTo 32) (hm : m ∈ upTo 32) :
    nodeOf (loseTransponder n s) m = if n = m then lostReadings (nodeOf s m) else nodeOf s m := by
  obtain ⟨hn1, -⟩ := mem_upTo.1 hn
  obtain ⟨hm1, hm32⟩ := mem_upTo.1 hm
  exact nodeOf_modifyNode n m lostReadings s hn1 hm1 hm32

theorem foldl_loseTransponder_nodeOf {ns : List Nat} (hns : ∀ n ∈ ns, n ∈ upTo 32) {m : Nat} (hm : m ∈ upTo 32)
    (s : State) :
    nodeOf (ns.foldl (fun u n => loseTransponder n u) s) m =
      if m ∈ ns then lostReadings (nodeOf s m) else nodeOf s m := by
  induction ns generalizing s with
  | nil => rfl
  | cons n ns ih =>
    obtain ⟨hn, hns⟩ := List.forall_mem_cons.1 hns
    rw [List.foldl_cons, ih hns, loseTransponder_nodeOf s hn hm]
    by_cases hnm : n = m
    · subst hnm
      rw [if_pos rfl, if_pos (List.mem_cons_self ..)]
      split <;> rfl
    · rw [if_neg hnm]
      exact if_congr (by rw [List.mem_cons, or_iff_right fun h => hnm h.symm]) rfl rfl

theorem foldl_loseTransponder_alarms (ns : List Nat) (s : State) :
    (ns.foldl (fun u n => loseTransponder n u) s).alarms = alarmsAfter s.clock.time
      (ns.flatMap fun n => [(nodePowerSource n, false), (nodeLevelStepSource n, false)]) s.alarms := by
  induction ns generalizing s with
  | nil => rfl
  | cons n ns ih => rw [List.foldl_cons, ih]; rfl

/-- The state of a pass end before the transponders' conditions are withdrawn. -/
def passTurned (s : State) : State :=
  { s with
    taps := s.taps.filter (·.state != .removing),
    transponders := vecMap dropRemoving s.transponders,
    sched := { s.sched with
      passCount := nextPassCount s.sched.passCount,
      current := s.sched.next,
      orderInForce := s.sched.orderSelected,
      probeMarks := Vector.replicate 32 false,
      cursor := 0 } }

theorem passEnd_eq (s : State) :
    passEnd s = (removingTransponders s).foldl (fun u n => loseTransponder n u) (passTurned s) := rfl

theorem changes_foldl_loseTransponder (ns : List Nat) (s : State) :
    Changes nodeBlocks s (ns.foldl (fun u n => loseTransponder n u) s) :=
  .foldl (fun s n => changes_loseTransponder n s) ns s

/-- What does not change is not changed back. -/
theorem Changes.overlay_eq {bs : List Block} {s t : State} (h : Changes bs s t) : overlay bs s t = s := by
  have pick {α : Type} (b : Block) {x y : α} (hb : b.same s t → y = x) : (bif b.isIn bs then x else y) = x := by
    cases hin : b.isIn bs with
    | true => rfl
    | false => exact hb (h b (Block.not_mem_of_isIn hin))
  unfold overlay
  rw [pick .phase id, pick .storeValid id, pick .backupLow id, pick .lastReset id, pick .clock id, pick .lineup id,
    pick .carrier id, pick .taps id, pick .transponders id, pick .sched id, pick .accounts id, pick .commandQueue id,
    pick .nodes id, pick .inputs id, pick .sample id, pick .meter id, pick .events id, pick .journal id,
    pick .alarms id, pick .link id, pick .freeCount id, pick .pending id, pick .purchases id,
    pick .minuteEnds fun h => h.1, pick .minuteEnds fun h => h.2, pick .deliveries fun h => h.1,
    pick .deliveries fun h => h.2.1, pick .deliveries fun h => h.2.2.1, pick .deliveries fun h => h.2.2.2]

/-- What a pass end makes of the state (R59). -/
theorem passEnd_spec (s : State) :
    (passEnd s).sched = (passTurned s).sched ∧ (passEnd s).taps = s.taps.filter (fun t => t.state ≠ .removing) ∧
      (∀ n ∈ upTo 32,
        let gone := (transponderOf s n).state = .removing
        transponderOf (passEnd s) n = (if gone then absentTransponder else transponderOf s n) ∧
          nodeOf (passEnd s) n =
            if gone ∧ (transponderOf s n).address.isSome then lostReadings (nodeOf s n) else nodeOf s n) ∧
      (passEnd s).alarms = alarmsAfter s.clock.time
        (((upTo 32).filter fun n =>
            (transponderOf s n).address.isSome && decide ((transponderOf s n).state = .removing)).flatMap fun n =>
          [(nodePowerSource n, false), (nodeLevelStepSource n, false)]) s.alarms := by
  have stands := changes_foldl_loseTransponder (removingTransponders s) (passTurned s)
  refine ⟨stands.same .sched, (stands.same .taps).trans ?_, fun n hn => ⟨?_, ?_⟩,
    foldl_loseTransponder_alarms (removingTransponders s) (passTurned s)⟩
  · refine List.filter_congr fun t _ => ?_
    by_cases h : t.state = .removing <;> simp [h]
  · have hlt : n - 1 < 32 := by have := mem_upTo.1 hn; omega
    rw [transponderOf, passEnd_eq, show _ = (passTurned s).transponders from stands.same .transponders]
    exact vecGet_vecMap dropRemoving _ _ absentTransponder _ hlt
  · rw [passEnd_eq, foldl_loseTransponder_nodeOf (ns := removingTransponders s) (fun m hm => (List.mem_filter.1 hm).1) hn]
    refine if_congr ?_ rfl rfl
    rw [removingTransponders, List.mem_filter]
    simp [hn, and_comm]

theorem passEnd_frame (s : State) :
    { passEnd s with
      taps := s.taps, transponders := s.transponders, sched := s.sched, nodes := s.nodes, alarms := s.alarms } = s :=
  (show Changes [.taps, .transponders, .sched, .nodes, .alarms] s (passEnd s) from (changes_passEnd s).mono).overlay_eq

theorem pollOffer_some {s : State} {k : Nat} {p : PollInFlight} (hr : s.sched.state = .running)
    (h : look s = (setCursor k s, some p)) : pollOffer s = (setCursor k s, some p) := by
  rw [pollOffer, if_pos hr, h]

theorem pollOffer_idle {s : State} {k : Nat} (hr : s.sched.state = .running) (h : look s = (setCursor k s, none))
    (hc : s.sched.current = []) (hn : s.sched.next = []) : pollOffer s = (setCursor k s, none) := by
  rw [pollOffer, if_pos hr, h]
  exact if_pos (by simp [setCursor, hc, hn])

theorem pollOffer_passEnd {s : State} {k : Nat} (hr : s.sched.state = .running) (h : look s = (setCursor k s, none))
    (hne : s.sched.current ≠ [] ∨ s.sched.next ≠ []) : pollOffer s = look (passEnd (setCursor k s)) := by
  rw [pollOffer, if_pos hr, h]
  exact if_neg (by simp [setCursor, List.isEmpty_iff]; tauto)

/-- Settles O32: one visit by `visitOffer_eq`, the look by the first visit not stepped over, the pass end by
`passEnd_spec`. -/
theorem pollOffersAndPassEnds : Obligations.PollOffersAndPassEnds := by
  refine ⟨visitOffer_eq, fun s => ?_⟩
  intro visits atCursor
  refine ⟨fun hr => if_neg hr, fun hr => ⟨fun k p hk hlt hp hbefore => ?_, fun hall => ?_⟩⟩
  · exact pollOffer_some hr (look_some hk hlt hp hbefore)
  have hlook := look_none hall
  refine ⟨fun hc hn => pollOffer_idle hr hlook hc hn, fun hne => ?_⟩
  generalize max s.sched.cursor (passVisits s.sched) = c at hlook
  obtain ⟨k, poll, hoffer, hsome, hnone⟩ := look_of_start (s := passEnd (setCursor c s))
    (by rw [(passEnd_spec (setCursor c s)).1]; rfl)
  obtain ⟨hsched, htaps, hunits, halarms⟩ := passEnd_spec (setCursor c s)
  refine ⟨passEnd (setCursor c s), k, poll, (pollOffer_passEnd hr hlook hne).trans hoffer, ?_, htaps, hunits, hsome, hnone,
    halarms, ?_⟩
  · rw [hsched, ← hr]
    rfl
  · have := passEnd_frame (setCursor c s)
    exact congrArg (fun x : State => { x with sched := s.sched }) this

end Sys2Proof.Machine
end

section
/-! SUPPORT. A poll's reply landed on the record of the unit polled (R65 to R68). -/

namespace Sys2Proof.Machine

/-! ### The handing of the result -/

/-- The result of a poll's window is landed, and the poll in flight ends. -/
theorem exec_pollReply {s : State} {e : Expectation} {a : Nat} (hp : s.phase = .running)
    (he : s.carrier.expectation = some e) (howner : e.owner = .pollScheduler) (haddress : e.address = some a)
    (energy : Bool) (message : Option (List Byte)) :
    exec (.replyWindowClose energy message) s = .next (endPoll (landReply a (s.sched.inFlight.any (·.probe))
      (classify e energy message) (closeWindow s))) := by
  rw [exec_replyWindowClose hp he, handResult, howner, haddress]
  rfl

/-! ### Landing on a tap (R65, R66) -/

/-- A tap that takes a state, with the changes of its record that come with it. -/
theorem setTapState_modifyTap {t : TapRec} {state : UnitState} {f : TapRec → TapRec} {s : State}
    (hf : ∀ r, (f r).address = r.address) :
    setTapState t state { s with taps := modifyTap t.address f s.taps } =
      let u := { s with taps := modifyTap t.address (fun r => { f r with state := state }) s.taps }
      if t.state = state then u else reevaluate t.node u := by
  rw [setTapState]
  dsimp only
  rw [modifyTap_modifyTap _ _ _ hf]

section
variable {s : State} {t : TapRec} {probe : Bool}

/-- A probe's answer, when the poll was a probe. -/
def answeredBy (t : TapRec) (probe : Bool) (s : State) : State := if probe then probeAnswer t.node t.address s else s

theorem landTap_removing (hr : t.state = .removing) :
    (∀ status, landTap t probe (.good (.tapStatus status)) s =
      { s with taps := modifyTap t.address (fun r => { landStatus status r with last := some .good }) s.taps }) ∧
    (landTap t probe .garbled s =
      { s with taps := modifyTap t.address (fun r => { r with last := some .garbled }) s.taps }) ∧
    landTap t probe .none s =
      { s with taps := modifyTap t.address (fun r => { r with last := some .none }) s.taps } :=
  ⟨fun _ => if_pos hr, if_pos hr, if_pos hr⟩

theorem landTap_good (hr : t.state ≠ .removing) (status : TapStatus) :
    landTap t probe (.good (.tapStatus status)) s =
      answeredBy t probe (reconcile t.address status.ports
        (let u := { s with
          taps := modifyTap t.address
            (fun r => { landStatus status r with last := some .good, miss := 0, state := .online }) s.taps }
        if t.state = .online then u else reevaluate t.node u)) := by
  refine (if_neg hr).trans ?_
  dsimp only
  rw [modifyTap_modifyTap, setTapState_modifyTap]
  · rfl
  · exact fun _ => rfl
  · exact fun _ => rfl

theorem landTap_garbled (hr : t.state ≠ .removing) :
    landTap t probe .garbled s =
      answeredBy t probe
        (let u := { s with
          taps := modifyTap t.address
            (fun r => { r with last := some .garbled, miss := 0, state := .online }) s.taps }
        if t.state = .online then u else reevaluate t.node u) := by
  refine (if_neg hr).trans ?_
  dsimp only
  rw [setTapState_modifyTap]
  · rfl
  · exact fun _ => rfl

theorem landTap_none (hr : t.state ≠ .removing) :
    landTap t probe .none s =
      let miss := min 15 (t.miss + 1)
      let state := if miss < (nodeOf s t.node).thresholds.missLimit then UnitState.missing else .silent
      let u := { s with
        taps := modifyTap t.address (fun r => { r with last := some .none, miss := miss, state := state }) s.taps }
      if t.state = state then u else reevaluate t.node u := by
  refine (if_neg hr).trans ?_
  dsimp only
  rw [setTapState_modifyTap]
  · rfl
  · exact fun _ => rfl

end

theorem landReply_tap {a : Nat} {s : State} {t : TapRec} (ht : findTap a s.taps = some t) (probe : Bool)
    (result : WindowResult) : landReply a probe result s = landTap t probe result s := by
  rw [landReply, ht]

/-- Settles O33: each result by its landing, in REMOVING and otherwise. -/
theorem pollRepliesLandOnTaps : Obligations.PollRepliesLandOnTaps := by
  intro s e t energy message hp he howner haddress ht a probe landed close judged answered
  have hexec := exec_pollReply hp he howner haddress energy message
  rw [landReply_tap (s := closeWindow s) ht] at hexec
  refine ⟨fun status hgood => ?_, fun hgarbled => ?_, fun hnone => ?_⟩
  · intro land
    rw [hexec, hgood]
    split
    · rw [(landTap_removing ‹_›).1]
      rfl
    · rw [landTap_good ‹_›]
      rfl
  · rw [hexec, hgarbled]
    split
    · rw [(landTap_removing ‹_›).2.1]
      rfl
    · rw [landTap_garbled ‹_›]
      rfl
  · intro miss state
    rw [hexec, hnone]
    split
    · rw [(landTap_removing ‹_›).2.2]
      rfl
    · rw [landTap_none ‹_›]
      rfl

/-! ### Landing on a transponder (R67, R120 to R122) -/

/-- A record changed twice is changed by both in turn. -/
theorem vecModify_vecModify {α : Type} {n : Nat} (v : Vector α n) (i : Nat) (f g : α → α) :
    vecModify (vecModify v i f) i g = vecModify v i fun x => g (f x) := by
  refine Vector.ext fun j hj => ?_
  generalize v[j] = d
  rw [← vecGet_of_lt _ j d hj, ← vecGet_of_lt _ j d hj, vecGet_vecModify, vecGet_vecModify, vecGet_vecModify]
  split <;> rfl

theorem modifyTransponder_modifyTransponder (n : Nat) (f g : TransponderRec → TransponderRec) (s : State) :
    modifyTransponder n g (modifyTransponder n f s) = modifyTransponder n (fun r => g (f r)) s :=
  congrArg (fun v => { s with transponders := v }) (vecModify_vecModify _ _ f g)

theorem modifyNode_modifyNode (n : Nat) (f g : NodeRec → NodeRec) (s : State) :
    modifyNode n g (modifyNode n f s) = modifyNode n (fun r => g (f r)) s :=
  congrArg (fun v => { s with nodes := v }) (vecModify_vecModify _ _ f g)

section
variable (sc : Scheduler)

/-- The state with another scheduler. -/
def withSched (s : State) : State := { s with sched := sc }

theorem setNodeState_withSched (n : Nat) (state : NodeState) (timer : Option Nat) (s : State) :
    setNodeState n state timer (withSched sc s) = withSched sc (setNodeState n state timer s) := by
  have given (t : State) : giveNodeConditions n (withSched sc t) = withSched sc (giveNodeConditions n t) := by
    by_cases h : nodeOutage (nodeOf t n)
    · have hl : giveNodeConditions n (withSched sc t) = _ := if_pos h
      have hr : giveNodeConditions n t = _ := if_pos h
      rw [hl, hr]
      rfl
    · have hl : giveNodeConditions n (withSched sc t) = _ := if_neg h
      have hr : giveNodeConditions n t = _ := if_neg h
      rw [hl, hr]
      rfl
  exact given (modifyNode n (fun r => { r with state := state, restoreTimer := timer }) s)

/-- The Outage Monitor reads no field of the scheduler. -/
theorem probeAnswer_withSched (n probe : Nat) (s : State) :
    probeAnswer n probe (withSched sc s) = withSched sc (probeAnswer n probe s) := by
  have released (u : State) :
      (if countP u n = 0 then setNodeState n .unknown none (withSched sc u)
        else if (nodeOf u n).thresholds.restoreHold = 0 then setNodeState n (judgedState u n) none (withSched sc u)
        else setNodeState n .restoring (some (nodeOf u n).thresholds.restoreHold) (withSched sc u)) =
        withSched sc (if countP u n = 0 then setNodeState n .unknown none u
          else if (nodeOf u n).thresholds.restoreHold = 0 then setNodeState n (judgedState u n) none u
          else setNodeState n .restoring (some (nodeOf u n).thresholds.restoreHold) u) := by
    simp only [setNodeState_withSched, apply_ite (withSched sc)]
  by_cases ho : (nodeOf s n).state = .outage
  · have hl : probeAnswer n probe (withSched sc s) = _ := if_pos ho
    have hr : probeAnswer n probe s = _ := if_pos ho
    rw [hl, hr]
    exact released (releaseSilent n probe s)
  · have hl : probeAnswer n probe (withSched sc s) = _ := if_neg ho
    have hr : probeAnswer n probe s = _ := if_neg ho
    rw [hl, hr]

end

/-- A probe's answer and the end of the poll in flight stand apart. -/
theorem endPoll_answered (n a : Nat) (probe : Bool) (s : State) :
    endPoll (if probe then probeAnswer n a s else s) = if probe then probeAnswer n a (endPoll s) else endPoll s := by
  cases probe
  · rfl
  · have hsched : (probeAnswer n a s).sched = s.sched := (changes_probeAnswer n a s).same .sched
    have hend : endPoll (probeAnswer n a s) = withSched (endPoll s).sched (probeAnswer n a s) :=
      congrArg (fun sc : Scheduler => { probeAnswer n a s with
        sched := { sc with
          inFlight := none, state := if sc.state = SchedulerState.suspending then .stopped else sc.state } }) hsched
    exact hend.trans (probeAnswer_withSched _ n a s).symm

theorem nodeOf_modifyNode_same {s : State} {n : Nat} (hn : 1 ≤ n ∧ n ≤ 32) (f : NodeRec → NodeRec) :
    nodeOf (modifyNode n f s) n = f (nodeOf s n) :=
  (nodeOf_modifyNode n n f s hn.1 hn.1 hn.2).trans (if_pos rfl)

theorem modifyNode_congr {s : State} {n : Nat} {f g : NodeRec → NodeRec} (h : f (nodeOf s n) = g (nodeOf s n)) :
    modifyNode n f s = modifyNode n g s :=
  congrArg (fun v => { s with nodes := v }) (vecModify_congr _ h)

/-- A new reading: NODE_POWER and then NODE_LEVEL_STEP judged from the record before it (R120 to R122). -/
theorem takeReading_eq {s : State} {n : Nat} (hn : 1 ≤ n ∧ n ≤ 32) (reading : Reading) {taken : NodeRec}
    (htaken : { nodeOf s n with previous := (nodeOf s n).current, current := some reading } = taken) :
    takeReading n reading s =
      giveCondition (nodeLevelStepSource n) (judgedStep taken) (giveCondition (nodePowerSource n) (judgedPower taken)
        (modifyNode n (fun q => { q with
          previous := (nodeOf s n).current, current := some reading, power := judgedPower taken,
          levelStep := judgedStep taken }) s)) := by
  let read (r : NodeRec) : NodeRec := { r with previous := r.current, current := some reading }
  let powered (r : NodeRec) : NodeRec := { r with power := judgedPower r }
  let stepped (r : NodeRec) : NodeRec := { r with levelStep := judgedStep r }
  have hread : nodeOf (modifyNode n read s) n = taken := (nodeOf_modifyNode_same hn read).trans htaken
  have hpowered : nodeOf (modifyNode n powered (modifyNode n read s)) n = powered taken :=
    (nodeOf_modifyNode_same hn powered).trans (congrArg powered hread)
  have hnodes : modifyNode n stepped (modifyNode n powered (modifyNode n read s)) = _ :=
    (congrArg _ (modifyNode_modifyNode n read powered s)).trans
      ((modifyNode_modifyNode n _ stepped s).trans (modifyNode_congr (g := fun q => { q with
        previous := (nodeOf s n).current, current := some reading, power := judgedPower taken,
        levelStep := judgedStep taken }) (by rw [← htaken]; rfl)))
  calc takeReading n reading s
      = giveCondition (nodeLevelStepSource n) (judgedStep (nodeOf (modifyNode n powered (modifyNode n read s)) n))
          (giveCondition (nodePowerSource n) (judgedPower (nodeOf (modifyNode n read s) n))
            (modifyNode n stepped (modifyNode n powered (modifyNode n read s)))) := rfl
    _ = _ := by rw [hread, hpowered, hnodes]; rfl

theorem landReply_transponder {a n : Nat} {s : State} (ht : findTap a s.taps = none)
    (hn : transponderNode a s = some n) (probe : Bool) (result : WindowResult) :
    landReply a probe result s = landTransponder n a probe result s := by
  rw [landReply, ht]
  dsimp only
  rw [hn]

section
variable {s : State} {n a : Nat} {probe : Bool}

theorem landTransponder_removing (hr : (transponderOf s n).state = .removing) :
    (∀ x reading, landTransponder n a probe (.good (.transponderStatus x reading)) s = modifyTransponder n
      (fun q => { q with previous := q.current, current := some reading, last := some .good }) s) ∧
    landTransponder n a probe .garbled s = modifyTransponder n (fun q => { q with last := some .garbled }) s ∧
    landTransponder n a probe .none s = modifyTransponder n (fun q => { q with last := some .none }) s :=
  ⟨fun _ _ => if_pos hr, if_pos hr, if_pos hr⟩

theorem landTransponder_good (hr : (transponderOf s n).state ≠ .removing) (x : Nat) (reading : Reading) :
    landTransponder n a probe (.good (.transponderStatus x reading)) s =
      let u := takeReading n reading (modifyTransponder n (fun q => { q with
        previous := q.current, current := some reading, last := some .good, miss := 0, state := .online }) s)
      if probe then probeAnswer n a u else u := by
  refine (if_neg hr).trans ?_
  rw [modifyTransponder_modifyTransponder]

theorem landTransponder_garbled (hr : (transponderOf s n).state ≠ .removing) :
    landTransponder n a probe .garbled s =
      let u := modifyTransponder n (fun q => { q with last := some .garbled, miss := 0, state := .online }) s
      if probe then probeAnswer n a u else u := by
  refine (if_neg hr).trans ?_
  rw [modifyTransponder_modifyTransponder]

theorem landTransponder_none (hr : (transponderOf s n).state ≠ .removing) :
    landTransponder n a probe .none s =
      let miss := min 15 ((transponderOf s n).miss + 1)
      modifyTransponder n (fun q => { q with
        last := some .none, miss := miss,
        state := if miss < (nodeOf s n).thresholds.missLimit then .missing else .silent }) s :=
  (if_neg hr).trans (modifyTransponder_modifyTransponder n _ _ s)

end

/-- Settles O34: each result by its landing, in REMOVING and otherwise. -/
theorem pollRepliesLandOnTransponders : Obligations.PollRepliesLandOnTransponders := by
  intro s e a n energy message hp he howner haddress ht hn r node landed answered
  have hrange : 1 ≤ n ∧ n ≤ 32 := mem_upTo.1 (List.mem_of_find?_eq_some hn)
  have hexec := exec_pollReply hp he howner haddress energy message
  rw [landReply_transponder (s := closeWindow s) ht hn] at hexec
  refine ⟨fun x reading hgood => ?_, fun hgarbled => ?_, fun hnone => ?_⟩
  · intro land clear power stepped
    have hstep : judgedStep { node with previous := node.current, current := some reading } = stepped := by
      unfold judgedStep stepped
      dsimp only
      cases node.current <;> rfl
    rw [hexec, hgood]
    split
    · rw [(landTransponder_removing (s := closeWindow s) ‹_›).1]
      rfl
    · rw [landTransponder_good (s := closeWindow s) ‹_›, endPoll_answered, takeReading_eq hrange reading rfl, ← hstep]
      rfl
  · rw [hexec, hgarbled]
    split
    · rw [(landTransponder_removing (s := closeWindow s) ‹_›).2.1]
      rfl
    · rw [landTransponder_garbled (s := closeWindow s) ‹_›, endPoll_answered]
      rfl
  · intro miss state
    rw [hexec, hnone]
    split
    · rw [(landTransponder_removing (s := closeWindow s) ‹_›).2.2]
      rfl
    · rw [landTransponder_none (s := closeWindow s) ‹_›]
      rfl

end Sys2Proof.Machine
end

section
/-! SUPPORT. Port settings, recomputation and reconciliation (R89 to R94, R99, R100), and the opening of an account. -/

namespace Sys2Proof.Machine

/-! ### Equal settings (R89) -/

theorem sameGrants_iff {x y : List Grant} : sameGrants x y = true ↔ ∀ g, g ∈ x ↔ g ∈ y := by
  simp only [sameGrants, Bool.and_eq_true, List.all_eq_true, List.contains_iff_mem]
  exact ⟨fun ⟨hxy, hyx⟩ g => ⟨hxy g, hyx g⟩, fun h => ⟨fun g => (h g).1, fun g => (h g).2⟩⟩

theorem samePort_iff {p q : PortSetting} :
    samePort p q = true ↔ p.on = q.on ∧ p.tiers = q.tiers ∧ ∀ g, g ∈ p.grants ↔ g ∈ q.grants := by
  simp only [samePort, Bool.and_eq_true, decide_eq_true_eq, sameGrants_iff, and_assoc]

theorem sameSetting_iff {x y : TapSetting} :
    sameSetting x y = true ↔ ∀ p, p < 4 →
      (vecGet x p portOff).on = (vecGet y p portOff).on ∧ (vecGet x p portOff).tiers = (vecGet y p portOff).tiers ∧
        ∀ g, g ∈ (vecGet x p portOff).grants ↔ g ∈ (vecGet y p portOff).grants := by
  simp only [sameSetting, List.all_eq_true, mem_upTo, samePort_iff, portOf]
  refine ⟨fun h p hp => h (p + 1) ⟨by omega, by omega⟩, fun h p hp => h (p - 1) (by omega)⟩

theorem confirms_iff {confirmed : Option TapSetting} {y : TapSetting} :
    confirms confirmed y = true ↔ ∃ x, confirmed = some x ∧ sameSetting x y = true := by
  cases confirmed <;> simp [confirms]

/-! ### Derivation (R90, R91) -/

theorem portOf_deriveSetting {s : State} {t : TapRec} {p : Nat} (hp : 1 ≤ p) (hp4 : p ≤ 4) :
    portOf (deriveSetting s t) p =
      portFor s.events s.lineup.active t.model t.stale
        ((vecGet t.ports (p - 1) none).bind fun k => findAccount k s.accounts) :=
  vecGet_vecMap _ _ _ none _ (by omega)

/-! ### Recomputation (R93, R94) -/

section
variable {s : State} {t : TapRec} (ht : findTap t.address s.taps = some t) (hlive : t.state ≠ .removing)

include ht hlive in
theorem recompute_live :
    recompute t.address s = queueUpdate t.address (confirms t.switching.confirmed (deriveSetting s t))
      (modifySwitch t.address (fun r => { r with desired := deriveSetting s t }) s) := by
  rw [recompute, ht]
  exact if_neg hlive

/-- The state with the tap's new desired setting and attempts, and the command queue as it then stands. -/
def requeued (t : TapRec) (attempts : Nat) (queue : List Nat) (s : State) : State := { s with
  commandQueue := queue,
  taps := modifyTap t.address (fun r =>
    { r with switching := { r.switching with desired := deriveSetting s t, attempts := attempts } }) s.taps }

include ht in
theorem desired_eq_requeued (hrising : rising (s.taps.map (·.address))) :
    modifySwitch t.address (fun r => { r with desired := deriveSetting s t }) s =
      requeued t t.switching.attempts s.commandQueue s := by
  rw [modifySwitch, requeued, modifyTap_congr hrising ht]
  rfl

theorem attempts_cleared_eq_requeued (queue : List Nat) :
    modifySwitch t.address (fun r => { r with attempts := 0 })
      { modifySwitch t.address (fun r => { r with desired := deriveSetting s t }) s with commandQueue := queue } =
      requeued t 0 queue s := by
  rw [modifySwitch, modifySwitch, modifyTap_modifyTap]
  · rfl
  · exact fun _ => rfl

include ht hlive in
/-- Table 6-3: the four cases of a recomputation. -/
theorem recompute_eq (hrising : rising (s.taps.map (·.address))) :
    recompute t.address s =
      if t.address ∈ s.commandQueue then
        if confirms t.switching.confirmed (deriveSetting s t) then
          requeued t 0 (s.commandQueue.filter fun x => x ≠ t.address) s
        else requeued t t.switching.attempts s.commandQueue s
      else if confirms t.switching.confirmed (deriveSetting s t) then
        requeued t t.switching.attempts s.commandQueue s
      else requeued t 0 (s.commandQueue ++ [t.address]) s := by
  rw [recompute_live ht hlive]
  unfold queueUpdate
  split
  all_goals rename_i hqueued hagrees
  all_goals simp only [modifySwitch_commandQueue, ← Bool.not_eq_true, List.contains_iff_mem] at hqueued
  all_goals rw [hagrees]
  · rw [if_neg hqueued, if_pos rfl, desired_eq_requeued ht hrising]
  · rw [if_neg hqueued, if_neg Bool.false_ne_true]
    exact attempts_cleared_eq_requeued _
  · rw [if_pos hqueued, if_pos rfl, ← unqueue_eq]
    exact attempts_cleared_eq_requeued _
  · rw [if_pos hqueued, if_neg Bool.false_ne_true, desired_eq_requeued ht hrising]

end

/-- Settles O35: the derivation by Table 6-1, the equality of settings, and the cases of a recomputation. -/
theorem settingsAreDerivedAndQueued : Obligations.SettingsAreDerivedAndQueued := by
  refine ⟨fun s t p hp hp4 => ?derived, fun x y => sameSetting_iff, fun _ _ => confirms_iff, fun s a => ⟨?left, ?queued⟩⟩
  case derived =>
    intro bound setting off
    have hport : setting = portFor s.events s.lineup.active t.model t.stale bound := portOf_deriveSetting hp hp4
    refine ⟨fun hnone => by rw [hport, hnone]; rfl, fun a ha => ?_⟩
    rw [hport, ha]
    refine ⟨fun hstate => ?_, fun hstate hm => ?_, fun hstate hm => ?_, fun hstate hm hs => ?_, fun hstate hm hs => ?_⟩
    · unfold portFor
      cases h : a.state <;> simp_all [off, portOff]
    · simp only [portFor, hstate, hm]
      rfl
    · simp only [portFor, hstate, hm]
    · simp only [portFor, hstate, hm, hs, if_true]
    · simp only [portFor, hstate, hm, hs, Bool.false_eq_true, if_false, true_and]
      refine List.filterMap_congr fun b _ => ?_
      unfold grantOf findEvent
      cases s.events.find? fun e => e.id = b.event <;> rfl
  case left =>
    intro h
    cases ht : findTap a s.taps with
    | none => exact recompute_absent ht
    | some t => exact recompute_removing ht (h t ht)
  case queued =>
    intro t ht hlive hrising desired agrees changed
    obtain ⟨-, rfl⟩ := findTap_some ht
    have hrec := recompute_eq ht hlive hrising
    have hagrees : confirms t.switching.confirmed desired = true ↔ agrees := confirms_iff
    refine ⟨fun hq ha => ?_, fun hq ha => ?_, fun hq ha => ?_, fun hq ha => ?_⟩
    · rw [hrec, if_neg hq, if_pos (hagrees.2 ha)]
      rfl
    · rw [hrec, if_neg hq, if_neg (mt hagrees.1 ha)]
      rfl
    · rw [hrec, if_pos hq, if_pos (hagrees.2 ha)]
      rfl
    · rw [hrec, if_pos hq, if_neg (mt hagrees.1 ha)]
      rfl

/-! ### Tap records but for their switching records -/

/-- A tap's record but for its switching record, which takes a fixed value. -/
def plainTap (t : TapRec) : TapRec := { t with switching := freshSwitch settingOff }

theorem modifySwitch_plain (a : Nat) (f : SwitchRec → SwitchRec) (s : State) :
    (modifySwitch a f s).taps.map plainTap = s.taps.map plainTap := by
  rw [modifySwitch_taps, modifyTap, List.map_map]
  refine List.map_congr_left fun t _ => ?_
  by_cases h : t.address = a
  · simp only [Function.comp_apply, if_pos h, plainTap]
  · simp only [Function.comp_apply, if_neg h]

theorem queueUpdate_plain (a : Nat) (agrees : Bool) (s : State) :
    (queueUpdate a agrees s).taps.map plainTap = s.taps.map plainTap := by
  unfold queueUpdate
  split
  · rfl
  · exact modifySwitch_plain _ _ _
  · exact modifySwitch_plain _ _ _
  · rfl

/-- A recomputation leaves all of a tap's record but its switching record. -/
theorem recompute_plain (a : Nat) (s : State) : (recompute a s).taps.map plainTap = s.taps.map plainTap := by
  unfold recompute
  split
  · rfl
  · split
    · rfl
    · exact (queueUpdate_plain _ _ _).trans (modifySwitch_plain _ _ _)

theorem addresses_of_plain {xs ys : List TapRec} (h : xs.map plainTap = ys.map plainTap) :
    xs.map (·.address) = ys.map (·.address) := by
  have haddress := congrArg (List.map (·.address)) h
  rw [List.map_map, List.map_map] at haddress
  exact haddress

theorem findTap_map_plain (a : Nat) (xs : List TapRec) : findTap a (xs.map plainTap) = (findTap a xs).map plainTap :=
  List.find?_map ..

theorem findTap_of_plain {xs ys : List TapRec} (h : xs.map plainTap = ys.map plainTap) {a : Nat} {t : TapRec}
    (ht : findTap a ys = some t) : ∃ w, findTap a xs = some w ∧ plainTap w = plainTap t := by
  have hfind := findTap_map_plain a xs
  rw [h, findTap_map_plain, ht] at hfind
  exact Option.map_eq_some_iff.1 hfind.symm

/-! ### Reconciliation (R99, R100) -/

/-- The state in which the tap's stale mark has been evaluated (R99). -/
theorem evaluateStale_eq {s : State} {t : TapRec} (ht : findTap t.address s.taps = some t)
    (hrising : rising (s.taps.map (·.address))) :
    evaluateStale t.address s =
      if t.stale = isStale s t then s
      else recompute t.address
        { s with taps := modifyTap t.address (fun r => { r with stale := isStale s t }) s.taps } := by
  rw [evaluateStale, ht]
  exact if_congr Iff.rfl rfl
    (congrArg (fun taps => recompute t.address { s with taps := taps }) (modifyTap_congr hrising ht rfl))

/-- After the evaluation the tap is on record as before, with the mark that is due. -/
theorem evaluateStale_tap {s : State} {t : TapRec} (ht : findTap t.address s.taps = some t)
    (hrising : rising (s.taps.map (·.address))) :
    (evaluateStale t.address s).taps.map (·.address) = s.taps.map (·.address) ∧
      ∃ w, findTap t.address (evaluateStale t.address s).taps = some w ∧ w.node = t.node ∧ w.stale = isStale s t := by
  rw [evaluateStale_eq ht hrising]
  split
  · exact ⟨rfl, t, ht, rfl, ‹_›⟩
  · have hplain := recompute_plain t.address
      { s with taps := modifyTap t.address (fun r => { r with stale := isStale s t }) s.taps }
    have hkeep (r : TapRec) : { r with stale := isStale s t }.address = r.address := rfl
    have hfind := findTap_modifyTap t.address t.address (fun r => { r with stale := isStale s t }) hkeep s.taps
    rw [ht, Option.map_some, if_pos rfl] at hfind
    obtain ⟨w, hw, hwt⟩ := findTap_of_plain hplain hfind
    have hnode := congrArg TapRec.node hwt
    have hstale := congrArg TapRec.stale hwt
    exact ⟨(addresses_of_plain hplain).trans (modifyTap_addresses _ _ hkeep _), w, hw, hnode, hstale⟩

section
variable {s : State} {w : TapRec} (hw : findTap w.address s.taps = some w)
  (hrising : rising (s.taps.map (·.address))) {ports : TapSetting}

include hw hrising in
theorem compareStatus_same (h : sameSetting ports w.switching.desired = true) :
    compareStatus w.address ports s =
      giveCondition (switchFaultSource w.node)
        (s.taps.any fun r => r.node = w.node && r.address ≠ w.address && r.switching.fault)
        (modifySwitch w.address
          (fun r => { r with confirmed := some w.switching.desired, fault := false, attempts := 0 })
          { s with commandQueue := s.commandQueue.filter fun x => x ≠ w.address }) := by
  have hfault := any_fault_cleared (taps := s.taps) (a := w.address) (n := w.node)
    (f := fun r => { r with confirmed := some w.switching.desired, fault := false, attempts := 0 }) fun _ => rfl
  have hset : modifySwitch w.address (fun r => { r with confirmed := some r.desired, fault := false, attempts := 0 })
      { s with commandQueue := unqueue w.address s.commandQueue } = modifySwitch w.address
      (fun r => { r with confirmed := some w.switching.desired, fault := false, attempts := 0 })
      { s with commandQueue := unqueue w.address s.commandQueue } :=
    congrArg (fun taps => { s with commandQueue := unqueue w.address s.commandQueue, taps := taps })
      (modifyTap_congr (f := fun t => { t with switching :=
        { t.switching with confirmed := some t.switching.desired, fault := false, attempts := 0 } })
        (g := fun t => { t with switching :=
        { t.switching with confirmed := some w.switching.desired, fault := false, attempts := 0 } }) hrising hw rfl)
  rw [compareStatus, hw]
  dsimp only
  rw [if_pos h, hset, judgeSwitchFault, switchFault, ← hfault, unqueue_eq]
  rfl

include hw in
theorem compareStatus_different (h : sameSetting ports w.switching.desired = false) :
    compareStatus w.address ports s =
      modifySwitch w.address (fun r => { r with attempts := 0 })
        { s with commandQueue :=
            if w.address ∈ s.commandQueue then s.commandQueue else s.commandQueue ++ [w.address] } := by
  rw [compareStatus, hw]
  dsimp only
  rw [if_neg (Bool.not_eq_true _ ▸ h)]
  simp only [List.contains_iff_mem]

end

/-- Settles O36: the stale mark's evaluation, then the comparison with the desired setting that follows from it. -/
theorem statusIsReconciled : Obligations.StatusIsReconciled := by
  intro s a t ports ht hrising stale v
  obtain ⟨-, rfl⟩ := findTap_some ht
  have hstale : isStale s t = stale := Bool.eq_iff_iff.2 (bne_iff_ne.trans decide_eq_true_iff.symm)
  have hv : evaluateStale t.address s = v := by
    rw [evaluateStale_eq ht hrising, hstale]
    rfl
  obtain ⟨haddresses, w, hw, hnode, hws⟩ := evaluateStale_tap ht hrising
  rw [hv] at haddresses hw
  obtain ⟨-, hwa⟩ := findTap_some hw
  refine ⟨w, hw, hws.trans hstale, ?_⟩
  intro changed
  rw [reconcile, hv]
  clear_value v
  subst changed
  rw [← hwa, ← hnode]
  exact ⟨fun h => compareStatus_same (hwa ▸ hw) (haddresses ▸ hrising) h, fun h => compareStatus_different (hwa ▸ hw) h⟩

/-! ### ACCOUNT_OPEN (R76) -/

theorem findAccount_isSome_iff {k : Nat} {accounts : List Account} :
    (findAccount k accounts).isSome = true ↔ ∃ a ∈ accounts, a.number = k := by
  simp [findAccount, List.find?_isSome]

/-- The initial state that a code 0 or 1 names. -/
def initialState (state : Nat) : AccountState := if state = 0 then .active else .hold

theorem accountOpenStep_outOfRange {k a p : Nat} {tiers : TierSet} {state : Nat} {u : State}
    (h : ¬((1 ≤ k ∧ k ≤ 99999999) ∧ (1 ≤ a ∧ a ≤ 16777214) ∧ (1 ≤ p ∧ p ≤ 4) ∧ state ≤ 1)) :
    accountOpenStep k a p tiers state u = (u, refusal .outOfRange) := by
  unfold accountOpenStep
  by_cases hr : (!accountInRange k || !addressInRange a || !within 1 4 p) = true
  · exact if_pos hr
  · refine (if_neg hr).trans ?_
    simp only [Bool.or_eq_true, Bool.not_eq_true', ← Bool.not_eq_true, accountInRange_iff, addressInRange_iff,
      within_iff] at hr
    match state with
    | 0 => omega
    | 1 => omega
    | 2 => rfl
    | n + 3 => rfl

theorem accountOpenStep_inRange {k a p : Nat} {tiers : TierSet} {state : Nat} {u : State}
    (h : (1 ≤ k ∧ k ≤ 99999999) ∧ (1 ≤ a ∧ a ≤ 16777214) ∧ (1 ≤ p ∧ p ≤ 4) ∧ state ≤ 1) :
    accountOpenStep k a p tiers state u =
      if (findAccount k u.accounts).isSome then (u, refusal .existing)
      else match findTap a u.taps with
        | none => (u, refusal .notFound)
        | some t =>
          if t.state = .removing then (u, refusal .wrongState)
          else if (vecGet t.ports (p - 1) none).isSome then (u, refusal .existing)
          else (recompute a (bindPort a p (some k)
            { u with accounts := insertAccount (newAccount k a p tiers (initialState state)) u.accounts }),
            replyOk []) := by
  obtain ⟨hk, ha, hp, hstate⟩ := h
  have hr : ¬(!accountInRange k || !addressInRange a || !within 1 4 p) = true := by
    simp only [accountInRange_iff.2 hk, addressInRange_iff.2 ha, within_iff.2 hp]
    decide
  refine (if_neg hr).trans ?_
  match state with
  | 0 => rfl
  | 1 => rfl
  | n + 2 => omega

/-- Settles O37: the checks in their order, and the new record at its place. -/
theorem accountOpen : Obligations.AccountOpen := by
  intro tag account address port tiers state s u c made inRange h
  have hexec := exec_of_executes (owner := accountOpenStep account address port tiers state) rfl h
  refine ⟨fun hr => ?_, fun hr => ?_⟩
  · rw [hexec, accountOpenStep_outOfRange hr]
  rw [accountOpenStep_inRange hr] at hexec
  refine ⟨fun hheld => ?_, fun hfree => ?_⟩
  · rw [hexec, if_pos (findAccount_isSome_iff.2 hheld)]
  rw [if_neg fun hheld => by
    obtain ⟨a, ha, hn⟩ := findAccount_isSome_iff.1 hheld
    exact hfree a ha hn] at hexec
  refine ⟨fun ht => ?_, fun t ht => ?_⟩
  · rw [hexec, ht]
  rw [ht] at hexec
  dsimp only at hexec
  refine ⟨fun hremoving => ?_, fun hlive => ?_⟩
  · rw [hexec, if_pos hremoving]
  rw [if_neg hlive] at hexec
  refine ⟨fun hbound => ?_, fun hvacant => ⟨?_, fun hrising => ?_⟩⟩
  · rw [hexec, if_pos (Option.isSome_iff_ne_none.2 hbound)]
  · rw [hexec, hvacant]
    rfl
  · rw [insertAccount_eq]
    exact ⟨rising_insertKeyed hrising hfree, fun a => mem_insertKeyed⟩

end Sys2Proof.Machine
end

section
/-! SUPPORT. The Outage Monitor: counts, the entry into a node state, minute samples and source supervision (chapter 7). -/

namespace Sys2Proof.Machine

/-! ### Counts (R109) -/

theorem countP_eq (s : State) (n : Nat) :
    countP s n = s.taps.countP fun t => t.node = n ∧ (t.state = .online ∨ t.state = .missing ∨ t.state = .silent) := by
  unfold countP tapCount
  induction s.taps with
  | nil => rfl
  | cons t ts ih =>
    simp only [List.countP_cons, ← ih]
    by_cases hn : t.node = n
    · cases h : t.state <;> simp [hn] <;> omega
    · simp [hn]

theorem countS_eq (s : State) (n : Nat) : countS s n = s.taps.countP fun t => t.node = n ∧ t.state = .silent := by
  unfold countS tapCount
  exact List.countP_congr fun t _ => by simp

/-! ### A node's entry into a state (R115) -/

/-- The state a node's entry into a state leaves. -/
def entered (n : Nat) (state : NodeState) (timer : Option Nat) (u : State) : State :=
  let v : State := { u with
    nodes := vecModify u.nodes (n - 1) fun r => { r with state := state, restoreTimer := timer } }
  if state = .outage ∨ state = .restoring then
    giveCondition (nodeOutageSource n) true (giveCondition (nodeDegradedSource n) false v)
  else
    giveCondition (nodeDegradedSource n) (decide (state = .degraded))
      (giveCondition (nodeOutageSource n) false v)

theorem setNodeState_eq {n : Nat} (hn : 1 ≤ n ∧ n ≤ 32) (state : NodeState) (timer : Option Nat) (u : State) :
    setNodeState n state timer u = entered n state timer u := by
  have hnode := nodeOf_modifyNode_same (s := u) hn fun r => { r with state := state, restoreTimer := timer }
  unfold setNodeState giveNodeConditions
  dsimp only
  rw [hnode]
  exact if_congr (by simp [nodeOutage]) rfl rfl

/-- The model's judgement of a node's counts, written out (R111). -/
theorem judgedState_eq (s : State) (n : Nat) :
    let p := s.taps.countP fun t => t.node = n ∧ (t.state = .online ∨ t.state = .missing ∨ t.state = .silent)
    let silent := s.taps.countP fun t => t.node = n ∧ t.state = .silent
    let limits := (nodeOf s n).thresholds
    judgedState s n =
      if p = 0 then .unknown
      else if limits.outagePercent * p ≤ silent * 100 then .outage
      else if limits.degradedPercent * p ≤ silent * 100 then .degraded
      else .normal := by
  simp only [judgedState, outageTest, degradedTest, decide_eq_true_eq, countP_eq, countS_eq]

section
variable {n : Nat} (hn : 1 ≤ n ∧ n ≤ 32) (s : State)
include hn

theorem nodeOf_setNodeState (state : NodeState) (timer : Option Nat) :
    nodeOf (setNodeState n state timer s) n = { nodeOf s n with state := state, restoreTimer := timer } := by
  have hnode := nodeOf_modifyNode_same (s := s) hn fun r => { r with state := state, restoreTimer := timer }
  rw [← hnode]
  unfold setNodeState giveNodeConditions
  dsimp only
  split <;> rfl

/-- A re-evaluation changes no field of the node's record but its state and its restore timer. -/
theorem nodeOf_reevaluate :
    ∃ state timer, nodeOf (reevaluate n s) n = { nodeOf s n with state := state, restoreTimer := timer } := by
  unfold reevaluate
  split
  · exact ⟨_, _, nodeOf_setNodeState hn s _ _⟩
  · exact ⟨_, _, nodeOf_setNodeState hn s _ _⟩
  · exact ⟨_, _, nodeOf_setNodeState hn s _ _⟩
  · split
    · exact ⟨_, _, nodeOf_setNodeState hn s _ _⟩
    · exact ⟨_, _, rfl⟩
  · split_ifs
    · exact ⟨_, _, nodeOf_setNodeState hn s _ _⟩
    · exact ⟨_, _, nodeOf_setNodeState hn s _ _⟩
    · exact ⟨_, _, rfl⟩

end

/-! ### Re-evaluation by the node's state (R111, R112, R114) -/

section
variable {s : State} {n : Nat}

theorem reevaluate_judged (h : (nodeOf s n).state = .unknown ∨ (nodeOf s n).state = .normal ∨
    (nodeOf s n).state = .degraded) : reevaluate n s = setNodeState n (judgedState s n) none s := by
  unfold reevaluate
  obtain h | h | h := h
  all_goals rw [h]

theorem reevaluate_outage (h : (nodeOf s n).state = .outage) :
    reevaluate n s = if countP s n = 0 then setNodeState n .unknown none s else s := by
  unfold reevaluate
  rw [h]

theorem reevaluate_restoring (h : (nodeOf s n).state = .restoring) :
    reevaluate n s =
      if countP s n = 0 then setNodeState n .unknown none s
      else if outageTest s n then setNodeState n .outage none s
      else s := by
  unfold reevaluate
  rw [h]

end

/-- NODE_CONFIG on a node of the part: the thresholds act at once, and NODE_POWER is judged by them (R108, R121). -/
theorem nodeConfigStep_inRange {n : Nat} (hn : 1 ≤ n ∧ n ≤ 32) (given : Thresholds) (u : State) :
    let applied := clampThresholds given
    let v := reevaluate n (modifyNode n (fun r => { r with thresholds := applied }) u)
    let power := judgedPower { nodeOf u n with thresholds := applied }
    nodeConfigStep n given u =
      (giveCondition (nodePowerSource n) power (modifyNode n (fun r => { r with power := power }) v),
        replyOk (thresholdFields applied)) := by
  intro applied v power
  have hset := nodeOf_modifyNode_same (s := u) hn fun r => { r with thresholds := applied }
  obtain ⟨state, timer, hv⟩ := nodeOf_reevaluate hn (modifyNode n (fun r => { r with thresholds := applied }) u)
  have hpower : judgedPower (nodeOf v n) = power := by
    rw [hv, hset]
    rfl
  have hnodes : modifyNode n (fun r => { r with power := judgedPower r }) v =
      modifyNode n (fun r => { r with power := power }) v := modifyNode_congr (by rw [hpower])
  rw [nodeConfigStep, within_iff.2 hn]
  show (judgePower n v, _) = _
  rw [judgePower, hpower, hnodes]

/-- Settles O40: the machine's cases by the state of the node, and NODE_CONFIG by its step. -/
theorem nodeStatesFollowTheCounts : Obligations.NodeStatesFollowTheCounts := by
  refine ⟨fun s n hlow hhigh => ?machine, fun tag n missLimit degraded outage hold threshold hysteresis level s u => ?config⟩
  case machine =>
    have hn : 1 ≤ n ∧ n ≤ 32 := ⟨hlow, hhigh⟩
    intro p silent limits outage judged enter state
    have henter (st : NodeState) (timer : Option Nat) (u : State) : setNodeState n st timer u = enter st timer u :=
      setNodeState_eq hn st timer u
    have hp (u : State) : countP u n = p u := countP_eq u n
    have hjudged (u : State) (hu : nodeOf u n = nodeOf s n) : judgedState u n = judged u :=
      (judgedState_eq u n).trans (by rw [hu])
    have houtage : outageTest s n = true ↔ outage s := by
      simp only [outageTest, decide_eq_true_eq, countP_eq, countS_eq]
      rfl
    refine ⟨fun h => ?_, fun h => ?_, fun h => ?_, fun probe => ?_, fun hp => ?_⟩
    · rw [reevaluate_judged h, hjudged s rfl, henter]
    · rw [reevaluate_outage h, hp, henter]
    · rw [reevaluate_restoring h, hp, henter, henter]
      exact if_congr Iff.rfl rfl (if_congr houtage rfl rfl)
    · intro u
      refine ⟨fun h => ?_, fun h => if_neg h⟩
      have hanswer : probeAnswer n probe s =
          if countP u n = 0 then setNodeState n .unknown none u
          else if limits.restoreHold = 0 then setNodeState n (judgedState u n) none u
          else setNodeState n .restoring (some limits.restoreHold) u := if_pos h
      rw [hanswer, hp, henter, henter, henter, hjudged u rfl]
    · have hdue : expiryDue (nodeOf s n) = true ↔ state = .restoring ∧ (nodeOf s n).restoreTimer = none := by
        simp only [expiryDue, Bool.and_eq_true, decide_eq_true_eq, Option.isNone_iff_eq_none]
        rfl
      have hexec : exec (.restoreHoldExpiry n) s = .next (restoreHoldExpiryStep n s) :=
        (if_pos (within_iff.2 hn)).trans (congrArg _ (whenRunning_of_running hp))
      rw [hexec, restoreHoldExpiryStep, hjudged s rfl, henter]
      by_cases h : expiryDue (nodeOf s n) = true
      · rw [if_pos h, if_pos (hdue.1 h)]
      · rw [if_neg h, if_neg (mt hdue.2 h)]
  case config =>
    intro c limit applied h
    let given : Thresholds := {
      missLimit := missLimit, degradedPercent := degraded, outagePercent := outage, restoreHold := hold,
      powerThreshold := threshold, powerHysteresis := hysteresis, levelStep := level }
    have hexec := exec_of_executes (owner := nodeConfigStep n given) rfl h
    have happlied : clampThresholds given = applied := by
      simp only [clampThresholds, clampNat, Nat.zero_max]
      rfl
    refine ⟨fun hn => ?_, fun hlow hhigh => ?_⟩
    · rw [hexec, nodeConfigStep, if_pos (by simpa [← Bool.not_eq_true, within_iff] using hn)]
    · intro v power
      have hpower : judgedPower { nodeOf u n with thresholds := applied } = power := by
        cases hc : (nodeOf u n).current with
        | none => simp only [judgedPower, power, hc]
        | some reading => simp only [judgedPower, power, hc]
      rw [hexec, nodeConfigStep_inRange ⟨hlow, hhigh⟩, happlied, hpower]
      rfl

/-! ### Minute samples and tallies (R117 to R119) -/

theorem nodup_upTo (n : Nat) : (upTo n).Nodup :=
  List.Nodup.map (fun _ _ h => by omega) List.nodup_range

theorem foldl_modifyNode_nodeOf {f : NodeRec → NodeRec} {m : Nat} (hm : 1 ≤ m ∧ m ≤ 32) {ns : List Nat}
    (hdistinct : ns.Nodup) (hns : ∀ n ∈ ns, 1 ≤ n ∧ n ≤ 32) (s : State) :
    nodeOf (ns.foldl (fun u n => modifyNode n f u) s) m = if m ∈ ns then f (nodeOf s m) else nodeOf s m := by
  induction ns generalizing s with
  | nil => rfl
  | cons n ns ih =>
    obtain ⟨hn, hlater⟩ := List.nodup_cons.1 hdistinct
    obtain ⟨hrange, hranges⟩ := List.forall_mem_cons.1 hns
    rw [List.foldl_cons, ih hlater hranges, nodeOf_modifyNode n m f s hrange.1 hm.1 hm.2]
    by_cases h : n = m
    · subst h
      rw [if_neg hn, if_pos rfl, if_pos (.head _)]
    · rw [if_neg h]
      exact if_congr (by simp [Ne.symm h]) rfl rfl

theorem foldl_modifyNode_frame {f : NodeRec → NodeRec} (ns : List Nat) (s : State) :
    { ns.foldl (fun u n => modifyNode n f u) s with nodes := s.nodes } = s := by
  induction ns generalizing s with
  | nil => rfl
  | cons n ns ih =>
    rw [List.foldl_cons]
    exact congrArg (fun t : State => { t with nodes := s.nodes }) (ih (modifyNode n f s))

/-- The tallies of the nodes sampled, each counted once. -/
theorem countTallies_nodeOf {s : State} (hdistinct : s.sample.nodes.Nodup)
    (hns : ∀ n ∈ s.sample.nodes, 1 ≤ n ∧ n ≤ 32) {m : Nat} (hm : 1 ≤ m ∧ m ≤ 32) :
    nodeOf (countTallies s) m = { nodeOf s m with
      tally := if m ∈ s.sample.nodes then min 15 ((nodeOf s m).tally + 1) else (nodeOf s m).tally } := by
  rw [countTallies, foldl_modifyNode_nodeOf hm hdistinct hns]
  split <;> rfl

theorem countTallies_frame (s : State) : { countTallies s with nodes := s.nodes } = s := foldl_modifyNode_frame _ s

/-! ### Source supervision (R123, R124) -/

theorem modifyInput_modifyInput (i : Nat) (f g : InputRec → InputRec) (s : State) :
    modifyInput i g (modifyInput i f s) = modifyInput i (fun r => g (f r)) s :=
  congrArg (fun v => { s with inputs := v }) (vecModify_vecModify _ _ f g)

theorem modifyInput_congr {s : State} {i : Nat} {f g : InputRec → InputRec} (h : f (inputOf s i) = g (inputOf s i)) :
    modifyInput i f s = modifyInput i g s :=
  congrArg (fun v => { s with inputs := v }) (vecModify_congr _ h)

/-- A change that leaves the entry at its index as it stands leaves the table. -/
theorem vecModify_unchanged {α : Type} {n : Nat} {v : Vector α n} {i : Nat} {f : α → α} (d : α)
    (h : f (vecGet v i d) = vecGet v i d) : vecModify v i f = v := by
  refine Vector.ext fun j hj => ?_
  rw [← vecGet_of_lt _ j d hj, ← vecGet_of_lt v j d hj, vecGet_vecModify]
  by_cases hij : i = j
  · rw [if_pos ⟨hij, hj⟩, ← hij, h]
  · rw [if_neg fun h => hij h.1]

theorem modifyInput_unchanged {s : State} {i : Nat} {f : InputRec → InputRec} (h : f (inputOf s i) = inputOf s i) :
    modifyInput i f s = s := congrArg (fun v => { s with inputs := v }) (vecModify_unchanged _ h)

/-- The verdict of a level, with SOURCE_LOST judged from it. -/
theorem judgeSourceLost_verdict {s : State} {i : Nat} (hi : 1 ≤ i ∧ i ≤ 64) (high : Bool) :
    let lost := !high && s.lineup.sourcesInUse.contains i
    judgeSourceLost i (modifyInput i (fun r => { r with debounced := verdictOf high, verdictDue := none }) s) =
      giveCondition (sourceLostSource i) lost
        (modifyInput i (fun r => { r with debounced := verdictOf high, verdictDue := none, lost := lost }) s) := by
  intro lost
  have hinput := inputOf_modifyInput i i (fun r => { r with debounced := verdictOf high, verdictDue := none }) s
    hi.1 hi.1 hi.2
  rw [if_pos rfl] at hinput
  have hlost : ((verdictOf high = .lost && s.lineup.sourcesInUse.contains i) : Bool) = lost := by cases high <;> rfl
  rw [judgeSourceLost, hinput]
  dsimp only [modifyInput_lineup]
  rw [hlost]
  rw [modifyInput_modifyInput]

/-- Settles O41: the minute end by its sample and its tallies, then the inputs' changes and verdicts. -/
theorem minuteSamplesAndSources : Obligations.MinuteSamplesAndSources := by
  refine ⟨fun s m rest hp hends hrising hrange => ?minute, fun s i hlow hhigh => ?source⟩
  case minute =>
    intro sample tally
    let v := fixSample m.time { s with due := { s.due with monitorEnds := rest } }
    have hexec : exec .monitorMinuteEnd s =
        .next (if m.marked then handTallies m.time (countTallies v) else countTallies v) := by
      refine congrArg _ ((whenRunning_of_running hp).trans ?_)
      rw [monitorMinuteEndStep, hends]
    have hsample : v.sample = sample :=
      if_congr (by simp [Option.all_eq_true]) rfl rfl
    have hdistinct : v.sample.nodes.Nodup := by
      rw [hsample]
      unfold sample
      split
      · dsimp only
        exact (nodup_upTo 32).filter _
      · exact hrising.nodup
    have hnodes : ∀ n ∈ v.sample.nodes, 1 ≤ n ∧ n ≤ 32 := by
      rw [hsample]
      unfold sample
      split
      · dsimp only
        exact fun n hn => mem_upTo.1 (List.mem_of_mem_filter hn)
      · exact hrange
    have hcounted (n : Nat) (hn : n ∈ upTo 32) :
        nodeOf (countTallies v) n = { nodeOf s n with tally := tally n } := by
      have h := countTallies_nodeOf hdistinct hnodes (mem_upTo.1 hn)
      rw [hsample] at h
      exact h
    have hframe := countTallies_frame v
    have hdue : (countTallies v).due = { s.due with monitorEnds := rest } := congrArg State.due hframe
    refine ⟨_, hexec, ?_⟩
    split
    · refine ⟨(congrArg State.sample hframe).trans hsample, fun n hn => ?_, ?_, ?_⟩
      · have h : nodeOf (handTallies m.time (countTallies v)) n = { nodeOf (countTallies v) n with tally := 0 } :=
          vecGet_vecMap _ _ _ _ _ (by have := mem_upTo.1 hn; omega)
        rw [h, hcounted n hn]
      · have htallies : ((upTo 32).map fun n =>
            { node := n, start := m.time - 900, tally := (nodeOf (countTallies v) n).tally : TallyMessage }) =
            (upTo 32).map fun n => { node := n, start := m.time - 900, tally := tally n } :=
          List.map_congr_left fun n hn => by rw [hcounted n hn]
        unfold handTallies
        dsimp only
        rw [htallies, hdue]
      · exact congrArg (fun t : State => { t with sample := s.sample, nodes := s.nodes, due := s.due }) hframe
    · refine ⟨(congrArg State.sample hframe).trans hsample, hcounted, ?_, ?_⟩
      · rw [List.append_nil]
        exact hdue
      · exact congrArg (fun t : State => { t with sample := s.sample, nodes := s.nodes, due := s.due }) hframe
  case source =>
    have hi : 1 ≤ i ∧ i ≤ 64 := ⟨hlow, hhigh⟩
    intro r put
    refine ⟨fun high => ⟨fun hp => ?_, fun hp => ?_⟩, fun hp => ?_⟩
    · have hexec : exec (.sourceLevelChange i high) s = .next (modifyInput i (levelChange high) s) :=
        (if_pos (within_iff.2 hi)).trans (congrArg _ (if_pos hp))
      rw [hexec]
      by_cases hsame : r.high = high
      · rw [if_pos hsame, modifyInput_unchanged (f := levelChange high) (if_pos hsame)]
      · rw [if_neg hsame]
        exact congrArg _ (modifyInput_congr (if_neg hsame))
    · exact (if_pos (within_iff.2 hi)).trans (congrArg _ (if_neg hp))
    · have hexec : exec (.sourceDebounceVerdict i) s = .next (sourceDebounceVerdictStep i s) :=
        (if_pos (within_iff.2 hi)).trans (congrArg _ (whenRunning_of_running hp))
      refine ⟨fun hnone => ?_, fun high hdue => ?_⟩
      · rw [hexec, sourceDebounceVerdictStep, hnone]
      · intro debounced lost
        rw [hexec, sourceDebounceVerdictStep, hdue]
        exact congrArg _ (judgeSourceLost_verdict hi high)

end Sys2Proof.Machine
end

section
/-! SUPPORT. EVENT_ADD (R146), and the reading requests. -/

namespace Sys2Proof.Machine

/-! ### EVENT_ADD (R146) -/

theorem findEvent_isSome_iff {id : Nat} {events : List EventRec} :
    (findEvent id events).isSome = true ↔ ∃ e ∈ events, e.id = id := by
  simp [findEvent, List.find?_isSome]

theorem isPpv_iff {channel : Nat} {b : Bank} :
    isPpv channel b = true ↔ ∃ x, b.entries.find? (fun e => e.channel = channel) = some x ∧ x.kind = .ppv := by
  simp only [isPpv, findEntry, Option.any_eq_true, decide_eq_true_eq]

theorem eventInRange_iff {e : EventRec} {now : Nat} :
    eventInRange e now = true ↔ (1 ≤ e.id ∧ e.id ≤ 255) ∧ (1 ≤ e.channel ∧ e.channel ≤ 999) ∧
      (1 ≤ e.duration ∧ e.duration ≤ 480) ∧ e.window ≤ 60 ∧ e.price ≤ 50000000 ∧
      (1 ≤ e.threshold ∧ e.threshold ≤ 480) ∧ e.start % 60 = 0 ∧ now < e.start ∧
      e.start + 60 * e.duration ≤ 4294967280 := by
  simp only [eventInRange, Bool.and_eq_true, within_iff, decide_eq_true_eq, and_assoc]
  rfl

/-- Two events of one channel whose windows overlap (R146, check 6). -/
def overlap (e h : EventRec) : Prop :=
  h.channel = e.channel ∧ h.start < e.start + 60 * e.duration ∧ e.start < h.start + 60 * h.duration

theorem overlap_iff {e h : EventRec} :
    (decide (h.channel = e.channel) && decide (h.start < endTime e) && decide (e.start < endTime h)) = true ↔
      overlap e h := by
  simp only [Bool.and_eq_true, decide_eq_true_eq, and_assoc]
  rfl

theorem overlappingEvent_eq_some {e h : EventRec} {events : List EventRec} (hrising : rising (events.map (·.id)))
    (hh : h ∈ events) (ho : overlap e h) (lowest : ∀ x ∈ events, overlap e x → h.id ≤ x.id) :
    overlappingEvent e events = some h.id := by
  rw [overlappingEvent, find?_eq_some_of_lowest hrising hh (overlap_iff.2 ho)
    fun x hx hp => lowest x hx (overlap_iff.1 hp)]
  rfl

theorem overlappingEvent_eq_none {e : EventRec} {events : List EventRec} (h : ∀ x ∈ events, ¬overlap e x) :
    overlappingEvent e events = none := by
  rw [overlappingEvent, List.find?_eq_none.2 fun x hx hp => h x hx (overlap_iff.1 hp)]
  rfl

section
variable {e : EventRec} {u : State}

/-- EVENT_ADD past its first three checks. -/
theorem eventAddStep_new (hset : u.clock.state = .set) (hrange : eventInRange e u.clock.time = true)
    (hfree : ∀ x ∈ u.events, x.id ≠ e.id) :
    eventAddStep e u =
      if !isPpv e.channel u.lineup.active then (u, refusal .conflict)
      else if u.lineup.scheduled.any (· < endTime e) && !isPpv e.channel u.lineup.staged then (u, refusal .conflict)
      else
        match overlappingEvent e u.events with
        | some h => (u, { status := .conflict, fields := byte1 h })
        | none =>
          if 32 ≤ u.events.length then (u, refusal .tableFull)
          else
            ({ u with events := insertEvent e u.events }, replyOk (byte4 (endTime e) ++ byte4 (closeTime e))) := by
  have hunset : ¬u.clock.state = .unset := by rw [hset]; decide
  have hheld : ¬(findEvent e.id u.events).isSome = true := fun h => by
    obtain ⟨x, hx, hid⟩ := findEvent_isSome_iff.1 h
    exact hfree x hx hid
  exact (if_neg hunset).trans ((if_neg (by simp [hrange])).trans (if_neg hheld))

end

/-- Settles O45: the checks in their order, and the new record at its place. -/
theorem eventAdd : Obligations.EventAdd := by
  intro tag id channel start duration window price threshold s u c ends made overlaps ppv h
  have hexec := exec_of_executes (owner := eventAddStep made) rfl h
  refine ⟨fun hunset => ?_, fun hset => ⟨fun hr => ?_, fun hr => ⟨fun hheld => ?_, fun hfree => ?_⟩⟩⟩
  · rw [hexec, eventAddStep, if_pos hunset]
  · have hunset : ¬u.clock.state = .unset := by rw [hset]; decide
    have hrange : ¬eventInRange made u.clock.time = true := mt eventInRange_iff.1 hr
    rw [hexec, eventAddStep, if_neg hunset, if_pos (by simpa using hrange)]
  · have hunset : ¬u.clock.state = .unset := by rw [hset]; decide
    have hrange : eventInRange made u.clock.time = true := eventInRange_iff.2 hr
    rw [hexec, eventAddStep, if_neg hunset, if_neg (by simp [hrange]), if_pos (findEvent_isSome_iff.2 hheld)]
  rw [eventAddStep_new hset (eventInRange_iff.2 hr) hfree] at hexec
  have hactive : isPpv channel u.lineup.active = true ↔ ppv u.lineup.active := isPpv_iff
  have hstaged : isPpv channel u.lineup.staged = true ↔ ppv u.lineup.staged := isPpv_iff
  refine ⟨fun hnot => ?_, fun hppv => ?_⟩
  · rw [hexec, if_pos (by simpa using mt hactive.1 hnot)]
  rw [if_neg (by simpa using hactive.2 hppv)] at hexec
  have hdue : (u.lineup.scheduled.any (· < endTime made) && !isPpv made.channel u.lineup.staged) = true ↔
      (∃ b ∈ u.lineup.scheduled, b < ends) ∧ ¬ppv u.lineup.staged := by
    rw [Bool.and_eq_true, Option.any_eq_true, Bool.not_eq_true', ← Bool.not_eq_true]
    simp only [decide_eq_true_eq]
    exact and_congr Iff.rfl (not_congr hstaged)
  refine ⟨fun hb hnot => ?_, fun hok => ?_⟩
  · rw [hexec, if_pos (hdue.2 ⟨hb, hnot⟩)]
  rw [if_neg fun hc => by
    obtain ⟨⟨b, hb, hlt⟩, hnot⟩ := hdue.1 hc
    exact hnot (hok b hb hlt)] at hexec
  refine ⟨fun x hx ho lowest hrising => ?_, fun hclear => ?_⟩
  · rw [hexec, overlappingEvent_eq_some (e := made) hrising hx ho lowest]
    rfl
  rw [overlappingEvent_eq_none hclear] at hexec
  dsimp only at hexec
  refine ⟨fun hfull => ?_, fun hroom => ⟨?_, fun hrising => ?_⟩⟩
  · rw [hexec, if_pos hfull]
  · rw [hexec, if_neg (Nat.not_le.2 hroom)]
    rfl
  · rw [insertEvent_eq]
    exact ⟨rising_insertKeyed hrising hfree, fun e => mem_insertKeyed⟩

end Sys2Proof.Machine
end

section
/-! SUPPORT. The fields of the replies to the requests that read. -/

namespace Sys2Proof.Machine

/-! ### The entries of a range -/

/-- The numbers of a range that lie between two bounds inside it. -/
theorem filter_within_range' {start len low high : Nat} (hlow : start ≤ low) (hle : low ≤ high)
    (hhigh : high < start + len) :
    (List.range' start len).filter (within low high) = List.range' low (high + 1 - low) := by
  have hsplit : List.range' start len =
      List.range' start (low - start) ++ (List.range' low (high + 1 - low) ++
        List.range' (high + 1) (start + len - (high + 1))) := by
    have hback : List.range' low (high + 1 - low) ++ List.range' (high + 1) (start + len - (high + 1)) =
        List.range' low (start + len - low) := by
      have h := List.range'_append_1 (s := low) (m := high + 1 - low) (n := start + len - (high + 1))
      rw [show low + (high + 1 - low) = high + 1 by omega] at h
      rw [h]
      congr 1
      omega
    have h := List.range'_append_1 (s := start) (m := low - start) (n := start + len - low)
    rw [show start + (low - start) = low by omega] at h
    rw [hback, h]
    congr 1
    omega
  have hout {a n : Nat} (h : ∀ k, a ≤ k → k < a + n → ¬(low ≤ k ∧ k ≤ high)) :
      (List.range' a n).filter (within low high) = [] :=
    List.filter_eq_nil_iff.2 fun k hk hw => h k (List.mem_range'_1.1 hk).1 (List.mem_range'_1.1 hk).2 (within_iff.1 hw)
  have hin : (List.range' low (high + 1 - low)).filter (within low high) = List.range' low (high + 1 - low) :=
    List.filter_eq_self.2 fun k hk => within_iff.2 (by have := List.mem_range'_1.1 hk; omega)
  rw [hsplit, List.filter_append, List.filter_append, hin,
    hout (a := start) (n := low - start) fun k _ _ => by omega,
    hout (a := high + 1) fun k _ _ => by omega, List.nil_append, List.append_nil]

theorem upTo_eq_range' (n : Nat) : upTo n = List.range' 1 n := by
  rw [upTo, List.range'_eq_map_range]
  exact List.map_congr_left fun k _ => Nat.add_comm k 1

/-! ### Fields -/

theorem countP_tapCount (s : State) (n : Nat) (state : UnitState) :
    tapCount s n state = s.taps.countP fun t => t.node = n ∧ t.state = state :=
  List.countP_congr fun t _ => by simp

theorem latchRate_field (latch : Latch) :
    optionalField byte4 (latchRate latch) = match latch with
      | .active rate => [Field.uint 1 1, Field.uint 4 rate]
      | .hold rate => [Field.uint 1 1, Field.uint 4 rate]
      | .cut => [Field.uint 1 0]
      | .none => [Field.uint 1 0] := by
  cases latch <;> rfl

/-- Settles O53: each reply by the fields of its step, and each refusal by its range. -/
theorem readsReplyWhatStands : Obligations.ReadsReplyWhatStands := by
  intro tag s u flag optional port status reading
  have hopt1 (x : Option Nat) : optionalField byte1 x = optional 1 x := by cases x <;> rfl
  have hopt2 (x : Option Nat) : optionalField byte2 x = optional 2 x := by cases x <;> rfl
  have hopt3 (x : Option Nat) : optionalField byte3 x = optional 3 x := by cases x <;> rfl
  have hopt4 (x : Option Nat) : optionalField byte4 x = optional 4 x := by cases x <;> rfl
  have hreading (x : Option Reading) : optionalField readingField x = reading x := by cases x <;> rfl
  have hflag (b : Bool) : flag1 b = [flag b] := rfl
  have hport : portField = port := rfl
  have hclass (x : Option Classification) :
      optionalField (fun c => byte1 (classificationCode c)) x = optional 1 (x.map classificationCode) := by
    cases x <;> rfl
  have hstatus (x : Option TapStatus) : optionalField statusField x = status x := by
    cases x with
    | none => rfl
    | some v =>
      simp only [optionalField, statusField, settingField, arrayField, hport, byte1, byte3, signed2, status,
        List.append_assoc, List.cons_append, List.nil_append]
  refine ⟨?lineup, ?tap, ?poll, ?node, ?source, ?account, ?event, ?events, ?journal, ?alarms⟩
  case lineup =>
    intro bank low high c h b found
    have hrange : (!within 1 999 low || !within 1 999 high || decide (high < low) || decide (1 < bank)) = true ↔
        ¬(bank ≤ 1 ∧ 1 ≤ low ∧ high ≤ 999 ∧ low ≤ high) := by
      simp only [Bool.or_eq_true, Bool.not_eq_true', ← Bool.not_eq_true, within_iff, decide_eq_true_eq]
      omega
    have hfound : (b.entries.filter fun e => within low high e.channel) = found :=
      List.filter_congr fun e _ => Bool.eq_iff_iff.2 (within_iff.trans decide_eq_true_iff.symm)
    have hmore : optionalField byte2 ((found.drop 32).head?.map (·.channel)) = match found[32]? with
        | none => [Field.uint 1 0]
        | some e => [Field.uint 1 1, Field.uint 2 e.channel] := by
      rw [List.head?_drop]
      cases found[32]? <;> rfl
    have hentry : entryField = fun e => [Field.uint 2 e.channel, Field.uint 1 e.slot, Field.uint 1 e.source,
        Field.uint 1 (if e.kind = .tiered then 0 else 1)] ++ optional 1 e.tier ++
        Field.uint 1 e.label.length :: e.label.map fun x => Field.uint 1 x.toNat := by
      funext e
      have hlabel : labelField e.label = Field.uint 1 e.label.length :: e.label.map fun x => Field.uint 1 x.toNat :=
        congrArg (Field.uint 1 e.label.length :: ·) (List.flatMap_pure_eq_map (fun x : Byte => Field.uint 1 x.toNat) _)
      have hkind : channelKindCode e.kind = if e.kind = .tiered then 0 else 1 := by cases e.kind <;> rfl
      rw [entryField, hlabel, hopt1, hkind]
      rfl
    rw [exec_of_executes (owner := lineupReadStep bank low high) rfl h, lineupReadStep]
    by_cases hr : bank ≤ 1 ∧ 1 ≤ low ∧ high ≤ 999 ∧ low ≤ high
    · rw [if_neg fun hc => hrange.1 hc hr, if_neg (not_not.2 hr)]
      dsimp only
      have htariff : tariffField b.tariff = b.tariff.tiers.toList.map (Field.uint 4 ·) ++ [Field.uint 4 b.tariff.holdRate] :=
        congrArg (· ++ [Field.uint 4 b.tariff.holdRate]) (List.flatMap_pure_eq_map (Field.uint 4) _)
      have htime : (if bank = 0 then byte4 u.lineup.effective else optionalField byte4 u.lineup.scheduled) =
          if bank = 0 then [Field.uint 4 u.lineup.effective]
          else match u.lineup.scheduled with
            | none => [Field.uint 1 0]
            | some t => [Field.uint 1 1, Field.uint 4 t] := by
        cases u.lineup.scheduled <;> rfl
      rw [hfound, hmore, htime, htariff, listField, List.length_take, hentry]
      simp only [byte1, byte2, List.append_assoc, List.cons_append, List.nil_append] <;> rfl
    · rw [if_pos (hrange.2 hr), if_pos hr]
  case tap =>
    intro address c h
    have hexec := exec_of_executes (owner := tapReadStep address) rfl h
    refine ⟨fun hr => ?_, fun hlow hhigh => ?_⟩
    · rw [hexec, tapReadStep, if_pos (by simpa [← Bool.not_eq_true, addressInRange_iff] using hr)]
    have hin : ¬(!addressInRange address) = true := by simpa [addressInRange_iff] using ⟨hlow, hhigh⟩
    rw [tapReadStep, if_neg hin] at hexec
    refine ⟨fun t ht => ?_, fun ht => ⟨fun n hn => ?_, fun hn => ?_⟩⟩
    · intro w shown
      have hconfirmed : optionalField settingField t.switching.confirmed = match w.confirmed with
          | none => [Field.uint 1 0]
          | some x => Field.uint 1 1 :: x.toList.flatMap port := by
        unfold w
        cases t.switching.confirmed <;> rfl
      have hports : arrayField (optionalField byte4) t.ports.toList = t.ports.toList.flatMap (optional 4) :=
        List.flatMap_congr fun x _ => hopt4 x
      have hshown : tapFields u t = shown := by
        rw [tapFields, hclass, hstatus, hstatus, hopt1, hopt2, hconfirmed, hports, queuePosition]
        simp only [byte1, byte2, byte3, hflag, settingField, arrayField, hport, shown, List.append_assoc,
          List.cons_append, List.nil_append]
        rfl
      rw [hexec, ht, ← hshown]
    · intro r shown
      have hshown : transponderFields n r = shown := by
        rw [transponderFields, hclass, hopt3, hreading, hreading]
        simp only [byte1, shown, List.append_assoc, List.cons_append, List.nil_append]
      rw [hexec, ht]
      dsimp only
      rw [hn, ← hshown]
    · rw [hexec, ht]
      dsimp only
      rw [hn]
  case poll =>
    intro list start c h shown
    have hrange : (decide (543 < start) || decide (1 < list)) = true ↔ ¬(list ≤ 1 ∧ start ≤ 543) := by
      simp only [Bool.or_eq_true, decide_eq_true_eq]
      omega
    rw [exec_of_executes (owner := pollReadStep list start) rfl h, pollReadStep]
    by_cases hr : list ≤ 1 ∧ start ≤ 543
    · rw [if_neg fun hc => hrange.1 hc hr, if_neg (not_not.2 hr)]
      rfl
    · rw [if_pos (hrange.2 hr), if_pos hr]
  case node =>
    intro node c h
    have hexec := exec_of_executes (owner := nodeReadStep node) rfl h
    refine ⟨fun hr => ?_, fun hlow hhigh => ?_⟩
    · rw [hexec, nodeReadStep, if_pos (by simpa [← Bool.not_eq_true, within_iff] using hr)]
    · have hin : ¬(!within 1 32 node) = true := by simpa [within_iff] using ⟨hlow, hhigh⟩
      intro r taps
      have hthresholds : thresholdFields r.thresholds = [Field.uint 1 r.thresholds.missLimit,
          Field.uint 1 r.thresholds.degradedPercent, Field.uint 1 r.thresholds.outagePercent,
          Field.uint 2 r.thresholds.restoreHold, Field.uint 2 r.thresholds.powerThreshold,
          Field.uint 2 r.thresholds.powerHysteresis, Field.uint 2 r.thresholds.levelStep] := rfl
      have htaps : arrayField (fun state => byte2 (tapCount u node state)) [.unknown, .online, .missing, .silent,
          .removing] = [taps .unknown, taps .online, taps .missing, taps .silent, taps .removing] := by
        simp only [countP_tapCount]
        rfl
      have hsilent : byte2 (countS u node) = [taps .silent] := by
        rw [countS_eq]
        rfl
      have houtage : flag1 (nodeOutage r) = [flag (r.state = .outage ∨ r.state = .restoring)] := by
        rw [hflag, nodeOutage, Bool.decide_or]
      rw [hexec, nodeReadStep, if_neg hin]
      dsimp only
      rw [hthresholds, htaps, hsilent, houtage, countP_eq, hopt2, hopt3, hreading, hreading]
      simp only [byte1, byte2, hflag, nodeDegraded, List.append_assoc, List.cons_append, List.nil_append]
      rfl
  case source =>
    intro low high c h
    have hrange : (!within 1 64 low || !within 1 64 high || decide (high < low)) = true ↔
        ¬(1 ≤ low ∧ high ≤ 64 ∧ low ≤ high) := by
      simp only [Bool.or_eq_true, Bool.not_eq_true', ← Bool.not_eq_true, within_iff, decide_eq_true_eq]
      omega
    rw [exec_of_executes (owner := sourceReadStep low high) rfl h, sourceReadStep]
    by_cases hr : 1 ≤ low ∧ high ≤ 64 ∧ low ≤ high
    · rw [if_neg fun hc => hrange.1 hc hr, if_neg (not_not.2 hr), upTo_eq_range',
        filter_within_range' hr.1 hr.2.2 (by omega), listField, List.length_range']
      have hinput : inputField u = fun i =>
          let r := inputOf u i
          let debounced : Nat := match r.debounced with
            | .present => 0
            | .lost => 1
            | .unknown => 2
          [flag r.high, Field.uint 1 debounced, Field.uint 1 r.steady, flag (i ∈ u.lineup.sourcesInUse),
            flag r.lost] := by
        funext i
        simp only [inputField, List.contains_eq_mem]
        rfl
      rw [hinput]
      rfl
    · rw [if_pos (hrange.2 hr), if_pos hr]
  case account =>
    intro k c h
    obtain ⟨hrange, hnumber⟩ := exec_withAccount rfl h
    refine ⟨hrange, fun hlow hhigh => ⟨(hnumber hlow hhigh).1, fun a t ha ht => ?_⟩⟩
    have hpurchase : purchaseField = fun p => [Field.uint 1 p.event, Field.uint 4 p.price, Field.uint 4 p.time,
        Field.uint 1 (if p.origin = .plant then 0 else 1)] ++ optional 1 p.counter := by
      funext p
      rw [purchaseField, hopt1]
      cases p.origin <;> rfl
    rw [(hnumber hlow hhigh).2 a ha, ht, latchRate_field, hpurchase]
    simp only [byte1, byte2, byte3, byte4, signed4, tierSet2, hflag, listField, List.append_assoc, List.cons_append,
      List.nil_append] <;> rfl
  case event =>
    intro event start c h
    have hexec := exec_of_executes (owner := eventReadStep event start) rfl h
    have hrange : (!within 1 255 event || decide (1023 < start)) = true ↔
        ¬(1 ≤ event ∧ event ≤ 255 ∧ start ≤ 1023) := by
      simp only [Bool.or_eq_true, Bool.not_eq_true', ← Bool.not_eq_true, within_iff, decide_eq_true_eq]
      omega
    refine ⟨fun hr => ?_, fun hlow hhigh hstart => ⟨fun hnone => ?_, fun e he => ?_⟩⟩
    · rw [hexec, eventReadStep, if_pos (hrange.2 hr)]
    · rw [hexec, eventReadStep, if_neg fun hc => hrange.1 hc ⟨hlow, hhigh, hstart⟩, hnone]
    · intro shown
      rw [hexec, eventReadStep, if_neg fun hc => hrange.1 hc ⟨hlow, hhigh, hstart⟩, he]
      have hnext : optionalField byte2 (if start + 32 < e.holders.length then some (start + 32) else none) =
          if start + 32 < e.holders.length then [Field.uint 1 1, Field.uint 2 (start + 32)] else [Field.uint 1 0] := by
        split <;> rfl
      have hcounters : arrayField byte2 e.counters.toList = e.counters.toList.map (Field.uint 2 ·) :=
        List.flatMap_pure_eq_map (Field.uint 2) _
      have hholders : listField byte4 shown = Field.uint 1 shown.length :: shown.map (Field.uint 4 ·) :=
        congrArg (Field.uint 1 shown.length :: ·) (List.flatMap_pure_eq_map (Field.uint 4) _)
      dsimp only
      rw [hnext, hcounters, hholders]
      simp only [byte1, byte2, byte4, List.append_assoc, List.cons_append, List.nil_append]
      rfl
  case events =>
    intro h
    rw [exec_of_executes (owner := eventListStep) rfl h]
    rfl
  case journal =>
    intro count c h shown
    rw [exec_of_executes (owner := journalReadStep count) rfl h]
    have hrecord : recordFields = fun r =>
        let kind (k : Nat) : List Field := [Field.uint 4 r.sequence, Field.uint 1 k, Field.uint 4 r.time]
        match r.body with
        | .purchase account event price origin =>
          kind 0 ++ [Field.uint 4 account, Field.uint 1 event, Field.uint 4 price,
            Field.uint 1 (if origin = .plant then 0 else 1)]
        | .refund account event amount cause =>
          kind 1 ++ [Field.uint 4 account, Field.uint 1 event, Field.uint 4 amount,
            Field.uint 1 (if cause = .settled then 0 else 1)]
        | .cycleClose account balance credited overflow =>
          kind 2 ++ [Field.uint 4 account, Field.sint 4 balance, Field.uint 2 credited, flag overflow]
        | .overflow account => kind 3 ++ [Field.uint 4 account]
        | .gap down up => kind 4 ++ [Field.uint 4 down, Field.uint 4 up]
        | .switchover version => kind 5 ++ [Field.uint 1 version] := by
      funext r
      unfold recordFields
      cases r.body with
      | purchase _ _ _ origin => cases origin <;> rfl
      | refund _ _ _ cause => cases cause <;> rfl
      | cycleClose _ _ _ _ => rfl
      | overflow _ => rfl
      | gap _ _ => rfl
      | switchover _ => rfl
    rw [journalReadStep, hrecord]
    rfl
  case alarms =>
    intro low high c h lo hi composites
    rw [exec_of_executes (owner := alarmQueryStep low high) rfl h]
    have hlo : clampNat 0 233 low = lo := Nat.zero_max _
    have hrange : sourceRange lo hi = List.range' lo (hi + 1 - lo) := by
      rw [sourceRange, List.range_eq_range']
      exact filter_within_range' (Nat.zero_le _) (le_max_left _ _) (by omega)
    have hcomposites : ((List.range 8).filter fun k => within lo hi (compositeSource k)) = composites :=
      List.filter_congr fun k _ => Bool.eq_iff_iff.2 (within_iff.trans decide_eq_true_iff.symm)
    have hexpress : arrayField (optionalField byte1) u.alarms.express.toList =
        u.alarms.express.toList.flatMap (optional 1) := List.flatMap_congr fun x _ => hopt1 x
    have hsource : alarmFields u.alarms = fun i =>
        let r := alarmOf u.alarms i
        [Field.uint 1 r.level, Field.uint 1 (if r.kind = .latching then 0 else 1), flag r.condition,
          Field.uint 1 (alarmStateCode r.state)] ++ optional 1 r.reported ++
        [flag r.transient, flag r.clearOwed, flag (some i ∈ u.alarms.express.toList)] := by
      funext i
      have hkind : alarmKindCode (alarmOf u.alarms i).kind =
          if (alarmOf u.alarms i).kind = .latching then 0 else 1 := by
        cases (alarmOf u.alarms i).kind <;> rfl
      simp only [alarmFields, hopt1, hkind, inExpress, List.contains_eq_mem, byte1, hflag, List.append_assoc,
        List.cons_append, List.nil_append]
    have hcomposite : compositeFields u.alarms = fun k =>
        (match vecGet u.alarms.composites k none with
          | none => [Field.uint 1 0]
          | some d => [Field.uint 1 1, Field.uint 1 (compositeOpCode d.op), Field.uint 1 d.a, Field.uint 1 d.b,
              flag d.hold]) ++
        [flag (vecGet u.alarms.latches k false)] := by
      funext k
      unfold compositeFields
      cases vecGet u.alarms.composites k none <;> rfl
    unfold alarmQueryStep
    dsimp only
    rw [hlo]
    have hhi : clampNat lo (min 233 (lo + 31)) high = hi := rfl
    rw [hhi, hrange, hcomposites, hexpress, hsource, hcomposite]
    simp only [byte1, byte2, listField, List.length_range', List.append_assoc, List.cons_append,
      List.nil_append] <;> rfl

end Sys2Proof.Machine
end

section
/-! SUPPORT. Composite operations keep what their parts keep: for any property of a state, once for each operation. -/

namespace Sys2Proof.Machine

section
variable {p : State → Prop}

/-! ### The node state machine (R111 to R114) -/

/-- The entries into a state that re-evaluation and a probe answer make: a timer only in RESTORING, from 1 to the hold. -/
def entryFits (s : State) (n : Nat) (state : NodeState) (timer : Option Nat) : Prop :=
  ∀ k ∈ timer, state = .restoring ∧ 1 ≤ k ∧ k ≤ (nodeOf s n).thresholds.restoreHold

theorem entryFits_none (s : State) (n : Nat) (state : NodeState) : entryFits s n state none := fun _ h => absurd h nofun

theorem reevaluate_keeps {n : Nat} {s : State}
    (enter : ∀ state timer, entryFits s n state timer → p s → p (setNodeState n state timer s)) (h : p s) :
    p (reevaluate n s) := by
  have untimed (state : NodeState) : p (setNodeState n state none s) := enter state none (entryFits_none s n state) h
  unfold reevaluate
  split
  · exact untimed _
  · exact untimed _
  · exact untimed _
  · split
    · exact untimed _
    · exact h
  · split_ifs
    · exact untimed _
    · exact untimed _
    · exact h

theorem probeAnswer_keeps {n probe : Nat} {s : State} (release : p s → p (releaseSilent n probe s))
    (enter : ∀ state timer u, entryFits u n state timer → p u → p (setNodeState n state timer u)) (h : p s) :
    p (probeAnswer n probe s) := by
  unfold probeAnswer
  split
  · dsimp only
    split_ifs with hcount hhold
    · exact enter _ _ _ (entryFits_none _ _ _) (release h)
    · exact enter _ _ _ (entryFits_none _ _ _) (release h)
    · refine enter _ _ _ ?_ (release h)
      rintro k ⟨⟩
      exact ⟨rfl, Nat.one_le_iff_ne_zero.2 hhold, le_rfl⟩
  · exact h

theorem setTapState_keeps {t : TapRec} {state : UnitState} {s : State}
    (change : p s → p { s with taps := modifyTap t.address (fun r => { r with state := state }) s.taps })
    (judge : ∀ u, p u → p (reevaluate t.node u)) (h : p s) : p (setTapState t state s) := by
  unfold setTapState
  dsimp only
  split
  · exact change h
  · exact judge _ (change h)

/-! ### Landing (R65 to R67) -/

/-- What a landing makes of a tap's record: the landing fields change, and the state to ONLINE, MISSING or SILENT, but in
REMOVING not at all. -/
def tapLands (t : TapRec) (f : TapRec → TapRec) : Prop :=
  (∀ r, (f r).address = r.address ∧ (f r).node = r.node ∧ (f r).ports = r.ports ∧ (f r).stale = r.stale ∧
    (f r).switching = r.switching ∧ (r.miss ≤ 15 → (f r).miss ≤ 15)) ∧
  (t.state = .removing → ∀ r, (f r).state = r.state) ∧ (t.state ≠ .removing → ∀ r, (f r).state ≠ .removing)

theorem landTap_keeps {t : TapRec} {probe : Bool} {result : WindowResult} {s : State}
    (land : ∀ f, tapLands t f → p s → p { s with taps := modifyTap t.address f s.taps })
    (judge : ∀ u, p u → p (reevaluate t.node u)) (compare : ∀ ports u, p u → p (reconcile t.address ports u))
    (answer : ∀ u, p u → p (probeAnswer t.node t.address u)) (h : p s) : p (landTap t probe result s) := by
  have answered {u : State} (hu : p u) : p (answeredBy t probe u) := by
    unfold answeredBy
    split
    · exact answer u hu
    · exact hu
  have removing {f : TapRec → TapRec} (hr : t.state = .removing)
      (hf : ∀ r, (f r).address = r.address ∧ (f r).node = r.node ∧ (f r).ports = r.ports ∧ (f r).stale = r.stale ∧
        (f r).switching = r.switching ∧ (r.miss ≤ 15 → (f r).miss ≤ 15)) (hs : ∀ r, (f r).state = r.state) :
      p { s with taps := modifyTap t.address f s.taps } :=
    land f ⟨hf, fun _ => hs, fun hn => absurd hr hn⟩ h
  have moved {f : TapRec → TapRec} {state : UnitState} (hr : t.state ≠ .removing)
      (hf : ∀ r, (f r).address = r.address ∧ (f r).node = r.node ∧ (f r).ports = r.ports ∧ (f r).stale = r.stale ∧
        (f r).switching = r.switching ∧ (r.miss ≤ 15 → (f r).miss ≤ 15)) (hs : ∀ r, (f r).state ≠ .removing) :
      p (let u := { s with taps := modifyTap t.address f s.taps }
        if t.state = state then u else reevaluate t.node u) := by
    have landed := land f ⟨hf, fun hn => absurd hn hr, fun _ => hs⟩ h
    dsimp only
    split
    · exact landed
    · exact judge _ landed
  by_cases hr : t.state = .removing
  · obtain ⟨hgood, hgarbled, hnone⟩ := landTap_removing (s := s) (probe := probe) hr
    match result with
    | .good (.tapStatus status) =>
      rw [hgood]
      exact removing hr (fun _ => ⟨rfl, rfl, rfl, rfl, rfl, id⟩) fun _ => rfl
    | .good (.transponderStatus _ _) => exact h
    | .good (.ack _ _ _) => exact h
    | .good (.purchase _) => exact h
    | .garbled =>
      rw [hgarbled]
      exact removing hr (fun _ => ⟨rfl, rfl, rfl, rfl, rfl, id⟩) fun _ => rfl
    | .none =>
      rw [hnone]
      exact removing hr (fun _ => ⟨rfl, rfl, rfl, rfl, rfl, id⟩) fun _ => rfl
  · match result with
    | .good (.tapStatus status) =>
      rw [landTap_good hr]
      exact answered (compare _ _ (moved hr (fun _ => ⟨rfl, rfl, rfl, rfl, rfl, fun _ => Nat.zero_le _⟩) fun _ => nofun))
    | .good (.transponderStatus _ _) => exact h
    | .good (.ack _ _ _) => exact h
    | .good (.purchase _) => exact h
    | .garbled =>
      rw [landTap_garbled hr]
      exact answered (moved hr (fun _ => ⟨rfl, rfl, rfl, rfl, rfl, fun _ => Nat.zero_le _⟩) fun _ => nofun)
    | .none =>
      rw [landTap_none hr]
      refine moved hr (fun _ => ⟨rfl, rfl, rfl, rfl, rfl, fun _ => Nat.min_le_left _ _⟩) fun _ => ?_
      dsimp only
      split <;> decide

/-- What a landing makes of a transponder's record. -/
def transponderLands (r : TransponderRec) (f : TransponderRec → TransponderRec) : Prop :=
  (∀ q, (f q).address = q.address) ∧
    (r.state = .removing → ∀ q, (f q).state = q.state) ∧ (r.state ≠ .removing → ∀ q, (f q).state ≠ .removing)

theorem landTransponder_keeps {n a : Nat} {probe : Bool} {result : WindowResult} {s : State}
    (land : ∀ f, transponderLands (transponderOf s n) f → p s → p (modifyTransponder n f s))
    (reading : ∀ x u, p u → p (takeReading n x u)) (answer : ∀ u, p u → p (probeAnswer n a u)) (h : p s) :
    p (landTransponder n a probe result s) := by
  have answered {u : State} (hu : p u) : p (if probe then probeAnswer n a u else u) := by
    split
    · exact answer u hu
    · exact hu
  by_cases hr : (transponderOf s n).state = .removing
  · have removing {f : TransponderRec → TransponderRec} (hf : ∀ q, (f q).address = q.address ∧ (f q).state = q.state) :
        p (modifyTransponder n f s) :=
      land f ⟨fun q => (hf q).1, fun _ q => (hf q).2, fun hn => absurd hr hn⟩ h
    obtain ⟨hgood, hgarbled, hnone⟩ := landTransponder_removing (a := a) (probe := probe) hr
    match result with
    | .good (.transponderStatus x y) =>
      rw [hgood]
      exact removing fun _ => ⟨rfl, rfl⟩
    | .good (.tapStatus _) => exact h
    | .good (.ack _ _ _) => exact h
    | .good (.purchase _) => exact h
    | .garbled =>
      rw [hgarbled]
      exact removing fun _ => ⟨rfl, rfl⟩
    | .none =>
      rw [hnone]
      exact removing fun _ => ⟨rfl, rfl⟩
  · have moved {f : TransponderRec → TransponderRec} (hf : ∀ q, (f q).address = q.address ∧ (f q).state ≠ .removing) :
        p (modifyTransponder n f s) :=
      land f ⟨fun q => (hf q).1, fun hn => absurd hn hr, fun _ q => (hf q).2⟩ h
    match result with
    | .good (.transponderStatus x y) =>
      rw [landTransponder_good hr]
      exact answered (reading _ _ (moved fun _ => ⟨rfl, nofun⟩))
    | .good (.tapStatus _) => exact h
    | .good (.ack _ _ _) => exact h
    | .good (.purchase _) => exact h
    | .garbled =>
      rw [landTransponder_garbled hr]
      exact answered (moved fun _ => ⟨rfl, nofun⟩)
    | .none =>
      rw [landTransponder_none hr]
      refine moved fun _ => ⟨rfl, ?_⟩
      dsimp only
      split <;> decide

theorem landReply_keeps {a : Nat} {probe : Bool} {result : WindowResult} {s : State}
    (tap : ∀ t, findTap t.address s.taps = some t → p s → p (landTap t probe result s))
    (transponder : ∀ n, 1 ≤ n ∧ n ≤ 32 → p s → p (landTransponder n a probe result s)) (h : p s) :
    p (landReply a probe result s) := by
  unfold landReply
  split
  · rename_i t ht
    obtain ⟨-, rfl⟩ := findTap_some ht
    exact tap t ht h
  · split
    · rename_i n hn
      exact transponder n (mem_upTo.1 (List.mem_of_find?_eq_some hn)) h
    · exact h

/-! ### Passes (R58, R59) -/

/-- The state in which a pass end has freed the records in REMOVING and the new pass is in force, but for the
notices. -/
def passTurn (s : State) : State := { s with
  taps := s.taps.filter (·.state != .removing),
  transponders := vecMap dropRemoving s.transponders,
  sched := { s.sched with
    passCount := nextPassCount s.sched.passCount,
    current := s.sched.next,
    orderInForce := s.sched.orderSelected,
    probeMarks := Vector.replicate 32 false,
    cursor := 0 } }

theorem foldl_keeps {α : Type} {f : State → α → State} {xs : List α} (each : ∀ x ∈ xs, ∀ u, p u → p (f u x)) {s : State}
    (h : p s) : p (xs.foldl f s) := by
  induction xs generalizing s with
  | nil => exact h
  | cons x xs ih => exact ih (fun y hy => each y (.tail _ hy)) (each x (.head _) s h)

theorem passEnd_keeps {s : State} (turn : p s → p (passTurn s))
    (lose : ∀ n, 1 ≤ n ∧ n ≤ 32 → ∀ u, p u → p (loseTransponder n u)) (h : p s) : p (passEnd s) :=
  foldl_keeps (fun n hn u hu => lose n (mem_upTo.1 (List.mem_of_mem_filter hn)) u hu) (turn h)

theorem look_keeps {s : State} (cursor : ∀ k u, p u → p (setCursor k u)) (h : p s) : p (look s).1 := by
  unfold look
  split
  · exact cursor _ _ h
  · exact cursor _ _ h

theorem pollOffer_keeps {s : State} (cursor : ∀ k u, p u → p (setCursor k u)) (turn : ∀ u, p u → p (passEnd u))
    (h : p s) : p (pollOffer s).1 := by
  have first : p (look s).1 := look_keeps cursor h
  unfold pollOffer
  split
  · split
    · rename_i hl
      rw [hl] at first
      exact first
    · rename_i hl
      rw [hl] at first
      split
      · exact first
      · exact look_keeps cursor (turn _ first)
  · exact h

/-! ### Slots and windows -/

theorem arbitrate_keeps {tap : Option TapRec} {poll : Option PollInFlight} {s : State}
    (carrier : ∀ c u, p u → p { u with carrier := c }) (taken : ∀ q u, p u → p (takePoll q u))
    (sent : ∀ t ∈ tap, p s → p (modifySwitch t.address sendStep s)) (h : p s) : p (arbitrate tap poll s) := by
  have tapSet {t : TapRec} (ht : t ∈ tap) : p (sendTapSet t s) := carrier _ (modifySwitch t.address sendStep s) (sent t ht h)
  have pollSent (q : PollInFlight) : p (sendPoll q s) := carrier _ (takePoll q s) (taken q s h)
  unfold arbitrate
  split
  · exact carrier _ s h
  · exact tapSet rfl
  · split
    · exact tapSet rfl
    · exact pollSent _
  · exact pollSent _
  · exact carrier _ s h

theorem slotOpenStep_keeps {s : State} (carrier : ∀ c u, p u → p { u with carrier := c })
    (taken : ∀ q u, p u → p (takePoll q u)) (offer : ∀ u, p u → p (pollOffer u).1)
    (sent : ∀ t u, findTap t.address u.taps = some t → p u → p (modifySwitch t.address sendStep u)) (h : p s) :
    p (slotOpenStep s) := by
  unfold slotOpenStep
  split
  · exact h
  · dsimp only
    split
    · exact carrier _ s h
    · refine arbitrate_keeps carrier taken (fun t ht hu => ?_) (offer _ (carrier _ s h))
      obtain ⟨a, -, ha⟩ := Option.bind_eq_some_iff.1 ht
      obtain ⟨-, rfl⟩ := findTap_some ha
      exact sent t _ ha hu
    · exact carrier _ s h

theorem replyWindowCloseStep_keeps {energy : Bool} {message : Option (List Byte)} {s : State}
    (carrier : ∀ c u, p u → p { u with carrier := c })
    (handed : ∀ q u, p u → p { u with due := { u.due with purchases := u.due.purchases ++ [q] } })
    (poll : ∀ a result u, p u → p (pollResult a result u)) (delivery : ∀ a result u, p u → p (judgeDelivery a result u))
    (h : p s) : p (replyWindowCloseStep energy message s) := by
  unfold replyWindowCloseStep
  split
  · exact h
  · unfold handResult
    split
    · exact poll _ _ _ (carrier _ s h)
    · exact delivery _ _ _ (carrier _ s h)
    · unfold contentionResult
      split
      · rename_i q _
        split
        · exact carrier _ { s with due := { s.due with purchases := s.due.purchases ++ [q] } } (handed q s h)
        · exact carrier _ s h
      · exact carrier _ s h

end

end Sys2Proof.Machine
end

section
/-! SUPPORT. The Service Clock and the Outage Monitor stay sound: what each of their operations leaves of the invariants. -/

namespace Sys2Proof.Machine

/-! ### Minute ends given out (R5, R6) -/

theorem minuteEndsSound_nil (last : Option Nat) : minuteEndsSound last [] :=
  ⟨List.Pairwise.nil, List.forall_mem_nil _⟩

theorem minuteEndsSound_tail {last : Option Nat} {m : MinuteEnd} {ends : List MinuteEnd}
    (h : minuteEndsSound last (m :: ends)) : minuteEndsSound last ends :=
  ⟨h.1.of_cons, fun x hx => h.2 x (.tail _ hx)⟩

/-- A minute end later than every boundary given out before it joins the ends not yet taken. -/
theorem minuteEndsSound_append {last : Option Nat} {ends : List MinuteEnd} {t : Nat} (h : minuteEndsSound last ends)
    (h60 : t % 60 = 0) (hlater : ∀ b ∈ last, b < t) :
    minuteEndsSound (some t) (ends ++ [{ time := t, marked := t % 900 = 0 }]) := by
  obtain ⟨hrising, hends⟩ := h
  have before (m : MinuteEnd) (hm : m ∈ ends) : m.time < t := by
    obtain ⟨-, -, b, hb, hle⟩ := hends m hm
    exact lt_of_le_of_lt hle (hlater b hb)
  refine ⟨?_, fun m hm => ?_⟩
  · rw [List.map_append, rising, List.pairwise_append]
    refine ⟨hrising, List.pairwise_singleton _ _, fun x hx y hy => ?_⟩
    obtain ⟨m, hm, rfl⟩ := List.mem_map.1 hx
    obtain rfl := List.mem_singleton.1 hy
    exact before m hm
  · obtain hm | hm := List.mem_append.1 hm
    · obtain ⟨h60, hmark, -⟩ := hends m hm
      exact ⟨h60, hmark, t, rfl, (before m hm).le⟩
    · obtain rfl := List.mem_singleton.1 hm
      exact ⟨h60, rfl, t, rfl, le_rfl⟩

/-! ### The Service Clock -/

/-- The clock's fields while they are held (R1, R3, R5, R6). -/
def clockHeld (c : Clock) (d : Deliveries) : Prop :=
  c.time ≤ maxTime ∧ (∀ b ∈ c.lastBoundary, b % 60 = 0 ∧ b ≤ maxTime) ∧
    (c.state = .unset → c.lastBoundary = none ∧ c.resetTime = none ∧ c.restartTime = none) ∧
    minuteEndsSound c.lastBoundary d.monitorEnds ∧ minuteEndsSound c.lastBoundary d.eventEnds

theorem clockSound_iff {s : State} :
    clockSound s ↔ (s.phase ≠ .mainLost → s.storeValid = true) ∧ (s.phase = .mainLost → s.storeValid = !s.backupLow) ∧
      (s.storeValid = true → clockHeld s.clock s.due) := Iff.rfl

/-- What soundness of the clock reads. -/
theorem clockSound_of_same {s t : State} (hphase : Block.phase.same s t) (hstore : Block.storeValid.same s t)
    (hbackup : Block.backupLow.same s t) (hclock : Block.clock.same s t) (hends : Block.minuteEnds.same s t)
    (h : clockSound s) : clockSound t := by
  obtain ⟨hmonitor, hevent⟩ := hends
  have hphase : t.phase = s.phase := hphase
  have hstore : t.storeValid = s.storeValid := hstore
  have hbackup : t.backupLow = s.backupLow := hbackup
  have hclock : t.clock = s.clock := hclock
  unfold clockSound
  rw [hphase, hstore, hbackup, hclock, hmonitor, hevent]
  exact h

/-- In a part on main power only the clock and the minute ends are in question. -/
theorem clockSound_of_held {s : State} (hphase : s.phase ≠ .mainLost) (hstore : s.storeValid = true)
    (h : clockHeld s.clock s.due) : clockSound s :=
  ⟨fun _ => hstore, fun hp => absurd hp hphase, fun _ => h⟩

theorem clockSound.held {s : State} (h : clockSound s) (hphase : s.phase ≠ .mainLost) :
    s.storeValid = true ∧ clockHeld s.clock s.due := ⟨h.1 hphase, h.2.2 (h.1 hphase)⟩

theorem clockHeld_countSecond {c : Clock} {d : Deliveries} (h : clockHeld c d) : clockHeld (countSecond c) d := by
  unfold countSecond
  split
  · obtain ⟨-, hlast, hunset, hends⟩ := h
    exact ⟨Nat.succ_le_of_lt (by rename_i hc; exact hc.2), hlast, hunset, hends⟩
  · exact h

/-- A minute boundary given out that is later than those before. -/
theorem clockHeld_emitMinute {s : State} {t : Nat} (h : clockHeld s.clock s.due) (hset : s.clock.state = .set)
    (h60 : t % 60 = 0) (ht : t ≤ maxTime) (hlater : ∀ b ∈ s.clock.lastBoundary, b < t) :
    clockHeld (emitMinute t s).clock (emitMinute t s).due := by
  obtain ⟨htime, -, -, hmonitor, hevent⟩ := h
  refine ⟨htime, ?_, fun hunset => ?_, minuteEndsSound_append hmonitor h60 hlater,
    minuteEndsSound_append hevent h60 hlater⟩
  · rintro b ⟨⟩
    exact ⟨h60, ht⟩
  · exact absurd (hset.symm.trans hunset) nofun

/-- A boundary for the Line-Up Store is no matter of the clock's soundness. -/
theorem clockHeld_deliverBoundary {s : State} {t : Nat} (h : clockHeld s.clock s.due) :
    clockHeld (deliverBoundary t s).clock (deliverBoundary t s).due := by
  rw [deliverBoundary_eq]
  exact h

theorem clockHeld_reach {s : State} {t : Nat} (h : clockHeld s.clock s.due) (hset : s.clock.state = .set)
    (ht : t ≤ maxTime) : clockHeld (reach t s).clock (reach t s).due := by
  unfold reach
  split
  · refine clockHeld_deliverBoundary ?_
    split
    · exact clockHeld_emitMinute h hset ‹_› ht (laterBoundary_iff.1 ‹_›)
    · exact h
  · exact h

theorem runningSecond_clockSound {s : State} (hp : s.phase = .running) (h : clockSound s) :
    clockSound (runningSecond s) := by
  have hlive : s.phase ≠ .mainLost := by rw [hp]; decide
  obtain ⟨hstore, hheld⟩ := h.held hlive
  have counted := clockHeld_countSecond hheld
  unfold runningSecond
  dsimp only
  split
  · exact clockSound_of_held hlive hstore counted
  · rename_i hmoved
    have hcount : s.clock.state = .set ∧ s.clock.time < maxTime := by
      by_contra hc
      exact hmoved (by rw [countSecond, if_neg hc])
    have hreach := changes_reach (countSecond s.clock).time { s with clock := countSecond s.clock }
    refine clockSound_of_held ?_ ?_ ?_
    · rw [show (secondTick _).phase = _ from hreach.same .phase]
      exact hlive
    · rw [show (secondTick _).storeValid = _ from hreach.same .storeValid]
      exact hstore
    · refine clockHeld_reach counted ?_ counted.1
      rw [countSecond, if_pos hcount]
      exact hcount.1

theorem secondTickStep_clockSound {s : State} (h : clockSound s) : clockSound (secondTickStep s) := by
  unfold secondTickStep
  split
  · exact runningSecond_clockSound ‹_› h
  · split
    · obtain ⟨hlive, hlost, hheld⟩ := h
      exact ⟨hlive, hlost, fun hs => clockHeld_countSecond (hheld hs)⟩
    · exact h

theorem setTimeStep_clockSound (time : Nat) {u : State} (h : clockSound u) : clockSound (setTimeStep time u).1 := by
  unfold setTimeStep
  split_ifs with hset hrange
  · exact h
  · exact h
  · obtain ⟨hlive, hlost, hheld⟩ := h
    have hunset : u.clock.state = .unset := by
      cases hs : u.clock.state with
      | unset => rfl
      | set => exact absurd hs hset
    refine ⟨hlive, hlost, fun hs => ?_⟩
    obtain ⟨-, -, hnone, hmonitor, hevent⟩ := hheld hs
    obtain ⟨hlast, -⟩ := hnone hunset
    have none_due {ends : List MinuteEnd} (he : minuteEndsSound u.clock.lastBoundary ends) : ends = [] := by
      rw [hlast] at he
      exact List.eq_nil_iff_forall_not_mem.2 fun m hm => by
        obtain ⟨-, -, b, hb, -⟩ := he.2 m hm
        exact absurd hb nofun
    have htime := Nat.not_lt.1 hrange
    refine ⟨htime, ?_, fun hc => absurd hc nofun, ?_, ?_⟩
    · rintro b ⟨⟩
      exact ⟨Nat.mul_mod_left _ _, (Nat.div_mul_le_self time 60).trans htime⟩
    · exact none_due hmonitor ▸ minuteEndsSound_nil _
    · exact none_due hevent ▸ minuteEndsSound_nil _

theorem timeTrimStep_clockSound (delta : Int) {u : State} (h : clockSound u) : clockSound (timeTrimStep delta u).1 := by
  unfold timeTrimStep
  split_ifs with hunset
  · exact h
  have hset : u.clock.state = .set := by
    cases hs : u.clock.state with
    | unset => exact absurd hs hunset
    | set => rfl
  dsimp only
  generalize hnew : ((u.clock.time : Int) + appliedDelta u.clock.time delta).toNat = new
  have htrim (hs : u.storeValid = true) : clockHeld (trimTo new u).clock (trimTo new u).due := by
    obtain ⟨htime, hlast, hnone, hends⟩ := h.2.2 hs
    have hrange : new ≤ maxTime := by
      have := appliedDelta_range htime delta
      unfold maxTime
      omega
    have moved : clockHeld { u.clock with time := new } u.due :=
      ⟨hrange, hlast, fun hc => absurd (hset.symm.trans hc) nofun, hends⟩
    unfold trimTo
    dsimp only
    split
    · rename_i hc
      exact clockHeld_emitMinute (s := { u with clock := { u.clock with time := new } }) moved hset
        (Nat.mul_mod_left _ _) ((Nat.div_mul_le_self new 60).trans hrange) (laterBoundary_iff.1 hc.2)
    · exact moved
  obtain ⟨hlive, hlost, -⟩ := h
  rw [trimTo_eq] at htrim ⊢
  exact ⟨hlive, hlost, htrim⟩

/-! ### The supplies and the resets -/

theorem clockHeld_stopClock {s : State} (h : clockHeld s.clock s.due) :
    clockHeld (stopClock s).clock (stopClock s).due := by
  unfold stopClock
  split
  · rename_i hc
    obtain ⟨htime, hlast, -, hends⟩ := h
    exact ⟨htime, hlast, fun hunset => absurd (hc.2.symm.trans hunset) nofun, hends⟩
  · exact h

theorem judgeRetention_clockSound {s : State} (hlive : s.phase ≠ .mainLost → s.storeValid = true)
    (hlost : s.phase = .mainLost → s.backupLow = false → s.storeValid = true)
    (hheld : s.storeValid = true → clockHeld s.clock s.due) : clockSound (judgeRetention s) := by
  by_cases hc : s.phase = .mainLost ∧ s.backupLow = true ∧ s.storeValid = true
  · obtain ⟨hp, hb, hv⟩ := hc
    rw [judgeRetention_lost hp hb hv]
    exact ⟨fun h => absurd hp h, fun _ => by rw [hb]; rfl, nofun⟩
  · rw [judgeRetention_held hc]
    refine ⟨hlive, fun hp => ?_, hheld⟩
    cases hb : s.backupLow with
    | false => exact hlost hp hb
    | true => exact Bool.eq_false_iff.2 fun hv => hc ⟨hp, hb, hv⟩

theorem mainPowerLossStep_clockSound {s : State} (h : clockSound s) : clockSound (mainPowerLossStep s) := by
  unfold mainPowerLossStep
  split
  · exact h
  · rename_i hp
    obtain ⟨hstore, hheld⟩ := h.held hp
    have hv : (stopClock s).storeValid = true := (changes_stopClock s).same .storeValid |>.trans hstore
    exact judgeRetention_clockSound (fun hc => absurd rfl hc) (fun _ _ => hv) fun _ => clockHeld_stopClock hheld

theorem backupBelowRetentionStep_clockSound {s : State} (h : clockSound s) :
    clockSound (backupBelowRetentionStep s) := by
  obtain ⟨hlive, -, hheld⟩ := h
  exact judgeRetention_clockSound hlive (fun _ hb => absurd hb nofun) hheld

theorem coldReset_clockSound (s : State) : clockSound (coldReset s) := clockSound_of_cold rfl rfl rfl rfl

theorem retainedReset_clockSound (kind : ResetKind) {s : State} (hstore : s.storeValid = true)
    (h : clockHeld s.clock s.due) : clockSound (retainedReset kind s) := by
  obtain ⟨htime, hlast, hnone, -⟩ := h
  obtain ⟨hstate, hclock, hboundary⟩ := retainedClock_kept s.clock
  refine clockSound_of_held nofun hstore ⟨?_, ?_, fun hunset => ?_, minuteEndsSound_nil _, minuteEndsSound_nil _⟩
  · exact hclock.trans_le htime
  · exact fun b hb => hlast b (hboundary ▸ hb)
  · have hu : s.clock.state = .unset := hstate.symm.trans hunset
    exact ⟨hboundary.trans (hnone hu).1, congrArg Clock.resetTime (retainedClock_unset hu),
      congrArg Clock.restartTime (retainedClock_unset hu)⟩

theorem restartUpStep_clockSound {s : State} (h : clockSound s) : clockSound (restartUpStep s) := by
  unfold restartUpStep
  split
  · rename_i hp
    obtain ⟨hstore, htime, hlast, hnone, hends⟩ := h.held (by rw [hp]; decide)
    dsimp only
    generalize hup : ({ s with
      phase := .running, clock := restartClock s.clock,
      link := { s.link with notice := some (noticeOf s.lastReset (restartClock s.clock)) },
      due := { s.due with
        restartStep := (restartClock s.clock).state = .set,
        gapRecord := (restartClock s.clock).state = .set } } : State) = up
    have sound : clockSound up := by
      subst hup
      refine clockSound_of_held nofun hstore ?_
      rw [restartClock_eq]
      refine ⟨htime, hlast, fun hunset => ?_, hends⟩
      have hu : ¬s.clock.state = .set := fun hs => absurd (hs.symm.trans hunset) nofun
      exact ⟨(hnone hunset).1, if_neg hu, if_neg hu⟩
    have hrejudge := changes_rejudge up
    exact clockSound_of_same (hrejudge.same .phase) (hrejudge.same .storeValid) (hrejudge.same .backupLow)
      (hrejudge.same .clock) (hrejudge.same .minuteEnds) sound
  · exact h

/-! ### Minute ends taken -/

/-- Fewer minute ends wait, and nothing else that soundness of the clock reads is changed. -/
theorem clockSound_of_taken {s u t : State} (hclock : u.clock = s.clock) (hphase : u.phase = s.phase)
    (hstore : u.storeValid = s.storeValid) (hbackup : u.backupLow = s.backupLow)
    (hmonitor : ∀ last, minuteEndsSound last s.due.monitorEnds → minuteEndsSound last u.due.monitorEnds)
    (hevent : ∀ last, minuteEndsSound last s.due.eventEnds → minuteEndsSound last u.due.eventEnds)
    (same : ∀ b ∈ [Block.phase, .storeValid, .backupLow, .clock, .minuteEnds], b.same u t) (h : clockSound s) :
    clockSound t := by
  have taken : clockSound u := by
    obtain ⟨hlive, hlost, hheld⟩ := h
    refine clockSound_iff.2 ?_
    rw [hclock, hphase, hstore, hbackup]
    refine ⟨hlive, hlost, fun hs => ?_⟩
    obtain ⟨htime, hlast, hnone, hm, he⟩ := hheld hs
    exact ⟨htime, hlast, hnone, hmonitor _ hm, hevent _ he⟩
  exact clockSound_of_same (same _ (by simp)) (same _ (by simp)) (same _ (by simp)) (same _ (by simp))
    (same _ (by simp)) taken

theorem monitorMinuteEndStep_clockSound {s : State} (h : clockSound s) : clockSound (monitorMinuteEndStep s) := by
  unfold monitorMinuteEndStep
  split
  · exact h
  · rename_i m rest hends
    generalize hu : ({ s with due := { s.due with monitorEnds := rest } } : State) = u
    have counted : Changes [.sample, .nodes] u (countTallies (fixSample m.time u)) :=
      (changes_fixSample m.time u).mono.trans (changes_countTallies _).mono
    have taken : Changes [.sample, .nodes, .deliveries] u
        (if m.marked then handTallies m.time (countTallies (fixSample m.time u))
          else countTallies (fixSample m.time u)) := by
      split
      · exact counted.mono.trans (changes_handTallies _ _).mono
      · exact counted.mono
    subst hu
    refine clockSound_of_taken (s := s) (u := { s with due := { s.due with monitorEnds := rest } }) rfl rfl rfl rfl
      (fun last hm => ?_) (fun _ he => he) (fun b hb => ?_) h
    · rw [hends] at hm
      exact minuteEndsSound_tail hm
    · simp only [List.mem_cons, List.not_mem_nil, or_false] at hb
      obtain rfl | rfl | rfl | rfl | rfl := hb
      all_goals exact taken.same _

theorem eventMinuteEndStep_clockSound {s : State} (h : clockSound s) : clockSound (eventMinuteEndStep s) := by
  unfold eventMinuteEndStep
  split
  · exact h
  · rename_i m rest hends
    have taken := changes_takeEventMinute m.time { s with due := { s.due with eventEnds := rest } }
    refine clockSound_of_taken (s := s) (u := { s with due := { s.due with eventEnds := rest } }) rfl rfl rfl rfl
      (fun _ hm => hm) (fun last he => ?_) (fun b hb => ?_) h
    · rw [hends] at he
      exact minuteEndsSound_tail he
    · simp only [List.mem_cons, List.not_mem_nil, or_false] at hb
      obtain rfl | rfl | rfl | rfl | rfl := hb
      all_goals exact taken.same _

theorem commandStep_clockSound (c : Instr) {s : State} (h : clockSound s) : clockSound (commandStep c s) := by
  have request {owner : State → State × Reply} (ho : ∀ u, clockSound u → clockSound (owner u).1) :
      clockSound (serve c owner s) := serve_keeps (p := clockSound) (fun _ _ h => h) h ho
  have stopped (kind : ResetKind) (hp : s.phase ≠ .mainLost) : clockSound (retainedReset kind (stopClock s)) := by
    obtain ⟨hstore, hheld⟩ := h.held hp
    exact retainedReset_clockSound kind (((changes_stopClock s).same .storeValid).trans hstore)
      (clockHeld_stopClock hheld)
  cases c
  case setTime => exact request fun _ => setTimeStep_clockSound _
  case timeTrim => exact request fun _ => timeTrimStep_clockSound _
  case secondTick => exact secondTickStep_clockSound h
  case monitorMinuteEnd => exact whenRunning_keeps h monitorMinuteEndStep_clockSound
  case eventMinuteEnd => exact whenRunning_keeps h eventMinuteEndStep_clockSound
  case firstPower => exact coldReset_clockSound s
  case mainPowerLoss => exact mainPowerLossStep_clockSound h
  case backupBelowRetention => exact backupBelowRetentionStep_clockSound h
  case restartUp => exact restartUpStep_clockSound h
  case mainPowerReturn =>
    change clockSound (mainPowerReturnStep s)
    obtain hr | hr | ⟨-, hv, hr⟩ := mainPowerReturnStep_cases s <;> rw [hr]
    · exact h
    · exact coldReset_clockSound s
    · exact retainedReset_clockSound _ hv (h.2.2 hv)
  case resetPin =>
    change clockSound (resetPinStep s)
    obtain hr | ⟨hp, hr⟩ := resetPinStep_cases s <;> rw [hr]
    · exact h
    · exact stopped _ hp
  case outboundFrameDone =>
    change clockSound (whenRunning outboundFrameDoneStep s)
    by_cases hp : s.phase = .running
    · rw [whenRunning_of_running hp]
      obtain hr | hr := outboundFrameDoneStep_cases s <;> rw [hr]
      · have chosen := changes_chooseFrame s
        exact clockSound_of_same (chosen.same .phase) (chosen.same .storeValid) (chosen.same .backupLow)
          (chosen.same .clock) (chosen.same .minuteEnds) h
      · exact stopped _ (by rw [hp]; decide)
    · rw [whenRunning_of_stopped hp]
      exact h
  all_goals
    refine clockSound_of_same ?_ ?_ ?_ ?_ ?_ h
    all_goals exact (commandStep_changes _ s).same _

/-! ### Node records (R108, R118) -/

/-- A node's record within its table: a restore timer runs only in RESTORING. -/
def nodeSound (r : NodeRec) : Prop :=
  thresholdsSound r.thresholds ∧ r.tally ≤ 15 ∧ ∀ k ∈ r.restoreTimer, r.state = .restoring ∧ 1 ≤ k ∧ k ≤ 3600

def nodesSound (s : State) : Prop := ∀ r ∈ s.nodes.toList, nodeSound r

theorem mem_vecMap {α β : Type} {n : Nat} {f : α → β} {v : Vector α n} {x : β} (h : x ∈ (vecMap f v).toList) :
    ∃ y ∈ v.toList, x = f y := by
  obtain ⟨y, hy, rfl⟩ := List.mem_map.1 (show x ∈ v.toList.map f from h)
  exact ⟨y, hy, rfl⟩

theorem vecGet_mem {α : Type} {n : Nat} (v : Vector α n) (i : Nat) (d : α) :
    vecGet v i d ∈ v.toList ∨ vecGet v i d = d := by
  by_cases h : i < n
  · rw [vecGet_of_lt v i d h]
    exact .inl (Vector.mem_toList_iff.2 (Vector.getElem_mem h))
  · exact .inr (vecGet_of_ge v i d (Nat.not_lt.1 h))

theorem resetNode_sound {t : Thresholds} (h : thresholdsSound t) : nodeSound (resetNode t) :=
  ⟨h, Nat.zero_le _, fun _ hk => absurd hk nofun⟩

theorem nodeOf_sound {s : State} (h : nodesSound s) (n : Nat) : nodeSound (nodeOf s n) := by
  obtain hn | hn := vecGet_mem s.nodes (n - 1) (resetNode defaultThresholds)
  · exact h _ hn
  · rw [nodeOf, hn]
    exact resetNode_sound (by decide)

theorem modifyNode_nodesSound {n : Nat} {f : NodeRec → NodeRec} {s : State} (hf : ∀ r, nodeSound r → nodeSound (f r))
    (h : nodesSound s) : nodesSound (modifyNode n f s) := fun r hr => by
  obtain hr | ⟨y, hy, rfl⟩ := mem_vecModify hr
  · exact h r hr
  · exact hf y (h y hy)

theorem nodesSound_of_same {s t : State} (ht : t.nodes = s.nodes) (h : nodesSound s) : nodesSound t := by
  unfold nodesSound
  rw [ht]
  exact h

theorem setNodeState_nodesSound {n : Nat} {state : NodeState} {timer : Option Nat} {s : State}
    (fits : entryFits s n state timer) (h : nodesSound s) : nodesSound (setNodeState n state timer s) := by
  have hold : (nodeOf s n).thresholds.restoreHold ≤ 3600 := (nodeOf_sound h n).1.2.2.2.1
  refine nodesSound_of_same ((changes_giveNodeConditions _ _).same .nodes) (modifyNode_nodesSound (fun r hr => ?_) h)
  obtain ⟨hthresholds, htally, -⟩ := hr
  refine ⟨hthresholds, htally, fun k hk => ?_⟩
  obtain ⟨hstate, hlow, hhigh⟩ := fits k hk
  exact ⟨hstate, hlow, hhigh.trans hold⟩

theorem reevaluate_nodesSound (n : Nat) {s : State} (h : nodesSound s) : nodesSound (reevaluate n s) :=
  reevaluate_keeps (fun _ _ => setNodeState_nodesSound) h

theorem probeAnswer_nodesSound (n probe : Nat) {s : State} (h : nodesSound s) : nodesSound (probeAnswer n probe s) :=
  probeAnswer_keeps (fun h => h) (fun _ _ _ => setNodeState_nodesSound) h

/-- The owner's condition fields of a node's record are no matter of its soundness. -/
theorem loseTransponder_nodesSound (n : Nat) {s : State} (h : nodesSound s) : nodesSound (loseTransponder n s) :=
  modifyNode_nodesSound (fun _ hr => hr) h

theorem judgePower_nodesSound (n : Nat) {s : State} (h : nodesSound s) : nodesSound (judgePower n s) :=
  modifyNode_nodesSound (fun _ hr => hr) h

theorem takeReading_nodesSound (n : Nat) (reading : Reading) {s : State} (h : nodesSound s) :
    nodesSound (takeReading n reading s) :=
  modifyNode_nodesSound (fun _ hr => hr)
    (judgePower_nodesSound n (modifyNode_nodesSound (fun _ hr => hr) h))

theorem landReply_nodesSound (a : Nat) (probe : Bool) (result : WindowResult) {s : State} (h : nodesSound s) :
    nodesSound (landReply a probe result s) :=
  landReply_keeps
    (fun _ _ => landTap_keeps (fun _ _ h => h) (fun _ => reevaluate_nodesSound _)
      (fun ports u => nodesSound_of_same ((changes_reconcile _ ports u).same .nodes))
      (fun _ => probeAnswer_nodesSound _ _))
    (fun n _ => landTransponder_keeps (fun _ _ h => h) (fun x _ => takeReading_nodesSound n x)
      (fun _ => probeAnswer_nodesSound _ _))
    h

theorem slotOpenStep_nodesSound {s : State} (h : nodesSound s) : nodesSound (slotOpenStep s) :=
  slotOpenStep_keeps (fun _ _ h => h) (fun _ _ h => h)
    (fun _ => pollOffer_keeps (fun _ _ h => h)
      (fun _ => passEnd_keeps (fun h => h) (fun n _ _ => loseTransponder_nodesSound n)))
    (fun _ _ _ h => h) h

theorem replyWindowCloseStep_nodesSound (energy : Bool) (message : Option (List Byte)) {s : State} (h : nodesSound s) :
    nodesSound (replyWindowCloseStep energy message s) :=
  replyWindowCloseStep_keeps (fun _ _ h => h) (fun _ _ h => h) (fun _ _ _ h => landReply_nodesSound _ _ _ h)
    (fun a result u => nodesSound_of_same ((changes_judgeDelivery a result u).same .nodes)) h

theorem tickNode_sound {r : NodeRec} (h : nodeSound r) : nodeSound (tickNode r) := by
  obtain ⟨hthresholds, htally, htimer⟩ := h
  unfold tickNode
  split
  · rename_i k hstate hk
    refine ⟨hthresholds, htally, fun j hj => ?_⟩
    dsimp only at hj
    split at hj
    · cases hj
    · cases hj
      obtain ⟨-, -, hhigh⟩ := htimer k hk
      exact ⟨hstate, by omega, by omega⟩
  · exact ⟨hthresholds, htally, htimer⟩

theorem secondTickStep_nodesSound {s : State} (h : nodesSound s) : nodesSound (secondTickStep s) := by
  have ticked {u : State} (hu : u.nodes = s.nodes) : nodesSound (secondTick u) := fun r hr => by
    obtain ⟨y, hy, rfl⟩ := mem_vecMap hr
    exact tickNode_sound (h y (hu ▸ hy))
  unfold secondTickStep
  split
  · unfold runningSecond
    dsimp only
    split
    · exact ticked rfl
    · exact ticked ((changes_reach _ _).same .nodes)
  · split
    · exact h
    · exact h

theorem countTallies_nodesSound {s : State} (h : nodesSound s) : nodesSound (countTallies s) := by
  refine foldl_keeps (fun n _ u hu => modifyNode_nodesSound (fun r hr => ?_) hu) h
  obtain ⟨hthresholds, -, htimer⟩ := hr
  exact ⟨hthresholds, Nat.min_le_left _ _, htimer⟩

theorem monitorMinuteEndStep_nodesSound {s : State} (h : nodesSound s) : nodesSound (monitorMinuteEndStep s) := by
  unfold monitorMinuteEndStep
  split
  · exact h
  · rename_i m rest _
    have counted : nodesSound (countTallies (fixSample m.time { s with due := { s.due with monitorEnds := rest } })) :=
      countTallies_nodesSound (show nodesSound s from h)
    dsimp only
    split
    · intro r hr
      obtain ⟨y, hy, rfl⟩ := mem_vecMap hr
      obtain ⟨hthresholds, -, htimer⟩ := counted y hy
      exact ⟨hthresholds, Nat.zero_le _, htimer⟩
    · exact counted

theorem clampThresholds_sound (t : Thresholds) : thresholdsSound (clampThresholds t) := by
  unfold thresholdsSound clampThresholds clampNat
  dsimp only
  omega

theorem nodeConfigStep_nodesSound (n : Nat) (given : Thresholds) {s : State} (h : nodesSound s) :
    nodesSound (nodeConfigStep n given s).1 := by
  unfold nodeConfigStep
  split
  · exact h
  · exact judgePower_nodesSound n (reevaluate_nodesSound n (modifyNode_nodesSound (fun r hr => by
      obtain ⟨-, htally, htimer⟩ := hr
      exact ⟨clampThresholds_sound given, htally, htimer⟩) h))

theorem tapRemoveStep_nodesSound (a : Nat) {s : State} (h : nodesSound s) : nodesSound (tapRemoveStep a s).1 := by
  unfold tapRemoveStep
  split
  · exact h
  · split
    · exact h
    · split
      · exact h
      · have moved (t : TapRec) (u : State) (hu : nodesSound u) : nodesSound (setTapState t .removing u) :=
          setTapState_keeps (fun h => h) (fun _ => reevaluate_nodesSound _) hu
        exact moved _ _ h

theorem coldReset_nodesSound (s : State) : nodesSound (coldReset s) := fun r hr => by
  rw [mem_replicate_toList hr]
  exact resetNode_sound (by decide)

theorem retainedReset_nodesSound (kind : ResetKind) {s : State} (h : nodesSound s) :
    nodesSound (retainedReset kind s) := fun r hr => by
  obtain ⟨y, hy, rfl⟩ := mem_vecMap hr
  exact resetNode_sound (h y hy).1

theorem commandStep_nodesSound (c : Instr) {s : State} (h : nodesSound s) : nodesSound (commandStep c s) := by
  have request {owner : State → State × Reply} (ho : ∀ u, nodesSound u → nodesSound (owner u).1) :
      nodesSound (serve c owner s) := serve_keeps (p := nodesSound) (fun _ _ h => h) h ho
  cases c
  case nodeConfig => exact request fun _ => nodeConfigStep_nodesSound _ _
  case tapRemove => exact request fun _ => tapRemoveStep_nodesSound _
  case secondTick => exact secondTickStep_nodesSound h
  case monitorMinuteEnd => exact whenRunning_keeps h monitorMinuteEndStep_nodesSound
  case restoreHoldExpiry n =>
    refine whenRunning_keeps h fun h => ?_
    unfold restoreHoldExpiryStep
    split
    · exact setNodeState_nodesSound (entryFits_none _ _ _) h
    · exact h
  case slotOpen => exact whenRunning_keeps h slotOpenStep_nodesSound
  case replyWindowClose => exact whenRunning_keeps h (replyWindowCloseStep_nodesSound _ _)
  case firstPower => exact coldReset_nodesSound s
  case mainPowerReturn =>
    change nodesSound (mainPowerReturnStep s)
    obtain hr | hr | ⟨-, -, hr⟩ := mainPowerReturnStep_cases s <;> rw [hr]
    · exact h
    · exact coldReset_nodesSound s
    · exact retainedReset_nodesSound _ h
  case resetPin =>
    change nodesSound (resetPinStep s)
    obtain hr | ⟨-, hr⟩ := resetPinStep_cases s <;> rw [hr]
    · exact h
    · exact retainedReset_nodesSound _ (nodesSound_of_same ((changes_stopClock s).same .nodes) h)
  case outboundFrameDone =>
    refine whenRunning_keeps h fun h => ?_
    obtain hr | hr := outboundFrameDoneStep_cases s <;> rw [hr]
    · exact nodesSound_of_same ((changes_chooseFrame s).same .nodes) h
    · exact retainedReset_nodesSound _ (nodesSound_of_same ((changes_stopClock s).same .nodes) h)
  all_goals exact nodesSound_of_same ((commandStep_changes _ s).same .nodes) h

/-! ### Source inputs (R123) -/

/-- An input's record: a partial second has no steady count. -/
def inputSound (r : InputRec) : Prop := r.steady ≤ 3 ∧ (r.partialMark = true → r.steady = 0)

def inputsSound (s : State) : Prop := ∀ r ∈ s.inputs.toList, inputSound r

theorem inputsSound_of_same {s t : State} (ht : t.inputs = s.inputs) (h : inputsSound s) : inputsSound t := by
  unfold inputsSound
  rw [ht]
  exact h

theorem modifyInput_inputsSound {i : Nat} {f : InputRec → InputRec} {s : State}
    (hf : ∀ r, inputSound r → inputSound (f r)) (h : inputsSound s) : inputsSound (modifyInput i f s) := fun r hr => by
  obtain hr | ⟨y, hy, rfl⟩ := mem_vecModify hr
  · exact h r hr
  · exact hf y (h y hy)

theorem resetInput_sound (high : Bool) : inputSound (resetInput high) := ⟨Nat.zero_le _, fun _ => rfl⟩

theorem vecMap_inputsSound {f : InputRec → InputRec} {s t : State} (ht : t.inputs = vecMap f s.inputs)
    (hf : ∀ r ∈ s.inputs.toList, inputSound (f r)) : inputsSound t := fun r hr => by
  rw [ht] at hr
  obtain ⟨y, hy, rfl⟩ := mem_vecMap hr
  exact hf y hy

theorem tickInput_sound {r : InputRec} (h : inputSound r) : inputSound (tickInput r) := by
  obtain ⟨hsteady, hpartial⟩ := h
  unfold tickInput
  split_ifs with hmark htwo
  · exact ⟨hsteady, fun hm => absurd hm nofun⟩
  · exact ⟨le_rfl, fun hm => absurd hm hmark⟩
  · exact ⟨Nat.min_le_left _ _, fun hm => absurd hm hmark⟩

theorem levelChange_sound (high : Bool) {r : InputRec} (h : inputSound r) : inputSound (levelChange high r) := by
  unfold levelChange
  split
  · exact h
  · exact ⟨Nat.zero_le _, fun _ => rfl⟩

theorem judgeSourceLost_inputsSound (i : Nat) {s : State} (h : inputsSound s) : inputsSound (judgeSourceLost i s) :=
  modifyInput_inputsSound (fun _ hr => hr) h

theorem secondTickStep_inputsSound {s : State} (h : inputsSound s) : inputsSound (secondTickStep s) := by
  have ticked {u : State} (hu : u.inputs = s.inputs) : inputsSound (secondTick u) :=
    vecMap_inputsSound (s := u) rfl fun r hr => tickInput_sound (h r (hu ▸ hr))
  unfold secondTickStep
  split
  · unfold runningSecond
    dsimp only
    split
    · exact ticked rfl
    · exact ticked ((changes_reach _ _).same .inputs)
  · split
    · exact h
    · exact h

theorem switchoverTakeStep_inputsSound {s : State} (h : inputsSound s) : inputsSound (switchoverTakeStep s) := by
  unfold switchoverTakeStep
  split
  · exact h
  · dsimp only
    split
    · refine foldl_keeps (fun i _ _ => judgeSourceLost_inputsSound i) ?_
      refine inputsSound_of_same ((changes_switchoverTaps _ _).same .inputs) ?_
      exact inputsSound_of_same ((changes_convertReservation _ _ _).same .inputs) h
    · exact h

theorem commandStep_inputsSound (c : Instr) {s : State} (h : inputsSound s) : inputsSound (commandStep c s) := by
  have reset {t : State} (ht : t.inputs = vecMap (fun r => resetInput r.high) s.inputs) : inputsSound t :=
    vecMap_inputsSound ht fun r _ => resetInput_sound r.high
  have stopped (kind : ResetKind) : inputsSound (retainedReset kind (stopClock s)) :=
    reset (congrArg (vecMap fun r : InputRec => resetInput r.high) ((changes_stopClock s).same .inputs))
  cases c
  case secondTick => exact secondTickStep_inputsSound h
  case sourceLevelChange i high =>
    change inputsSound (sourceLevelChangeStep i high s)
    unfold sourceLevelChangeStep
    split
    · exact modifyInput_inputsSound (fun _ => levelChange_sound high) h
    · exact modifyInput_inputsSound (fun _ hr => hr) h
  case sourceDebounceVerdict i =>
    refine whenRunning_keeps h fun h => ?_
    unfold sourceDebounceVerdictStep
    split
    · exact h
    · exact judgeSourceLost_inputsSound i (modifyInput_inputsSound (fun _ hr => hr) h)
  case switchoverTake => exact whenRunning_keeps h switchoverTakeStep_inputsSound
  case firstPower => exact reset rfl
  case mainPowerReturn =>
    change inputsSound (mainPowerReturnStep s)
    obtain hr | hr | ⟨-, -, hr⟩ := mainPowerReturnStep_cases s <;> rw [hr]
    · exact h
    · exact reset rfl
    · exact reset rfl
  case resetPin =>
    change inputsSound (resetPinStep s)
    obtain hr | ⟨-, hr⟩ := resetPinStep_cases s <;> rw [hr]
    · exact h
    · exact stopped _
  case outboundFrameDone =>
    refine whenRunning_keeps h fun h => ?_
    obtain hr | hr := outboundFrameDoneStep_cases s <;> rw [hr]
    · exact inputsSound_of_same ((changes_chooseFrame s).same .inputs) h
    · exact stopped _
  all_goals exact inputsSound_of_same ((commandStep_changes _ s).same .inputs) h

/-! ### The minute sample (R117) -/

/-- The sample names nodes and inputs of the part, each once. -/
def sampleSound (s : State) : Prop :=
  rising s.sample.nodes ∧ (∀ n ∈ s.sample.nodes, 1 ≤ n ∧ n ≤ 32) ∧
    rising s.sample.inputs ∧ ∀ i ∈ s.sample.inputs, 1 ≤ i ∧ i ≤ 64

theorem sampleSound_of_same {s t : State} (ht : t.sample = s.sample) (h : sampleSound s) : sampleSound t := by
  unfold sampleSound
  rw [ht]
  exact h

/-- The numbers 1..n of a kind, in their order. -/
theorem filter_upTo (n : Nat) (q : Nat → Bool) :
    rising ((upTo n).filter q) ∧ ∀ k ∈ (upTo n).filter q, 1 ≤ k ∧ k ≤ n := by
  refine ⟨List.Pairwise.filter q ?_, fun k hk => mem_upTo.1 (List.mem_of_mem_filter hk)⟩
  rw [upTo_eq_range']
  exact List.pairwise_lt_range'

theorem fixSample_sampleSound (t : Nat) {s : State} (h : sampleSound s) : sampleSound (fixSample t s) := by
  unfold sampleSound fixSample
  dsimp only
  split
  · have nodes : rising (outageNodes s) ∧ ∀ n ∈ outageNodes s, 1 ≤ n ∧ n ≤ 32 := filter_upTo 32 _
    have inputs : rising (lostInputs s) ∧ ∀ i ∈ lostInputs s, 1 ≤ i ∧ i ≤ 64 := filter_upTo 64 _
    exact ⟨nodes.1, nodes.2, inputs⟩
  · exact h

theorem monitorMinuteEndStep_sampleSound {s : State} (h : sampleSound s) : sampleSound (monitorMinuteEndStep s) := by
  unfold monitorMinuteEndStep
  split
  · exact h
  · rename_i m rest _
    have counted : sampleSound (countTallies (fixSample m.time { s with due := { s.due with monitorEnds := rest } })) :=
      sampleSound_of_same ((changes_countTallies _).same .sample) (fixSample_sampleSound _ (show sampleSound s from h))
    dsimp only
    split
    · exact counted
    · exact counted

theorem eventMinuteEndStep_sampleSound {s : State} (h : sampleSound s) : sampleSound (eventMinuteEndStep s) := by
  unfold eventMinuteEndStep
  split
  · exact h
  · rename_i m rest _
    have settled (u : State) (ids : List Nat) : Changes eventBlocks u (ids.foldl (fun v id => eventAtMinute m.time id v) u) :=
      .foldl (fun u id => changes_eventAtMinute m.time id u) ids u
    exact sampleSound_of_same ((settled _ _).same .sample) (fixSample_sampleSound _ (show sampleSound s from h))

theorem resetSample_sound {s : State} (h : s.sample = resetSample) : sampleSound s := by
  unfold sampleSound
  rw [h]
  exact ⟨.nil, List.forall_mem_nil _, .nil, List.forall_mem_nil _⟩

theorem commandStep_sampleSound (c : Instr) {s : State} (h : sampleSound s) : sampleSound (commandStep c s) := by
  cases c
  case monitorMinuteEnd => exact whenRunning_keeps h monitorMinuteEndStep_sampleSound
  case eventMinuteEnd => exact whenRunning_keeps h eventMinuteEndStep_sampleSound
  case firstPower => exact resetSample_sound rfl
  case mainPowerReturn =>
    change sampleSound (mainPowerReturnStep s)
    obtain hr | hr | ⟨-, -, hr⟩ := mainPowerReturnStep_cases s <;> rw [hr]
    · exact h
    · exact resetSample_sound rfl
    · exact resetSample_sound rfl
  case resetPin =>
    change sampleSound (resetPinStep s)
    obtain hr | ⟨-, hr⟩ := resetPinStep_cases s <;> rw [hr]
    · exact h
    · exact resetSample_sound rfl
  case outboundFrameDone =>
    refine whenRunning_keeps h fun h => ?_
    obtain hr | hr := outboundFrameDoneStep_cases s <;> rw [hr]
    · exact sampleSound_of_same ((changes_chooseFrame s).same .sample) h
    · exact resetSample_sound rfl
  all_goals exact sampleSound_of_same ((commandStep_changes _ s).same .sample) h

theorem monitorSound_iff {s : State} : monitorSound s ↔ nodesSound s ∧ inputsSound s ∧ sampleSound s := Iff.rfl

/-- Settles O55: the clock by its steps, the monitor by its three tables. -/
theorem clockAndMonitorStaySound : Obligations.ClockAndMonitorStaySound := by
  intro s t h
  refine ⟨step_keeps (p := clockSound) (fun _ _ h => h) (fun c _ _ => commandStep_clockSound c) h, fun hs => ?_⟩
  obtain ⟨hnodes, hinputs, hsample⟩ := monitorSound_iff.1 hs
  exact monitorSound_iff.2
    ⟨step_keeps (p := nodesSound) (fun _ _ h => h) (fun c _ _ => commandStep_nodesSound c) h hnodes,
      step_keeps (p := inputsSound) (fun _ _ h => h) (fun c _ _ => commandStep_inputsSound c) h hinputs,
      step_keeps (p := sampleSound) (fun _ _ h => h) (fun c _ _ => commandStep_sampleSound c) h hsample⟩

end Sys2Proof.Machine
end

section
/-! SUPPORT. What the directory and the bindings read of the units and the accounts, and the operations that leave it. -/

namespace Sys2Proof.Machine

/-! ### Agreement of units and accounts -/

/-- Two records of a tap agree in all that the directory and the bindings read of it. -/
def tapAgrees (r q : TapRec) : Prop :=
  q.address = r.address ∧ q.node = r.node ∧ q.ports = r.ports ∧ (q.state = .removing ↔ r.state = .removing) ∧
    (r.miss ≤ 15 → q.miss ≤ 15)

theorem tapAgrees_refl (r : TapRec) : tapAgrees r r := ⟨rfl, rfl, rfl, Iff.rfl, id⟩

theorem tapAgrees_trans {r q x : TapRec} (h : tapAgrees r q) (k : tapAgrees q x) : tapAgrees r x := by
  obtain ⟨ha, hn, hp, hs, hm⟩ := h
  obtain ⟨ka, kn, kp, ks, km⟩ := k
  exact ⟨ka.trans ha, kn.trans hn, kp.trans hp, ks.trans hs, fun h => km (hm h)⟩

/-- What the directory reads of a transponder's record. -/
def unitKey (r : TransponderRec) : Option Nat × Bool := (r.address, r.state = .removing)

/-- What the bindings read of an account. -/
def bindingKey (a : Account) : Nat × Nat × Nat := (a.number, a.address, a.port)

/-- From `s` to `t` the units, the next-pass list and the bindings of accounts stand. -/
def SameUnits (s t : State) : Prop :=
  List.Forall₂ tapAgrees s.taps t.taps ∧ vecMap unitKey t.transponders = vecMap unitKey s.transponders ∧
    t.sched.next = s.sched.next ∧ t.accounts.map bindingKey = s.accounts.map bindingKey

theorem forall₂_refl {α : Type} {r : α → α → Prop} (hr : ∀ x, r x x) (xs : List α) : List.Forall₂ r xs xs :=
  List.forall₂_same.2 fun x _ => hr x

theorem SameUnits.refl (s : State) : SameUnits s s := ⟨forall₂_refl tapAgrees_refl _, rfl, rfl, rfl⟩

theorem forall₂_trans {α : Type} {r : α → α → Prop} (hr : ∀ x y z, r x y → r y z → r x z) {xs ys zs : List α}
    (h : List.Forall₂ r xs ys) (k : List.Forall₂ r ys zs) : List.Forall₂ r xs zs := by
  induction h generalizing zs with
  | nil => exact k
  | cons hxy _ ih =>
    obtain _ | ⟨hyz, hrest⟩ := k
    exact .cons (hr _ _ _ hxy hyz) (ih hrest)

theorem SameUnits.trans {s t u : State} (h : SameUnits s t) (k : SameUnits t u) : SameUnits s u := by
  obtain ⟨htaps, htrans, hnext, haccounts⟩ := h
  obtain ⟨ktaps, ktrans, knext, kaccounts⟩ := k
  exact ⟨forall₂_trans (r := tapAgrees) (fun _ _ _ => tapAgrees_trans) htaps ktaps, ktrans.trans htrans, knext.trans hnext, kaccounts.trans haccounts⟩

theorem SameUnits.of_same {s t : State} (htaps : t.taps = s.taps) (htrans : t.transponders = s.transponders)
    (hsched : t.sched = s.sched) (haccounts : t.accounts = s.accounts) : SameUnits s t := by
  unfold SameUnits
  rw [htaps, htrans, hsched, haccounts]
  exact SameUnits.refl s

/-- A change of the taps alone. -/
theorem SameUnits.of_taps {s : State} {taps : List TapRec} (h : List.Forall₂ tapAgrees s.taps taps) {t : State}
    (ht : t.taps = taps) (htrans : t.transponders = s.transponders) (hsched : t.sched = s.sched)
    (haccounts : t.accounts = s.accounts) : SameUnits s t := by
  unfold SameUnits
  rw [ht, htrans, hsched, haccounts]
  exact ⟨h, rfl, rfl, rfl⟩

theorem agrees_map {taps : List TapRec} {f : TapRec → TapRec} (hf : ∀ r ∈ taps, tapAgrees r (f r)) :
    List.Forall₂ tapAgrees taps (taps.map f) :=
  List.forall₂_map_right_iff.2 (List.forall₂_same.2 hf)

theorem agrees_modifyTap {taps : List TapRec} {a : Nat} {f : TapRec → TapRec}
    (hf : ∀ r ∈ taps, r.address = a → tapAgrees r (f r)) : List.Forall₂ tapAgrees taps (modifyTap a f taps) :=
  agrees_map fun r hr => by
    split
    · exact hf r hr ‹_›
    · exact tapAgrees_refl r

theorem agrees_of_plain {xs ys : List TapRec} (h : ys.map plainTap = xs.map plainTap) :
    List.Forall₂ tapAgrees xs ys := by
  have heq : List.Forall₂ (fun x y => plainTap x = plainTap y) xs ys :=
    List.forall₂_map_left_iff.1 (List.forall₂_map_right_iff.1 (List.forall₂_eq_eq_eq ▸ h.symm))
  refine heq.imp fun x y hxy => ?_
  have haddress := congrArg TapRec.address hxy
  have hnode := congrArg TapRec.node hxy
  have hports := congrArg TapRec.ports hxy
  have hstate := congrArg TapRec.state hxy
  have hmiss := congrArg TapRec.miss hxy
  dsimp only [plainTap] at haddress hnode hports hstate hmiss
  exact ⟨haddress.symm, hnode.symm, hports.symm, by rw [hstate], fun h => hmiss ▸ h⟩

theorem addresses_of_agrees {xs ys : List TapRec} (h : List.Forall₂ tapAgrees xs ys) :
    ys.map (·.address) = xs.map (·.address) := by
  induction h with
  | nil => rfl
  | cons hxy _ ih => rw [List.map_cons, List.map_cons, ih, hxy.1]

/-! ### The Switching Engine's operations -/

theorem SameUnits.of_plain {s t : State} (h : t.taps.map plainTap = s.taps.map plainTap)
    (hrest : Changes (.alarms :: tapBlocks) s t) : SameUnits s t :=
  .of_taps (agrees_of_plain h) rfl (hrest.same .transponders) (hrest.same .sched) (hrest.same .accounts)

theorem SameUnits.modifyTap {s : State} {a : Nat} {f : TapRec → TapRec}
    (hf : ∀ r ∈ s.taps, r.address = a → tapAgrees r (f r)) : SameUnits s { s with taps := modifyTap a f s.taps } :=
  .of_taps (agrees_modifyTap hf) rfl rfl rfl rfl

theorem sameUnits_modifySwitch (a : Nat) (f : SwitchRec → SwitchRec) (s : State) : SameUnits s (modifySwitch a f s) :=
  .modifyTap fun _ _ _ => ⟨rfl, rfl, rfl, Iff.rfl, id⟩

theorem sameUnits_recompute (a : Nat) (s : State) : SameUnits s (recompute a s) :=
  .of_plain (recompute_plain a s) (changes_recompute a s).mono

theorem sameUnits_evaluateStale (a : Nat) (s : State) : SameUnits s (evaluateStale a s) := by
  unfold evaluateStale
  split
  · exact .refl s
  · split
    · exact .refl s
    · refine .trans (SameUnits.modifyTap (a := a) (f := fun r => { r with stale := isStale s r }) ?_)
        (sameUnits_recompute _ _)
      exact fun _ _ _ => ⟨rfl, rfl, rfl, Iff.rfl, id⟩

theorem modifyTap_plain (a : Nat) (taps : List TapRec) {f : TapRec → TapRec} (hf : ∀ t, plainTap (f t) = plainTap t) :
    (modifyTap a f taps).map plainTap = taps.map plainTap := by
  rw [Machine.modifyTap, List.map_map]
  refine List.map_congr_left fun t _ => ?_
  rw [Function.comp_apply, apply_ite plainTap, hf, ite_self]

theorem compareStatus_plain (a : Nat) (ports : TapSetting) (s : State) :
    (compareStatus a ports s).taps.map plainTap = s.taps.map plainTap := by
  unfold compareStatus
  split
  · rfl
  · split
    · exact modifyTap_plain _ _ fun _ => rfl
    · exact modifyTap_plain _ _ fun _ => rfl

theorem sameUnits_reconcile (a : Nat) (ports : TapSetting) (s : State) : SameUnits s (reconcile a ports s) :=
  (sameUnits_evaluateStale a s).trans (.of_plain (compareStatus_plain a ports _) (changes_compareStatus a ports _))

theorem judgeDelivery_plain (a : Nat) (result : WindowResult) (s : State) :
    (judgeDelivery a result s).taps.map plainTap = s.taps.map plainTap := by
  unfold judgeDelivery
  split
  · rfl
  · split
    · exact modifyTap_plain _ _ fun _ => rfl
    · unfold deliveryFailed
      dsimp only
      split
      · split
        · refine (modifyTap_plain _ _ ?_).trans (modifyTap_plain _ _ ?_)
          · exact fun _ => rfl
          · exact fun _ => rfl
        · refine (modifyTap_plain _ _ ?_).trans (modifyTap_plain _ _ ?_)
          · exact fun _ => rfl
          · exact fun _ => rfl
      · exact modifyTap_plain _ _ fun _ => rfl

theorem sameUnits_judgeDelivery (a : Nat) (result : WindowResult) (s : State) :
    SameUnits s (judgeDelivery a result s) := .of_plain (judgeDelivery_plain a result s) (changes_judgeDelivery a result s)

theorem sameUnits_switchoverTap (named : List Nat) (a : Nat) (s : State) : SameUnits s (switchoverTap named a s) := by
  unfold switchoverTap
  split
  · exact .refl s
  · split_ifs
    · exact .refl s
    · exact sameUnits_evaluateStale a s
    · exact sameUnits_recompute a s
    · exact .refl s

theorem sameUnits_switchoverTaps (named : List Nat) (s : State) : SameUnits s (switchoverTaps named s) :=
  foldl_keeps (p := SameUnits s) (fun _ _ _ h => h.trans (sameUnits_switchoverTap named _ _)) (.refl s)

theorem sameUnits_withdraw (r : TapRec) (s : State) : SameUnits s (withdraw r s) :=
  .of_plain (by rw [withdraw_eq]; exact modifyTap_plain _ _ fun _ => rfl) (changes_withdraw r s)

/-! ### The Outage Monitor's and the landing's operations -/

theorem sameUnits_of_nodes {s t : State} (h : Changes nodeBlocks s t) : SameUnits s t :=
  .of_same (h.same .taps) (h.same .transponders) (h.same .sched) (h.same .accounts)

theorem sameUnits_releaseSilent (n probe : Nat) (s : State) : SameUnits s (releaseSilent n probe s) := by
  refine .of_taps (agrees_map fun r _ => ?_) rfl rfl rfl rfl
  split
  · rename_i hr
    exact ⟨rfl, rfl, rfl, by simp [hr.2.1], fun _ => Nat.zero_le _⟩
  · exact tapAgrees_refl r

theorem sameUnits_probeAnswer (n probe : Nat) (s : State) : SameUnits s (probeAnswer n probe s) :=
  probeAnswer_keeps (p := SameUnits s) (fun h => h.trans (sameUnits_releaseSilent _ _ _))
    (fun _ _ _ _ h => h.trans (sameUnits_of_nodes (changes_setNodeState _ _ _ _))) (.refl s)

/-- A landing on a tap on record, the only one with its address. -/
theorem sameUnits_landed {s : State} {t : TapRec} (hrising : rising (s.taps.map (·.address)))
    (ht : findTap t.address s.taps = some t) {f : TapRec → TapRec} (hf : tapLands t f) :
    SameUnits s { s with taps := modifyTap t.address f s.taps } := by
  refine .modifyTap fun r hr ha => ?_
  obtain rfl := eq_of_address hrising (findTap_some ht).1 hr ha
  obtain ⟨hfields, hremoving, hlive⟩ := hf
  obtain ⟨haddress, hnode, hports, -, -, hmiss⟩ := hfields r
  refine ⟨haddress, hnode, hports, ⟨fun h => ?_, fun h => (hremoving h r).trans h⟩, hmiss⟩
  by_contra hne
  exact hlive hne r h

theorem sameUnits_landTap {s : State} {t : TapRec} (hrising : rising (s.taps.map (·.address)))
    (ht : findTap t.address s.taps = some t) (probe : Bool) (result : WindowResult) :
    SameUnits s (landTap t probe result s) :=
  landTap_keeps (p := SameUnits s) (fun _ hf _ => sameUnits_landed hrising ht hf)
    (fun _ h => h.trans (sameUnits_of_nodes (changes_reevaluate _ _)))
    (fun _ _ h => h.trans (sameUnits_reconcile _ _ _)) (fun _ h => h.trans (sameUnits_probeAnswer _ _ _)) (.refl s)

/-- A change of one transponder's record that agrees in its key. -/
theorem sameUnits_modifyTransponder {n : Nat} {f : TransponderRec → TransponderRec} {s : State}
    (hf : unitKey (f (transponderOf s n)) = unitKey (transponderOf s n)) : SameUnits s (modifyTransponder n f s) := by
  refine ⟨forall₂_refl tapAgrees_refl _, ?_, rfl, rfl⟩
  refine Vector.ext fun j hj => ?_
  generalize hd : unitKey absentTransponder = d
  rw [← vecGet_of_lt _ j d hj, ← vecGet_of_lt _ j d hj, vecGet_vecMap _ _ _ absentTransponder _ hj,
    vecGet_vecMap _ _ _ absentTransponder _ hj, modifyTransponder_transponders, vecGet_vecModify]
  split
  · rename_i h
    obtain ⟨rfl, -⟩ := h
    exact hf
  · rfl

theorem sameUnits_landTransponder (n a : Nat) (probe : Bool) (result : WindowResult) (s : State) :
    SameUnits s (landTransponder n a probe result s) := by
  refine landTransponder_keeps (p := SameUnits s) (fun f hf _ => sameUnits_modifyTransponder ?_)
    (fun _ _ h => h.trans (sameUnits_of_nodes (changes_takeReading _ _ _)))
    (fun _ h => h.trans (sameUnits_probeAnswer _ _ _)) (.refl s)
  obtain ⟨haddress, hremoving, hlive⟩ := hf
  refine Prod.ext (haddress _) (decide_eq_decide.2 ⟨fun h => ?_, fun h => (hremoving h _).trans h⟩)
  by_contra hne
  exact hlive hne _ h

theorem sameUnits_landReply {s : State} (hrising : rising (s.taps.map (·.address))) (a : Nat) (probe : Bool)
    (result : WindowResult) : SameUnits s (landReply a probe result s) :=
  landReply_keeps (p := SameUnits s) (fun _ ht _ => sameUnits_landTap hrising ht _ _)
    (fun _ _ _ => sameUnits_landTransponder _ _ _ _ _) (.refl s)

end Sys2Proof.Machine
end

section
/-! SUPPORT. The operations of the Account Store, the Meter and the Event Table keep every property that changes of
accounts within their records, recomputations and the journal's and alarms' changes keep. -/

namespace Sys2Proof.Machine

/-- A change of an account's record that leaves its number and port, and leaves it sound. -/
def withinRecord (f : Account → Account) : Prop :=
  ∀ a, bindingKey (f a) = bindingKey a ∧ (accountSound a → accountSound (f a))

/-- A change of an account's money and credit alone. -/
def moneyChange (f : Account → Account) : Prop :=
  withinRecord f ∧ ∀ a, (f a).purchases = a.purchases

/-- A property that changes of money, plain writes and the judging of BALANCE_OVERFLOW keep. -/
structure KeptByMoney (p : State → Prop) : Prop where
  account : ∀ k f u, moneyChange f → p u → p (changeAccount k f u)
  write : ∀ time body u, p u → p (plainWrite time body u)
  judge : ∀ u, p u → p (judgeOverflow u)

/-- A property that balance updates, and changes of credit that leave the overflow flag, keep. -/
structure KeptByMeter (p : State → Prop) : Prop where
  balance : ∀ k amount needed u, p u → p (balanceUpdate k amount needed u)
  credit : ∀ k f u, moneyChange f → (∀ a, (f a).overflow = a.overflow) → p u → p (changeAccount k f u)
  tariff : ∀ b u, p u → p (fixBoundaryTariff b u)
  taken : ∀ tallies u, p u → p { u with due := { u.due with tallies := tallies } }

/-- A property that balance updates, the ending of purchases and recomputations keep. -/
structure KeptByEvents (p : State → Prop) : Prop where
  balance : ∀ k amount needed u, p u → p (balanceUpdate k amount needed u)
  drop : ∀ k e u, p u → p (changeAccount k (fun r => { r with purchases := r.purchases.filter (·.event != e) }) u)
  tap : ∀ a u, p u → p (recompute a u)
  convert : ∀ time body u, p u → p (convertReservation time body u)
  release : ∀ u, p u → p (releaseReservation u)
  table : ∀ u v, Changes [.events, .sample, .minuteEnds, .deliveries, .purchases, .carrier] u v → p u → p v

/-- A change of an event's record that leaves its id and its holders. -/
def eventStanding (f : EventRec → EventRec) : Prop := ∀ e, (f e).id = e.id ∧ (f e).holders = e.holders

/-- A property that the advance and the settlement of events keep. -/
structure KeptByTable (p : State → Prop) : Prop where
  taken : ∀ u v, Changes [.sample, .minuteEnds, .deliveries] u v → p u → p v
  count : ∀ id f u, eventStanding f → p u → p (changeEvent id f u)
  hand : ∀ a u, p u → p (recompute a u)
  settle : ∀ t id u, p u → p (settleAt t id u)

section
variable {p : State → Prop}

/-! ### Money -/

theorem saturate_bounds (v : Int) : -2000000000 ≤ saturate v ∧ saturate v ≤ 2000000000 := by
  unfold saturate maxBalance
  omega

theorem balance_moneyChange (v : Int) : moneyChange fun r => { r with balance := saturate v } := by
  refine ⟨fun a => ⟨rfl, fun h => ?_⟩, fun _ => rfl⟩
  obtain ⟨hnumber, hport, -, hrest⟩ := h
  exact ⟨hnumber, hport, saturate_bounds v, hrest⟩

theorem overflow_moneyChange : moneyChange fun r => { r with overflow := true } := ⟨fun _ => ⟨rfl, id⟩, fun _ => rfl⟩

theorem latch_moneyChange (f : Account → Latch) : moneyChange fun r => { r with latch := f r } :=
  ⟨fun _ => ⟨rfl, id⟩, fun _ => rfl⟩

theorem residue_moneyChange {v : Nat} (hv : v ≤ 14) : moneyChange fun r => { r with residue := v } := by
  refine ⟨fun a => ⟨rfl, fun h => ?_⟩, fun _ => rfl⟩
  obtain ⟨hnumber, hport, hbalance, -, hrest⟩ := h
  exact ⟨hnumber, hport, hbalance, hv, hrest⟩

theorem credited_moneyChange (f : Account → Nat) :
    moneyChange fun r => { r with credited := min 65535 (f r) } := by
  refine ⟨fun a => ⟨rfl, fun h => ?_⟩, fun _ => rfl⟩
  obtain ⟨hnumber, hport, hbalance, hresidue, -, hrest⟩ := h
  exact ⟨hnumber, hport, hbalance, hresidue, Nat.min_le_left _ _, hrest⟩

theorem cycle_moneyChange : moneyChange fun r => { r with balance := 0, credited := 0, overflow := false } := by
  refine ⟨fun a => ⟨rfl, fun h => ?_⟩, fun _ => rfl⟩
  obtain ⟨hnumber, hport, -, hresidue, -, hrest⟩ := h
  exact ⟨hnumber, hport, ⟨by simp, by simp⟩, hresidue, Nat.zero_le _, hrest⟩

section
variable (hp : KeptByMoney p)
include hp

theorem KeptByMoney.balanceUpdate {k : Nat} {amount : Int} {needed : Nat} {u : State} (h : p u) :
    p (balanceUpdate k amount needed u) := by
  unfold Machine.balanceUpdate
  split
  · exact h
  · rename_i a _
    have charged := hp.account k _ u (balance_moneyChange (a.balance + amount)) h
    dsimp only
    split
    · exact charged
    · refine hp.judge _ ?_
      have flagged := hp.account k _ _ overflow_moneyChange charged
      split
      · exact hp.write _ _ _ flagged
      · exact flagged

theorem KeptByMoney.cycleClose {low high : Nat} {u : State} (h : p u) : p (cycleCloseStep low high u).1 := by
  unfold cycleCloseStep
  split
  · exact h
  · dsimp only
    split
    · exact h
    · refine hp.judge _ (foldl_keeps (fun k _ v hv => ?_) h)
      unfold closeAccount
      split
      · exact hv
      · exact hp.account _ _ _ cycle_moneyChange (hp.write _ _ _ hv)


theorem KeptByMoney.meter (tariff : ∀ b u, p u → p (fixBoundaryTariff b u))
    (taken : ∀ tallies u, p u → p { u with due := { u.due with tallies := tallies } }) : KeptByMeter p where
  balance _ _ _ _ := hp.balanceUpdate
  credit _ _ _ hf _ := hp.account _ _ _ hf
  tariff := tariff
  taken := taken

end

section
variable (hp : KeptByMeter p)
include hp

theorem KeptByMeter.accrue {k tally : Nat} {u : State} (h : p u) : p (accrue k tally u) := by
  unfold Machine.accrue
  split
  · exact h
  · split
    · exact h
    · refine hp.credit _ _ _ (credited_moneyChange _) (fun _ => rfl)
        (hp.balance _ _ _ _ (hp.credit _ _ _ (residue_moneyChange ?_) (fun _ => rfl) h))
      exact Nat.le_of_lt_succ (Nat.mod_lt _ (by decide))

theorem KeptByMeter.meterTallyTake {u : State} (h : p u) : p (meterTallyTakeStep u) := by
  unfold meterTallyTakeStep
  split
  · exact h
  · unfold takeTally
    refine foldl_keeps (fun k _ v hv => ?_) (hp.tariff _ _ (hp.taken _ _ h))
    exact hp.credit _ _ _ (latch_moneyChange _) (fun _ => rfl) (hp.accrue hv)

end

/-! ### Events -/

theorem advanceOpen_standing (t : Nat) : eventStanding (advanceOpen t) := fun e => by
  unfold advanceOpen
  split <;> exact ⟨rfl, rfl⟩

theorem advanceClosed_standing (t : Nat) : eventStanding (advanceClosed t) := fun e => by
  unfold advanceClosed
  split <;> exact ⟨rfl, rfl⟩

theorem countMinute_standing (l : Lineup) (sample : MinuteSample) (t : Nat) : eventStanding (countMinute l sample t) :=
  fun e => by
    unfold countMinute
    split <;> exact ⟨rfl, rfl⟩

section
variable (hp : KeptByEvents p)
include hp

theorem KeptByEvents.dropPurchase {a : Account} {e : Nat} {u : State} (h : p u) : p (dropPurchase a e u) :=
  hp.tap _ _ (hp.drop _ _ _ h)

theorem KeptByEvents.refund {k e price : Nat} {cause : RefundCause} {u : State} (h : p u) : p (refund k e price cause u) :=
  hp.convert _ _ _ (hp.balance _ _ _ _ h)

theorem KeptByEvents.settleHolder {e : EventRec} {k : Nat} {u : State} (h : p u) : p (settleHolder e k u) := by
  unfold Machine.settleHolder
  split
  · exact h
  · split
    · exact h
    · refine hp.dropPurchase ?_
      split
      · exact hp.refund h
      · exact hp.release _ h

theorem KeptByEvents.cancelHolder {e : EventRec} {k : Nat} {u : State} (h : p u) : p (cancelHolder e k u) := by
  unfold Machine.cancelHolder
  split
  · exact h
  · split
    · exact h
    · exact hp.dropPurchase (hp.refund h)

theorem KeptByEvents.settleAt {t id : Nat} {u : State} (h : p u) : p (settleAt t id u) := by
  unfold Machine.settleAt
  split
  · exact h
  · split
    · exact hp.table _ _ (changes_freeEvent _ _).mono (foldl_keeps (fun _ _ _ hv => hp.settleHolder hv) h)
    · exact h

theorem KeptByEvents.events : KeptByTable p where
  taken _ _ hc h := hp.table _ _ hc.mono h
  count _ _ _ _ h := hp.table _ _ (changes_changeEvent _ _ _).mono h
  hand := hp.tap
  settle _ _ _ h := hp.settleAt h

theorem KeptByEvents.eventCancel {id : Nat} {u : State} (h : p u) : p (eventCancelStep id u).1 := by
  unfold eventCancelStep
  split
  · exact h
  · split
    · exact h
    · exact hp.table _ _ (changes_freeEvent _ _).mono (foldl_keeps (fun _ _ _ hv => hp.cancelHolder hv) h)

end

section
variable (hp : KeptByTable p)
include hp

theorem KeptByTable.advanceEvent {id : Nat} {f : EventRec → EventRec} (hf : eventStanding f) {u : State} (h : p u) :
    p (advanceEvent id f u) := by
  have moved : p (changeEvent id f u) := hp.count _ _ _ hf h
  unfold Machine.advanceEvent
  split
  · exact h
  · dsimp only
    split
    · exact moved
    · refine foldl_keeps (fun k _ v hv => ?_) moved
      split
      · exact hp.hand _ _ hv
      · exact hv

theorem KeptByTable.eventMinuteEnd {u : State} (h : p u) : p (eventMinuteEndStep u) := by
  unfold eventMinuteEndStep
  split
  · exact h
  · unfold takeEventMinute
    refine foldl_keeps (fun k _ v hv => ?_) (hp.taken u _ (.of_put rfl) h)
    exact hp.settle _ _ _ (hp.advanceEvent (advanceClosed_standing _) (hp.advanceEvent (advanceOpen_standing _)
      (hp.count _ _ _ (countMinute_standing _ _ _) hv)))

theorem KeptByTable.restartEvent {u : State} (h : p u) : p (restartEventStepStep u) := by
  have taken : p { u with due := { u.due with restartStep := false } } := hp.taken u _ (.of_put rfl) h
  unfold restartEventStepStep
  split
  · dsimp only
    split
    · refine foldl_keeps (fun k _ v hv => hp.settle _ _ _ (hp.count _ _ _ (fun e => ?_) hv)) taken
      exact ⟨((advanceClosed_standing _ _).1.trans (advanceOpen_standing _ _).1).trans rfl,
        ((advanceClosed_standing _ _).2.trans (advanceOpen_standing _ _).2).trans rfl⟩
    · exact taken
  · exact h

end

/-! ### Purchases -/

/-- The account's list before a purchase leaves room, and does not hold the event. -/
def mayBuy (a : Account) (e : Nat) : Prop := a.purchases.length < 2 ∧ holdsEvent a e = false

/-- Property `p` is kept by a purchase that is accepted. -/
def KeptByPurchases (p : State → Prop) : Prop :=
  ∀ a e origin counter u, findAccount a.number u.accounts = some a → findEvent e.id u.events = some e → mayBuy a e.id →
    2 ≤ journalFree u.journal → p u → p (acceptPurchase a e origin counter u)

theorem purchaseVerdict_accepts {q : PlantPurchase} {u : State} {v : Verdict} {a : Account} {e : EventRec}
    (h : purchaseVerdict q u = (v, some (a, e))) :
    (findEvent e.id u.events = some e ∧ findAccount a.number u.accounts = some a) ∧ mayBuy a e.id ∧
      2 ≤ journalFree u.journal := by
  unfold purchaseVerdict at h
  split at h
  · cases h
  · rename_i ev hev
    split at h
    · cases h
    · rename_i b hb
      split at h
      · cases h
      rename_i hheld
      split at h
      · cases h
      split at h
      · cases h
      split at h
      · cases h
      split at h
      · cases h
      rename_i hroom
      split at h
      · cases h
      rename_i hfree
      cases h
      obtain ⟨k, -, hk⟩ := Option.bind_eq_some_iff.1 hb
      obtain ⟨-, rfl⟩ := findAccount_some hk
      obtain ⟨-, hid⟩ := findEvent_some hev
      exact ⟨⟨hid.symm ▸ hev, hk⟩, ⟨Nat.not_le.1 hroom, Bool.eq_false_iff.2 hheld⟩, Nat.not_lt.1 hfree⟩

theorem purchaseDecide_keeps (hq : ∀ u v, Changes [.purchases, .carrier] u v → p u → p v) (hb : KeptByPurchases p) {u : State}
    (h : p u) : p (purchaseDecideStep u) := by
  unfold purchaseDecideStep
  split
  · exact h
  · rename_i q rest _
    have taken : p { u with due := { u.due with purchases := rest } } := hq u _ (.of_put rfl) h
    unfold decidePurchase
    split
    · exact hq _ _ (.of_put rfl) taken
    · rename_i v a e hverdict
      obtain ⟨⟨he, ha⟩, hmay, hfree⟩ := purchaseVerdict_accepts hverdict
      exact hq (acceptPurchase a e .plant (some q.counter) _) _ (.of_put rfl) (hb _ _ _ _ _ ha he hmay hfree taken)

theorem purchaseEnter_keeps (hb : KeptByPurchases p) {k e : Nat} {u : State} (h : p u) :
    p (purchaseEnterStep k e u).1 := by
  unfold purchaseEnterStep
  split
  · exact h
  split
  · exact h
  split
  · exact h
  rename_i a ha
  obtain ⟨-, rfl⟩ := findAccount_some ha
  split
  · exact h
  rename_i ev hev
  obtain ⟨-, rfl⟩ := findEvent_some hev
  split
  · exact h
  rename_i hheld
  split
  · exact h
  split
  · exact h
  split
  · exact h
  split
  · exact h
  rename_i hroom
  split
  · exact h
  rename_i hfree
  exact hb a ev .host none u ha hev ⟨Nat.not_le.1 hroom, Bool.eq_false_iff.2 hheld⟩ (Nat.not_lt.1 hfree) h

end

end Sys2Proof.Machine
end

section
/-! SUPPORT. What a sound directory says, unit by unit, and the operations on units that keep it. -/

namespace Sys2Proof.Machine

/-! ### The directory unit by unit -/

/-- An entry stands for a unit on record that is not in REMOVING. -/
def liveEntry (s : State) (e : PassEntry) : Prop :=
  match e.kind with
  | .tap => ∃ t ∈ s.taps, t.state ≠ .removing ∧ t.address = e.address ∧ t.node = e.node
  | .transponder => (1 ≤ e.node ∧ e.node ≤ 32) ∧ (transponderOf s e.node).state ≠ .removing ∧
      (transponderOf s e.node).address = some e.address

theorem transponders_getElem (s : State) {i : Nat} (h : i < s.transponders.toList.length) :
    s.transponders.toList[i] = transponderOf s (i + 1) := by
  have hi : i < 32 := by simpa using h
  rw [transponderOf, Nat.add_sub_cancel, vecGet_of_lt _ _ _ hi]
  rfl

theorem transponderOf_mem (s : State) {n : Nat} (hn : 1 ≤ n ∧ n ≤ 32) : transponderOf s n ∈ s.transponders.toList := by
  have hi : n - 1 < s.transponders.toList.length := by
    rw [Vector.length_toList]
    omega
  exact List.mem_of_getElem ((transponders_getElem s hi).trans (by rw [Nat.sub_add_cancel hn.1]))

/-- A unit in REMOVING, or without an address, has no entry. -/
def transponderEntry (x : TransponderRec × Nat) : Option PassEntry :=
  if x.1.state = .removing then none
  else x.1.address.map fun a => { kind := .transponder, address := a, node := x.2 + 1 }

theorem transponderEntry_eq_some {x : TransponderRec × Nat} {e : PassEntry} :
    transponderEntry x = some e ↔ e.kind = .transponder ∧ e.node = x.2 + 1 ∧ x.1.state ≠ .removing ∧
      x.1.address = some e.address := by
  unfold transponderEntry
  split
  · rename_i h
    exact iff_of_false nofun fun k => k.2.2.1 h
  · rename_i h
    rw [Option.map_eq_some_iff]
    constructor
    · rintro ⟨a, ha, rfl⟩
      exact ⟨rfl, rfl, h, ha⟩
    · rintro ⟨hk, hn, -, ha⟩
      obtain ⟨kind, address, node⟩ := e
      dsimp only at hk hn ha
      exact ⟨address, ha, by rw [hk, hn]⟩

theorem mem_liveEntries {s : State} {e : PassEntry} : e ∈ liveEntries s ↔ liveEntry s e := by
  have htaps : (e ∈ (s.taps.filter (·.state != .removing)).map fun t =>
      ({ kind := .tap, address := t.address, node := t.node } : PassEntry)) ↔ e.kind = .tap ∧
        ∃ t ∈ s.taps, t.state ≠ .removing ∧ t.address = e.address ∧ t.node = e.node := by
    simp only [List.mem_map, List.mem_filter, bne_iff_ne]
    constructor
    · rintro ⟨t, ⟨ht, hs⟩, rfl⟩
      exact ⟨rfl, t, ht, hs, rfl, rfl⟩
    · rintro ⟨hk, t, ht, hs, ha, hn⟩
      obtain ⟨kind, address, node⟩ := e
      exact ⟨t, ⟨ht, hs⟩, by rw [ha, hn]; dsimp only at hk; rw [hk]⟩
  have htransponders : e ∈ s.transponders.toList.zipIdx.filterMap transponderEntry ↔ e.kind = .transponder ∧
      (1 ≤ e.node ∧ e.node ≤ 32) ∧ (transponderOf s e.node).state ≠ .removing ∧
        (transponderOf s e.node).address = some e.address := by
    simp only [List.mem_filterMap, transponderEntry_eq_some]
    constructor
    · rintro ⟨⟨r, i⟩, hx, hk, hn, hs, ha⟩
      obtain ⟨hi, hr⟩ := List.mem_zipIdx' hx
      dsimp only at hi hr hn hs ha
      rw [transponders_getElem s hi] at hr
      have hi32 : i < 32 := by simpa using hi
      rw [hn, ← hr]
      exact ⟨hk, by omega, hs, ha⟩
    · rintro ⟨hk, hn, hs, ha⟩
      refine ⟨(transponderOf s e.node, e.node - 1), ?_, hk, by dsimp only; omega, hs, ha⟩
      rw [List.mk_mem_zipIdx_iff_getElem?, List.getElem?_eq_some_iff]
      have hi : e.node - 1 < s.transponders.toList.length := by
        rw [Vector.length_toList]
        omega
      exact ⟨hi, by rw [transponders_getElem s hi, Nat.sub_add_cancel hn.1]⟩
  have : liveEntries s = ((s.taps.filter (·.state != .removing)).map fun t =>
      ({ kind := .tap, address := t.address, node := t.node } : PassEntry)) ++
        s.transponders.toList.zipIdx.filterMap transponderEntry := rfl
  rw [this, List.mem_append, htaps, htransponders, liveEntry]
  cases e.kind <;> simp

theorem liveEntries_nodup {s : State} (h : rising (s.taps.map (·.address))) : (liveEntries s).Nodup := by
  have htaps : ((s.taps.filter (·.state != .removing)).map fun t =>
      ({ kind := .tap, address := t.address, node := t.node } : PassEntry)).Nodup := by
    have hkept : rising ((s.taps.filter (·.state != .removing)).map (·.address)) :=
      h.sublist (List.filter_sublist.map _)
    refine List.Nodup.of_map (·.address) ?_
    rw [List.map_map]
    exact hkept.imp fun hlt => Nat.ne_of_lt hlt
  have htransponders : (s.transponders.toList.zipIdx.filterMap transponderEntry).Nodup := by
    refine List.pairwise_filterMap.2 ?_
    have hindex : s.transponders.toList.zipIdx.Pairwise fun x y => x.2 ≠ y.2 :=
      List.pairwise_map.1 (by rw [List.zipIdx_map_snd]; exact List.nodup_range')
    refine hindex.imp fun hne e he q hq heq => ?_
    obtain ⟨-, hn, -⟩ := transponderEntry_eq_some.1 he
    obtain ⟨-, hm, -⟩ := transponderEntry_eq_some.1 hq
    rw [← heq] at hm
    omega
  refine List.nodup_append.2 ⟨htaps, htransponders, fun e he q hq => ?_⟩
  obtain ⟨t, -, rfl⟩ := List.mem_map.1 he
  obtain ⟨x, -, hx⟩ := List.mem_filterMap.1 hq
  rintro rfl
  exact absurd (transponderEntry_eq_some.1 hx).1 nofun

theorem mem_transponderAddresses {s : State} {a : Nat} :
    a ∈ transponderAddresses s ↔ ∃ n, (1 ≤ n ∧ n ≤ 32) ∧ (transponderOf s n).address = some a := by
  rw [transponderAddresses, List.mem_filterMap]
  constructor
  · rintro ⟨r, hr, ha⟩
    obtain ⟨i, hi, rfl⟩ := List.getElem_of_mem hr
    rw [transponders_getElem s hi] at ha
    have hi32 : i < 32 := by simpa using hi
    exact ⟨i + 1, by omega, ha⟩
  · rintro ⟨n, hn, ha⟩
    exact ⟨_, transponderOf_mem s hn, ha⟩

theorem transponderAddresses_nodup {s : State} : (transponderAddresses s).Nodup ↔
    ∀ n m a, (1 ≤ n ∧ n ≤ 32) → (1 ≤ m ∧ m ≤ 32) → (transponderOf s n).address = some a →
      (transponderOf s m).address = some a → n = m := by
  rw [transponderAddresses, List.Nodup, List.pairwise_filterMap, List.pairwise_iff_getElem]
  have hlength : s.transponders.toList.length = 32 := Vector.length_toList
  constructor
  · intro h n m a hn hm ha hb
    by_contra hne
    have apart {n m : Nat} (hn : 1 ≤ n ∧ n ≤ 32) (hm : 1 ≤ m ∧ m ≤ 32) (hlt : n < m)
        (ha : (transponderOf s n).address = some a) (hb : (transponderOf s m).address = some a) : False := by
      have hi : n - 1 < s.transponders.toList.length := by omega
      have hj : m - 1 < s.transponders.toList.length := by omega
      refine h (n - 1) (m - 1) hi hj (by omega) a ?_ a ?_ rfl
      · rw [transponders_getElem s hi, Nat.sub_add_cancel hn.1, ha]
      · rw [transponders_getElem s hj, Nat.sub_add_cancel hm.1, hb]
    obtain hlt | hlt := Nat.lt_or_gt_of_ne hne
    · exact apart hn hm hlt ha hb
    · exact apart hm hn hlt hb ha
  · intro h i j hi hj hlt a ha b hb
    rw [transponders_getElem s hi] at ha
    rw [transponders_getElem s hj] at hb
    rintro rfl
    have := h (i + 1) (j + 1) a (by omega) (by omega) ha hb
    omega

/-- A sound directory, unit by unit. -/
def unitsSound (s : State) : Prop :=
  (rising (s.taps.map (·.address)) ∧ s.taps.length ≤ 512) ∧
    (∀ n m a, (1 ≤ n ∧ n ≤ 32) → (1 ≤ m ∧ m ≤ 32) → (transponderOf s n).address = some a →
      (transponderOf s m).address = some a → n = m) ∧
    (∀ t ∈ s.taps, ∀ n, (1 ≤ n ∧ n ≤ 32) → (transponderOf s n).address ≠ some t.address) ∧
    (∀ t ∈ s.taps, addressInRange t.address = true ∧ (1 ≤ t.node ∧ t.node ≤ 32) ∧ t.miss ≤ 15 ∧
      (t.state = .removing → ∀ p ∈ t.ports.toList, p = none)) ∧
    (∀ n, (1 ≤ n ∧ n ≤ 32) → ∀ a ∈ (transponderOf s n).address, addressInRange a = true) ∧
    s.sched.next.Nodup ∧ ∀ e, e ∈ s.sched.next ↔ liveEntry s e

theorem directorySound_iff {s : State} : directorySound s ↔ unitsSound s := by
  have haddresses : (s.taps.map (·.address) ++ transponderAddresses s).Nodup ↔
      (s.taps.map (·.address)).Nodup ∧ (transponderAddresses s).Nodup ∧
        ∀ t ∈ s.taps, ∀ n, (1 ≤ n ∧ n ≤ 32) → (transponderOf s n).address ≠ some t.address := by
    rw [List.nodup_append]
    refine and_congr Iff.rfl (and_congr Iff.rfl ?_)
    constructor
    · intro h t ht n hn ha
      exact h _ (List.mem_map_of_mem ht) _ (mem_transponderAddresses.2 ⟨n, hn, ha⟩) rfl
    · intro h a ha b hb
      obtain ⟨t, ht, rfl⟩ := List.mem_map.1 ha
      obtain ⟨n, hn, hb⟩ := mem_transponderAddresses.1 hb
      rintro rfl
      exact h t ht n hn hb
  have hrange : (∀ r ∈ s.transponders.toList, ∀ a ∈ r.address, addressInRange a = true) ↔
      ∀ n, (1 ≤ n ∧ n ≤ 32) → ∀ a ∈ (transponderOf s n).address, addressInRange a = true := by
    constructor
    · exact fun h n hn => h _ (transponderOf_mem s hn)
    · intro h r hr
      obtain ⟨i, hi, rfl⟩ := List.getElem_of_mem hr
      have hi32 : i < 32 := by simpa using hi
      rw [transponders_getElem s hi]
      exact h (i + 1) (by omega)
  have hnext (h : rising (s.taps.map (·.address))) : s.sched.next.Perm (liveEntries s) ↔
      s.sched.next.Nodup ∧ ∀ e, e ∈ s.sched.next ↔ liveEntry s e := by
    have hnodup := liveEntries_nodup h
    constructor
    · intro hp
      exact ⟨hp.nodup_iff.2 hnodup, fun e => hp.mem_iff.trans mem_liveEntries⟩
    · rintro ⟨hn, hmem⟩
      exact (List.perm_ext_iff_of_nodup hn hnodup).2 fun e => (hmem e).trans mem_liveEntries.symm
  unfold directorySound unitsSound
  rw [haddresses, transponderAddresses_nodup, hrange]
  constructor
  · rintro ⟨hrising, hlength, ⟨-, hdistinct, hapart⟩, htaps, hr, hn⟩
    exact ⟨⟨hrising, hlength⟩, hdistinct, hapart, htaps, hr, (hnext hrising).1 hn⟩
  · rintro ⟨⟨hrising, hlength⟩, hdistinct, hapart, htaps, hr, hn⟩
    exact ⟨hrising, hlength, ⟨hrising.imp fun hlt => Nat.ne_of_lt hlt, hdistinct, hapart⟩, htaps, hr, (hnext hrising).2 hn⟩

/-! ### Operations that leave the units -/

theorem forall₂_exists {α β : Type} {r : α → β → Prop} {xs : List α} {ys : List β} (h : List.Forall₂ r xs ys) {y : β}
    (hy : y ∈ ys) : ∃ x ∈ xs, r x y := by
  obtain ⟨j, hj, rfl⟩ := List.getElem_of_mem hy
  exact ⟨_, List.getElem_mem (h.length_eq ▸ hj), h.get _ _⟩

theorem transponderKey_of_same {s t : State} (h : vecMap unitKey t.transponders = vecMap unitKey s.transponders)
    (n : Nat) : (transponderOf t n).address = (transponderOf s n).address ∧
      ((transponderOf t n).state = .removing ↔ (transponderOf s n).state = .removing) := by
  have key (u : State) : vecGet (vecMap unitKey u.transponders) (n - 1) (unitKey absentTransponder) =
      unitKey (transponderOf u n) := by
    by_cases hn : n - 1 < 32
    · exact vecGet_vecMap _ _ _ _ _ hn
    · rw [transponderOf, vecGet_of_ge _ _ _ (Nat.not_lt.1 hn), vecGet_of_ge _ _ _ (Nat.not_lt.1 hn)]
  have hkey : unitKey (transponderOf t n) = unitKey (transponderOf s n) := by rw [← key, ← key, h]
  exact ⟨congrArg Prod.fst hkey, decide_eq_decide.1 (congrArg Prod.snd hkey)⟩

/-- Two records of a tap agree in what the directory reads of them. -/
def unitAgrees (r q : TapRec) : Prop :=
  q.address = r.address ∧ q.node = r.node ∧ (q.state = .removing ↔ r.state = .removing) ∧ (r.miss ≤ 15 → q.miss ≤ 15) ∧
    (r.state = .removing → (∀ x ∈ r.ports.toList, x = none) → ∀ x ∈ q.ports.toList, x = none)

theorem unitAgrees_refl (r : TapRec) : unitAgrees r r := ⟨rfl, rfl, Iff.rfl, id, fun _ => id⟩

theorem unitAgrees_of_tapAgrees {r q : TapRec} (h : tapAgrees r q) : unitAgrees r q := by
  obtain ⟨ha, hn, hp, hs, hm⟩ := h
  exact ⟨ha, hn, hs, hm, fun _ h => hp ▸ h⟩

theorem unitsSound_of_agrees {s t : State} (htaps : List.Forall₂ unitAgrees s.taps t.taps)
    (htransponders : vecMap unitKey t.transponders = vecMap unitKey s.transponders) (hnext : t.sched.next = s.sched.next)
    (hs : unitsSound s) : unitsSound t := by
  obtain ⟨⟨hrising, hlength⟩, hdistinct, hapart, hfields, hrange, hnodup, hmem⟩ := hs
  have hkey := transponderKey_of_same htransponders
  have haddresses : t.taps.map (·.address) = s.taps.map (·.address) :=
    (List.forall₂_eq_eq_eq ▸ (List.forall₂_map_left_iff.2 (List.forall₂_map_right_iff.2
      (htaps.imp fun r q h => h.1.symm))) : s.taps.map (·.address) = t.taps.map (·.address)).symm
  refine ⟨⟨haddresses ▸ hrising, htaps.length_eq ▸ hlength⟩, fun n m a hn hm ha hb => ?_,
    fun q hq n hn => ?_, fun q hq => ?_, fun n hn a ha => ?_, hnext ▸ hnodup, fun e => ?_⟩
  · exact hdistinct n m a hn hm ((hkey n).1 ▸ ha) ((hkey m).1 ▸ hb)
  · obtain ⟨r, hr, haddress, -⟩ := forall₂_exists htaps hq
    rw [(hkey n).1, haddress]
    exact hapart r hr n hn
  · obtain ⟨r, hr, haddress, hnode, hstate, hmiss, hports⟩ := forall₂_exists htaps hq
    obtain ⟨ha, hn, hm, hp⟩ := hfields r hr
    rw [haddress, hnode]
    exact ⟨ha, hn, hmiss hm, fun h => hports (hstate.1 h) (hp (hstate.1 h))⟩
  · exact hrange n hn a ((hkey n).1 ▸ ha)
  · rw [hnext, hmem]
    unfold liveEntry
    split
    · constructor
      · rintro ⟨r, hr, hs, ha, hn⟩
        obtain ⟨q, hq, haddress, hnode, hstate, -⟩ := forall₂_exists htaps.flip hr
        exact ⟨q, hq, mt hstate.1 hs, haddress.trans ha, hnode.trans hn⟩
      · rintro ⟨q, hq, hs, ha, hn⟩
        obtain ⟨r, hr, haddress, hnode, hstate, -⟩ := forall₂_exists htaps hq
        exact ⟨r, hr, mt hstate.2 hs, haddress.symm.trans ha, hnode.symm.trans hn⟩
    · rw [(hkey e.node).1, Ne, Ne, (hkey e.node).2]

theorem unitsSound_of_same {s t : State} (h : SameUnits s t) (hs : unitsSound s) : unitsSound t := by
  obtain ⟨htaps, htransponders, hnext, -⟩ := h
  exact unitsSound_of_agrees (htaps.imp fun _ _ => unitAgrees_of_tapAgrees) htransponders hnext hs

/-! ### Passes (R59) -/

theorem transponderOf_passTurn (s : State) (n : Nat) : transponderOf (passTurn s) n = dropRemoving (transponderOf s n) := by
  by_cases hn : n - 1 < 32
  · exact vecGet_vecMap _ _ _ _ _ hn
  · rw [transponderOf, transponderOf, vecGet_of_ge _ _ _ (Nat.not_lt.1 hn), vecGet_of_ge _ _ _ (Nat.not_lt.1 hn)]
    rfl

theorem address_of_dropRemoving {r : TransponderRec} {a : Nat} (h : (dropRemoving r).address = some a) :
    dropRemoving r = r ∧ r.address = some a := by
  unfold dropRemoving at h ⊢
  split at h
  · cases h
  · rename_i hs
    exact ⟨if_neg hs, h⟩

theorem unitsSound_passTurn {s : State} (hs : unitsSound s) : unitsSound (passTurn s) := by
  obtain ⟨⟨hrising, hlength⟩, hdistinct, hapart, hfields, hrange, hnodup, hmem⟩ := hs
  have held {n a : Nat} (ha : (transponderOf (passTurn s) n).address = some a) :
      (transponderOf s n).address = some a := by
    rw [transponderOf_passTurn] at ha
    exact (address_of_dropRemoving ha).2
  refine ⟨⟨hrising.sublist (List.filter_sublist.map _), (List.length_filter_le _ _).trans hlength⟩,
    fun n m a hn hm ha hb => hdistinct n m a hn hm (held ha) (held hb),
    fun q hq n hn ha => hapart q (List.mem_of_mem_filter hq) n hn (held ha),
    fun q hq => hfields q (List.mem_of_mem_filter hq), fun n hn a ha => hrange n hn a (held ha), hnodup,
    fun e => (hmem e).trans ?_⟩
  unfold liveEntry
  split
  · constructor
    · rintro ⟨q, hq, hlive, hrest⟩
      exact ⟨q, List.mem_filter.2 ⟨hq, by simpa using hlive⟩, hlive, hrest⟩
    · rintro ⟨q, hq, hrest⟩
      exact ⟨q, List.mem_of_mem_filter hq, hrest⟩
  · rw [transponderOf_passTurn]
    constructor
    · rintro ⟨hn, hlive, ha⟩
      rw [show dropRemoving (transponderOf s e.node) = transponderOf s e.node from if_neg hlive]
      exact ⟨hn, hlive, ha⟩
    · rintro ⟨hn, hlive, ha⟩
      obtain ⟨heq, ha⟩ := address_of_dropRemoving ha
      exact ⟨hn, heq ▸ hlive, ha⟩

/-! ### Adding and removing units (R52 to R54) -/

theorem length_insertKeyed {α : Type} (key : α → Nat) (x : α) (xs : List α) :
    (insertKeyed key x xs).length = xs.length + 1 := by
  induction xs with
  | nil => rfl
  | cons y ys ih =>
    rw [insertKeyed]
    split
    · rfl
    · rw [List.length_cons, ih, List.length_cons]

theorem unitsSound_tapAdd {address node model : Nat} {s : State} (hs : unitsSound s) :
    unitsSound (tapAddStep address node model s).1 := by
  rw [tapAddStep_eq]
  split
  · exact hs
  rename_i inRange
  split
  · exact hs
  rename_i free
  split
  · exact hs
  rename_i room
  obtain ⟨⟨ha1, ha2⟩, ⟨hn1, hn2⟩, -⟩ := not_not.1 inRange
  obtain ⟨hfree, hunheld⟩ := not_or.1 free
  obtain ⟨⟨hrising, hlength⟩, hdistinct, hapart, hfields, hrange, hnodup, hmem⟩ := hs
  generalize hnew : newTap address node (modelNamed model) = new
  have haddress : new.address = address := hnew ▸ rfl
  have hnode : new.node = node := hnew ▸ rfl
  have hlive : new.state ≠ .removing := hnew ▸ nofun
  have hmiss : new.miss ≤ 15 := hnew ▸ Nat.zero_le _
  have taps {q : TapRec} : q ∈ insertTap new s.taps ↔ q = new ∨ q ∈ s.taps := by
    rw [insertTap_eq, mem_insertKeyed]
  refine ⟨⟨?_, ?_⟩, hdistinct, fun q hq n hn => ?_, fun q hq => ?_, hrange, ?_, fun e => ?_⟩
  · change rising ((insertTap new s.taps).map (·.address))
    rw [insertTap_eq]
    refine rising_insertKeyed hrising fun q hq h => hfree ⟨q, hq, ?_⟩
    rw [h, haddress]
  · change (insertTap new s.taps).length ≤ 512
    rw [insertTap_eq, length_insertKeyed]
    omega
  · obtain rfl | hq := taps.1 hq
    · rw [haddress]
      exact fun h => hunheld ⟨n, mem_upTo.2 hn, h⟩
    · exact hapart q hq n hn
  · obtain rfl | hq := taps.1 hq
    · rw [haddress, hnode]
      exact ⟨addressInRange_iff.2 ⟨ha1, ha2⟩, ⟨hn1, hn2⟩, hmiss, fun h => absurd h hlive⟩
    · exact hfields q hq
  · refine List.nodup_append.2 ⟨hnodup, List.nodup_singleton _, fun e he q hq => ?_⟩
    obtain rfl := List.mem_singleton.1 hq
    rintro rfl
    obtain ⟨q, hq, -, ha, -⟩ := (hmem _).1 he
    exact hfree ⟨q, hq, ha⟩
  · refine List.mem_append.trans ?_
    rw [hmem, List.mem_singleton]
    unfold liveEntry
    obtain ⟨kind, a, n⟩ := e
    cases kind
    · constructor
      · rintro (⟨q, hq, hrest⟩ | h)
        · exact ⟨q, taps.2 (.inr hq), hrest⟩
        · cases h
          exact ⟨new, taps.2 (.inl rfl), hlive, haddress, hnode⟩
      · rintro ⟨q, hq, hl, hqa, hqn⟩
        obtain rfl | hq := taps.1 hq
        · dsimp only at hqa hqn
          exact .inr (by rw [← hqa, ← hqn, haddress, hnode])
        · exact .inl ⟨q, hq, hl, hqa, hqn⟩
    · constructor
      · rintro (h | h)
        · exact h
        · cases h
      · exact .inl

/-- Withdrawing an entry: a unit that enters REMOVING, with every other unit as it was. -/
theorem unitsSound_withdrawn {s t : State} {gone : PassEntry → Bool} (hs : unitsSound s)
    (haddresses : t.taps.map (·.address) = s.taps.map (·.address))
    (htaps : ∀ q ∈ t.taps, ∃ r ∈ s.taps, q.address = r.address ∧ q.node = r.node ∧ q.miss = r.miss ∧
      (q.state = .removing → ∀ x ∈ q.ports.toList, x = none))
    (htransponders : ∀ n, (1 ≤ n ∧ n ≤ 32) → (transponderOf t n).address = (transponderOf s n).address)
    (hnext : t.sched.next = s.sched.next.filter fun e => !gone e)
    (hlive : ∀ e, liveEntry t e ↔ liveEntry s e ∧ gone e = false) : unitsSound t := by
  obtain ⟨⟨hrising, hlength⟩, hdistinct, hapart, hfields, hrange, hnodup, hmem⟩ := hs
  have hl : t.taps.length = s.taps.length := by simpa using congrArg List.length haddresses
  refine ⟨⟨haddresses ▸ hrising, hl ▸ hlength⟩, fun n m a hn hm ha hb => ?_, fun q hq n hn => ?_, fun q hq => ?_,
    fun n hn a ha => ?_, hnext ▸ hnodup.filter _, fun e => ?_⟩
  · exact hdistinct n m a hn hm (htransponders n hn ▸ ha) (htransponders m hm ▸ hb)
  · obtain ⟨r, hr, ha, -⟩ := htaps q hq
    rw [htransponders n hn, ha]
    exact hapart r hr n hn
  · obtain ⟨r, hr, ha, hn, hm, hp⟩ := htaps q hq
    obtain ⟨hra, hrn, hrm, -⟩ := hfields r hr
    rw [ha, hn, hm]
    exact ⟨hra, hrn, hrm, hp⟩
  · exact hrange n hn a (htransponders n hn ▸ ha)
  · rw [hnext, List.mem_filter, hmem, hlive, Bool.not_eq_true']

theorem unitsSound_tapRemove {address : Nat} {s : State} (hs : unitsSound s) :
    unitsSound (tapRemoveStep address s).1 := by
  by_cases inRange : 1 ≤ address ∧ address ≤ 16777214
  swap
  · rw [tapRemoveStep_outOfRange inRange]
    exact hs
  rw [tapRemoveStep_inRange inRange]
  split
  · exact hs
  rename_i t ht
  split
  · exact hs
  rename_i hfree
  obtain ⟨hlive, hvacant⟩ := not_or.1 (mt removal_blocked_iff.2 hfree)
  obtain ⟨htmem, rfl⟩ := findTap_some ht
  have hsound := hs
  obtain ⟨⟨hrising, -⟩, -, -, hfields, -⟩ := hsound
  dsimp only
  rw [setTapState_of_ne hlive]
  refine unitsSound_of_same ((sameUnits_of_nodes (changes_reevaluate _ _)).trans (sameUnits_withdraw _ _))
    (unitsSound_withdrawn (gone := fun e => e.kind = .tap && e.address = t.address) hs
      (modifyTap_addresses _ (fun r => { r with state := .removing }) (fun _ => rfl) _) (fun q hq => ?_)
      (fun _ _ => rfl) rfl fun e => ?_)
  · obtain ⟨r, hr, rfl⟩ := List.mem_map.1 hq
    refine ⟨r, hr, ?_⟩
    split
    · rename_i ha
      obtain rfl := eq_of_address hrising htmem hr ha
      exact ⟨rfl, rfl, rfl, fun _ x hx => by_contra fun h => hvacant ⟨x, hx, h⟩⟩
    · exact ⟨rfl, rfl, rfl, (hfields r hr).2.2.2⟩
  · unfold liveEntry
    obtain ⟨kind, a, n⟩ := e
    cases kind
    · dsimp only
      simp only [decide_true, Bool.true_and, decide_eq_false_iff_not]
      constructor
      · rintro ⟨q, hq, hl, hqa, hqn⟩
        obtain ⟨r, hr, rfl⟩ := List.mem_map.1 hq
        by_cases ha : r.address = t.address
        · rw [if_pos ha] at hl
          exact absurd rfl hl
        · rw [if_neg ha] at hl hqa hqn
          exact ⟨⟨r, hr, hl, hqa, hqn⟩, hqa ▸ ha⟩
      · rintro ⟨⟨r, hr, hl, hra, hrn⟩, hne⟩
        refine ⟨r, List.mem_map.2 ⟨r, hr, if_neg fun h => hne (hra ▸ h)⟩, hl, hra, hrn⟩
    · exact (and_iff_left rfl).symm

theorem unitsSound_transponderGone {n : Nat} {s : State} (hs : unitsSound s) (hn : 1 ≤ n ∧ n ≤ 32) :
    unitsSound (changeNextList (fun l => l.filter fun e => ¬(e.kind = .transponder ∧ e.node = n))
      (modifyTransponder n (fun r => { r with state := .removing }) s)) := by
  have record {m : Nat} (hm : 1 ≤ m ∧ m ≤ 32) := transponderOf_modifyTransponder n m
    (fun r => { r with state := .removing }) s hn.1 hm.1 hm.2
  have hfields := hs.2.2.2.1
  refine unitsSound_withdrawn (gone := fun e => decide (e.kind = .transponder ∧ e.node = n)) hs rfl
    (fun q hq => ⟨q, hq, rfl, rfl, rfl, (hfields q hq).2.2.2⟩) (fun m hm => ?_) ?_ fun e => ?_
  · refine (congrArg TransponderRec.address (record hm)).trans ?_
    split <;> rfl
  · refine List.filter_congr fun e _ => ?_
    rw [← decide_not]
  · obtain ⟨kind, a, m⟩ := e
    unfold liveEntry
    cases kind
    · exact (and_iff_left rfl).symm
    · simp only [true_and, decide_eq_false_iff_not]
      constructor
      · rintro ⟨hm, hlive, ha⟩
        have hrecord := record hm
        by_cases hne : n = m
        · rw [if_pos hne] at hrecord
          exact absurd (congrArg TransponderRec.state hrecord) hlive
        · rw [if_neg hne] at hrecord
          exact ⟨⟨hm, hrecord ▸ hlive, hrecord ▸ ha⟩, Ne.symm hne⟩
      · rintro ⟨⟨hm, hlive, ha⟩, hne⟩
        have hrecord := record hm
        rw [if_neg (Ne.symm hne)] at hrecord
        exact ⟨hm, hrecord ▸ hlive, hrecord ▸ ha⟩

theorem unitsSound_transponderAdd {n a : Nat} {s : State} (hs : unitsSound s) (hn : 1 ≤ n ∧ n ≤ 32)
    (ha : addressInRange a = true) (hfree : ¬(a ∈ some a ∧ ((∃ t ∈ s.taps, t.address = a) ∨
      ∃ m ∈ upTo 32, m ≠ n ∧ (transponderOf s m).address = some a))) (hnone : (transponderOf s n).address = none) :
    unitsSound (changeNextList (· ++ [{ kind := .transponder, address := a, node := n }])
      (modifyTransponder n (fun _ => freshTransponder a) s)) := by
  have record {m : Nat} (hm : 1 ≤ m ∧ m ≤ 32) := transponderOf_modifyTransponder n m
    (fun _ => freshTransponder a) s hn.1 hm.1 hm.2
  obtain ⟨⟨hrising, hlength⟩, hdistinct, hapart, hfields, hrange, hnodup, hmem⟩ := hs
  have unheld {m : Nat} (hm : 1 ≤ m ∧ m ≤ 32) (hne : m ≠ n) : (transponderOf s m).address ≠ some a :=
    fun h => hfree ⟨rfl, .inr ⟨m, mem_upTo.2 hm, hne, h⟩⟩
  have address {m b : Nat} (hm : 1 ≤ m ∧ m ≤ 32)
      (hb : (transponderOf (modifyTransponder n (fun _ => freshTransponder a) s) m).address = some b) :
      n = m ∧ b = a ∨ n ≠ m ∧ (transponderOf s m).address = some b := by
    rw [record hm] at hb
    by_cases hne : n = m
    · rw [if_pos hne] at hb
      exact .inl ⟨hne, (Option.some.inj hb).symm⟩
    · rw [if_neg hne] at hb
      exact .inr ⟨hne, hb⟩
  refine ⟨⟨hrising, hlength⟩, fun m l b hm hl hb hc => ?_, fun q hq m hm hb => ?_, hfields, fun m hm b hb => ?_, ?_,
    fun e => ?_⟩
  · obtain ⟨rfl, rfl⟩ | ⟨hne, hb⟩ := address hm hb
    · obtain ⟨rfl, -⟩ | ⟨hne, hc⟩ := address hl hc
      · rfl
      · exact absurd hc (unheld hl (Ne.symm hne))
    · obtain ⟨rfl, rfl⟩ | ⟨-, hc⟩ := address hl hc
      · exact absurd ‹_› (unheld hm (Ne.symm hne))
      · exact hdistinct m l b hm hl hb hc
  · obtain ⟨-, hqa⟩ | ⟨-, hb⟩ := address hm hb
    · exact hfree ⟨rfl, .inl ⟨q, hq, hqa⟩⟩
    · exact hapart q hq m hm hb
  · obtain ⟨-, rfl⟩ | ⟨-, hb⟩ := address hm hb
    · exact ha
    · exact hrange m hm b hb
  · refine List.nodup_append.2 ⟨hnodup, List.nodup_singleton _, fun e he q hq => ?_⟩
    obtain rfl := List.mem_singleton.1 hq
    rintro rfl
    obtain ⟨-, -, hb⟩ := (hmem _).1 he
    exact nomatch hnone.symm.trans hb
  · refine List.mem_append.trans ((or_congr (hmem e) List.mem_singleton).trans ?_)
    obtain ⟨kind, b, m⟩ := e
    unfold liveEntry
    cases kind
    · exact or_iff_left nofun
    · constructor
      · rintro (⟨hm, hlive, hb⟩ | h)
        · have hne : n ≠ m := by
            rintro rfl
            exact nomatch hnone.symm.trans hb
          have hrecord := record hm
          rw [if_neg hne] at hrecord
          exact ⟨hm, hrecord ▸ hlive, hrecord ▸ hb⟩
        · cases h
          have hrecord := (record hn).trans (if_pos rfl)
          have hlive : (freshTransponder a).state ≠ .removing := by simp [freshTransponder, absentTransponder]
          exact ⟨hn, (congrArg TransponderRec.state hrecord).trans_ne hlive, congrArg TransponderRec.address hrecord⟩
      · rintro ⟨hm, hlive, hb⟩
        obtain ⟨rfl, rfl⟩ | ⟨hne, hb⟩ := address hm hb
        · exact .inr rfl
        · have hrecord := record hm
          rw [if_neg hne] at hrecord
          exact .inl ⟨hm, hrecord ▸ hlive, hb⟩

theorem unitsSound_transponderSet {n : Nat} {address : Option Nat} {s : State} (hs : unitsSound s) :
    unitsSound (transponderSetStep n address s).1 := by
  by_cases inRange : (1 ≤ n ∧ n ≤ 32) ∧ ∀ a ∈ address, 1 ≤ a ∧ a ≤ 16777214
  swap
  · rw [transponderSetStep, if_pos (transponder_inRange_iff.2 inRange)]
    exact hs
  by_cases taken : ∃ a ∈ address, (∃ t ∈ s.taps, t.address = a) ∨
      ∃ m ∈ upTo 32, m ≠ n ∧ (transponderOf s m).address = some a
  · rw [transponderSetStep, if_neg fun h => transponder_inRange_iff.1 h inRange, if_pos (addressTaken_iff.2 taken)]
    exact hs
  rw [transponderSetStep_row inRange taken]
  obtain ⟨hn, hrange⟩ := inRange
  generalize hheld : (transponderOf s n).address = held
  generalize hstate : (transponderOf s n).state = state
  match held, address with
  | none, none => exact hs
  | some h, some a =>
    unfold transponderRow
    dsimp only
    split
    · exact hs
    · exact hs
  | none, some a => exact unitsSound_transponderAdd hs hn (addressInRange_iff.2 (hrange a rfl)) (not_exists.1 taken a) hheld
  | some h, none =>
    unfold transponderRow
    dsimp only
    split
    · exact hs
    · exact unitsSound_transponderGone hs hn

end Sys2Proof.Machine
end

section
/-! SUPPORT. The bindings between ports and accounts, and O56: every command keeps the directory, the accounts and the
bindings. -/

namespace Sys2Proof.Machine

/-! ### Bindings, record by record -/

/-- Port `p` of the tap with address `a` names account `k`. -/
def portNames (s : State) (a p k : Nat) : Prop := ∃ t ∈ s.taps, t.address = a ∧ vecGet t.ports (p - 1) none = some k

/-- Sound bindings, record by record. -/
def boundSound (s : State) : Prop :=
  rising (s.accounts.map (·.number)) ∧ rising (s.taps.map (·.address)) ∧
    (∀ a ∈ s.accounts, (1 ≤ a.port ∧ a.port ≤ 4) ∧ portNames s a.address a.port a.number) ∧
    (∀ t ∈ s.taps, ∀ p, (1 ≤ p ∧ p ≤ 4) → ∀ k, vecGet t.ports (p - 1) none = some k →
      ∃ a ∈ s.accounts, bindingKey a = (k, t.address, p)) ∧
    (∀ t ∈ s.taps, t.state = .removing → ∀ p ∈ t.ports.toList, p = none)

theorem findTap_of_mem {taps : List TapRec} (h : rising (taps.map (·.address))) {t : TapRec} (ht : t ∈ taps) :
    findTap t.address taps = some t := by
  obtain ⟨r, hr⟩ := Option.isSome_iff_exists.1 (findTap_isSome_iff.2 ⟨t, ht, rfl⟩)
  obtain ⟨hmem, ha⟩ := findTap_some hr
  rw [hr, eq_of_address h ht hmem ha]

theorem boundAccount_eq_some {s : State} (h : rising (s.taps.map (·.address))) {a p k : Nat} (hp : 1 ≤ p ∧ p ≤ 4) :
    boundAccount s a p = some k ↔ portNames s a p k := by
  unfold boundAccount portNames
  split
  · rename_i hnone
    refine iff_of_false nofun ?_
    rintro ⟨t, ht, ha, -⟩
    have := findTap_isSome_iff.2 ⟨t, ht, ha⟩
    rw [hnone] at this
    cases this
  · rename_i t ht
    rw [if_pos (within_iff.2 hp)]
    obtain ⟨hmem, ha⟩ := findTap_some ht
    constructor
    · exact fun hk => ⟨t, hmem, ha, hk⟩
    · rintro ⟨r, hr, hra, hk⟩
      rwa [eq_of_address h hmem hr (hra.trans ha.symm)] at hk

theorem bindingsSound_iff {s : State} : bindingsSound s ↔ boundSound s := by
  unfold bindingsSound boundSound
  refine and_congr Iff.rfl (and_congr_right fun hrising => and_congr ?_ (and_congr ?_ Iff.rfl))
  · exact forall₂_congr fun a _ => and_congr_right fun hp => boundAccount_eq_some hrising hp
  · refine forall₂_congr fun t _ => forall_congr' fun p => imp_congr mem_upTo (forall₂_congr fun k _ => ?_)
    refine exists_congr fun a => and_congr_right fun _ => ?_
    rw [bindingKey, Prod.mk.injEq, Prod.mk.injEq]

theorem bindingKey_exists {xs ys : List Account} (h : ys.map bindingKey = xs.map bindingKey) {y : Account}
    (hy : y ∈ ys) : ∃ x ∈ xs, bindingKey x = bindingKey y :=
  List.mem_map.1 (h ▸ List.mem_map_of_mem hy)

theorem numbers_of_keys {xs ys : List Account} (h : ys.map bindingKey = xs.map bindingKey) :
    ys.map (·.number) = xs.map (·.number) := by
  have hfst := congrArg (List.map Prod.fst) h
  rwa [List.map_map, List.map_map] at hfst

theorem portNames_of_agrees {s t : State} (h : List.Forall₂ tapAgrees s.taps t.taps) {a p k : Nat}
    (hs : portNames s a p k) : portNames t a p k := by
  obtain ⟨r, hr, ha, hk⟩ := hs
  obtain ⟨q, hq, haddress, -, hports, -⟩ := forall₂_exists h.flip hr
  exact ⟨q, hq, haddress.trans ha, hports ▸ hk⟩

theorem boundSound_of_same {s t : State} (h : SameUnits s t) (hs : boundSound s) : boundSound t := by
  obtain ⟨htaps, -, -, haccounts⟩ := h
  obtain ⟨hnumbers, haddresses, hbound, hnamed, hremoving⟩ := hs
  refine ⟨numbers_of_keys haccounts ▸ hnumbers, addresses_of_agrees htaps ▸ haddresses, fun b hb => ?_,
    fun q hq p hp k hk => ?_, fun q hq => ?_⟩
  · obtain ⟨a, ha, hkey⟩ := bindingKey_exists haccounts hb
    simp only [bindingKey, Prod.mk.injEq] at hkey
    obtain ⟨hnumber, haddress, hport⟩ := hkey
    obtain ⟨hp, hnames⟩ := hbound a ha
    rw [← hnumber, ← haddress, ← hport]
    exact ⟨hp, portNames_of_agrees htaps hnames⟩
  · obtain ⟨r, hr, haddress, -, hports, -⟩ := forall₂_exists htaps hq
    rw [hports] at hk
    obtain ⟨a, ha, hkey⟩ := hnamed r hr p hp k hk
    obtain ⟨b, hb, hkeys⟩ := bindingKey_exists haccounts.symm ha
    exact ⟨b, hb, by rw [hkeys, hkey, haddress]⟩
  · obtain ⟨r, hr, -, -, hports, hstate, -⟩ := forall₂_exists htaps hq
    rw [hports, hstate]
    exact hremoving r hr

theorem mem_ports {t : TapRec} {i k : Nat} (h : vecGet t.ports i none = some k) : some k ∈ t.ports.toList := by
  obtain hmem | hnone := vecGet_mem t.ports i none
  · exact h ▸ hmem
  · exact nomatch h.symm.trans hnone

theorem boundSound_passTurn {s : State} (hs : boundSound s) : boundSound (passTurn s) := by
  obtain ⟨hnumbers, haddresses, hbound, hnamed, hremoving⟩ := hs
  refine ⟨hnumbers, haddresses.sublist (List.filter_sublist.map _), fun b hb => ?_,
    fun q hq => hnamed q (List.mem_of_mem_filter hq), fun q hq => hremoving q (List.mem_of_mem_filter hq)⟩
  obtain ⟨hp, t, ht, ha, hk⟩ := hbound b hb
  refine ⟨hp, t, List.mem_filter.2 ⟨ht, ?_⟩, ha, hk⟩
  rw [bne_iff_ne]
  exact fun hr => nomatch hremoving t ht hr _ (mem_ports hk)

/-! ### Opening and closing an account (R76, R82) -/

theorem vecGet_ports (t : TapRec) (i j : Nat) (b : Option Nat) (hj : j < 4) :
    vecGet (vecModify t.ports i fun _ => b) j none = if j = i then b else vecGet t.ports j none := by
  rw [vecGet_vecModify]
  exact if_congr (by omega) rfl rfl

theorem mem_bindPort {a p : Nat} {b : Option Nat} {s : State} {q : TapRec} :
    q ∈ (bindPort a p b s).taps ↔ (q ∈ s.taps ∧ q.address ≠ a) ∨
      ∃ r ∈ s.taps, r.address = a ∧ q = { r with ports := vecModify r.ports (p - 1) fun _ => b } := by
  rw [bindPort_taps, modifyTap, List.mem_map]
  constructor
  · rintro ⟨r, hr, rfl⟩
    by_cases ha : r.address = a
    · rw [if_pos ha]
      exact .inr ⟨r, hr, ha, rfl⟩
    · rw [if_neg ha]
      exact .inl ⟨hr, ha⟩
  · rintro (⟨hq, ha⟩ | ⟨r, hr, ha, rfl⟩)
    · exact ⟨q, hq, if_neg ha⟩
    · exact ⟨r, hr, if_pos ha⟩

theorem bindPort_addresses (a p : Nat) (b : Option Nat) (s : State) :
    (bindPort a p b s).taps.map (·.address) = s.taps.map (·.address) :=
  modifyTap_addresses a (fun t => { t with ports := vecModify t.ports (p - 1) fun _ => b }) (fun _ => rfl) s.taps

/-- What a port names after port `p` of the tap with address `a` was bound. -/
theorem portNames_bindPort {a p : Nat} {b : Option Nat} {s : State} {c q k : Nat} (hp : 1 ≤ p)
    (hq : 1 ≤ q ∧ q ≤ 4) (hne : c = a → q ≠ p) (h : portNames s c q k) : portNames (bindPort a p b s) c q k := by
  obtain ⟨t, ht, hc, hk⟩ := h
  by_cases ha : t.address = a
  · refine ⟨_, mem_bindPort.2 (.inr ⟨t, ht, ha, rfl⟩), hc, ?_⟩
    have := hne (hc.symm.trans ha)
    dsimp only
    rwa [vecGet_ports _ _ _ _ (by omega), if_neg (by omega)]
  · exact ⟨t, mem_bindPort.2 (.inl ⟨ht, ha⟩), hc, hk⟩

theorem boundSound_accountOpened {s : State} {t : TapRec} {account : Account} (hs : boundSound s)
    (hfree : ∀ a ∈ s.accounts, a.number ≠ account.number) (ht : findTap account.address s.taps = some t)
    (hlive : t.state ≠ .removing) (hp : 1 ≤ account.port ∧ account.port ≤ 4)
    (hvacant : vecGet t.ports (account.port - 1) none = none) :
    boundSound (bindPort account.address account.port (some account.number)
      { s with accounts := insertAccount account s.accounts }) := by
  obtain ⟨hnumbers, haddresses, hbound, hnamed, hremoving⟩ := hs
  obtain ⟨htmem, hta⟩ := findTap_some ht
  have the {r : TapRec} (hr : r ∈ s.taps) (ha : r.address = account.address) : r = t :=
    eq_of_address haddresses htmem hr (ha.trans hta.symm)
  have accounts {a : Account} : a ∈ insertAccount account s.accounts ↔ a = account ∨ a ∈ s.accounts := by
    rw [insertAccount_eq, mem_insertKeyed]
  refine ⟨?_, ?_, fun b hb => ?_, fun q hq r hr k hk => ?_, fun q hq hstate => ?_⟩
  · change rising ((insertAccount account s.accounts).map (·.number))
    rw [insertAccount_eq]
    exact rising_insertKeyed hnumbers hfree
  · rw [bindPort_addresses]
    exact haddresses
  · obtain rfl | hb := accounts.1 hb
    · refine ⟨hp, _, mem_bindPort.2 (.inr ⟨t, htmem, hta, rfl⟩), hta, ?_⟩
      dsimp only
      rw [vecGet_ports _ _ _ _ (by omega), if_pos rfl]
    · obtain ⟨hbp, hnames⟩ := hbound b hb
      refine ⟨hbp, portNames_bindPort hp.1 hbp (fun ha hport => ?_) hnames⟩
      obtain ⟨r, hr, hra, hk⟩ := hnames
      rw [the hr (hra.trans ha), hport, hvacant] at hk
      cases hk
  · obtain ⟨hq, -⟩ | ⟨x, hx, ha, rfl⟩ := mem_bindPort.1 hq
    · obtain ⟨a, ha, hkey⟩ := hnamed q hq r hr k hk
      exact ⟨a, accounts.2 (.inr ha), hkey⟩
    · dsimp only at hk ⊢
      rw [vecGet_ports _ _ _ _ (by omega)] at hk
      by_cases hport : r - 1 = account.port - 1
      · rw [if_pos hport] at hk
        cases hk
        refine ⟨account, accounts.2 (.inl rfl), ?_⟩
        rw [bindingKey, ha, show r = account.port by omega]
      · rw [if_neg hport] at hk
        obtain ⟨a, ha, hkey⟩ := hnamed x hx r hr k hk
        exact ⟨a, accounts.2 (.inr ha), hkey⟩
  · obtain ⟨hq, -⟩ | ⟨x, hx, ha, rfl⟩ := mem_bindPort.1 hq
    · exact hremoving q hq hstate
    · exact absurd (the hx ha ▸ hstate) hlive

theorem eq_of_number {accounts : List Account} (h : rising (accounts.map (·.number))) {a b : Account}
    (ha : a ∈ accounts) (hb : b ∈ accounts) (hn : b.number = a.number) : b = a := by
  have hnodup : (accounts.map (·.number)).Nodup := h.imp fun hlt => Nat.ne_of_lt hlt
  exact List.inj_on_of_nodup_map hnodup hb ha hn

theorem boundSound_accountClosed {s : State} {account : Account} (hs : boundSound s) (hmem : account ∈ s.accounts) :
    boundSound (bindPort account.address account.port none
      { s with accounts := s.accounts.filter (·.number != account.number) }) := by
  obtain ⟨hnumbers, haddresses, hbound, hnamed, hremoving⟩ := hs
  obtain ⟨hp, t, ht, hta, htk⟩ := hbound account hmem
  have others {a : Account} : a ∈ s.accounts.filter (·.number != account.number) ↔
      a ∈ s.accounts ∧ a.number ≠ account.number := by
    rw [List.mem_filter, bne_iff_ne]
  refine ⟨hnumbers.sublist (List.filter_sublist.map _), ?_, fun b hb => ?_, fun q hq r hr k hk => ?_,
    fun q hq hstate => ?_⟩
  · rw [bindPort_addresses]
    exact haddresses
  · obtain ⟨hb, hne⟩ := others.1 hb
    obtain ⟨hbp, hnames⟩ := hbound b hb
    refine ⟨hbp, portNames_bindPort hp.1 hbp (fun ha hport => hne ?_) hnames⟩
    obtain ⟨r, hr, hra, hk⟩ := hnames
    rw [eq_of_address haddresses ht hr (hra.trans (ha.trans hta.symm)), hport, htk] at hk
    exact (Option.some.inj hk).symm
  · obtain ⟨hq, hqa⟩ | ⟨x, hx, ha, rfl⟩ := mem_bindPort.1 hq
    · obtain ⟨a, ha, hkey⟩ := hnamed q hq r hr k hk
      refine ⟨a, others.2 ⟨ha, fun hn => hqa ?_⟩, hkey⟩
      rw [eq_of_number hnumbers hmem ha hn] at hkey
      exact (congrArg (·.2.1) hkey).symm
    · dsimp only at hk ⊢
      rw [vecGet_ports _ _ _ _ (by omega)] at hk
      split at hk
      · cases hk
      · rename_i hport
        obtain ⟨a, hamem, hkey⟩ := hnamed x hx r hr k hk
        refine ⟨a, others.2 ⟨hamem, fun hn => hport ?_⟩, hkey⟩
        rw [eq_of_number hnumbers hmem hamem hn] at hkey
        have : account.port = r := congrArg (·.2.2) hkey
        rw [this]
  · obtain ⟨hq, -⟩ | ⟨x, hx, ha, rfl⟩ := mem_bindPort.1 hq
    · exact hremoving q hq hstate
    · intro y hy
      obtain hy | ⟨z, hz, rfl⟩ := mem_vecModify hy
      · exact hremoving x hx hstate y hy
      · rfl

/-! ### The account's record -/

theorem accountsSound_changeAccount {k : Nat} {f : Account → Account} {s : State}
    (hf : ∀ a ∈ s.accounts, a.number = k → (f a).number = a.number ∧ (accountSound a → accountSound (f a)))
    (hs : accountsSound s) : accountsSound (changeAccount k f s) := by
  obtain ⟨hrising, hsound⟩ := hs
  have hnumbers : (modifyAccount k f s.accounts).map (·.number) = s.accounts.map (·.number) := by
    rw [modifyAccount, List.map_map]
    refine List.map_congr_left fun a ha => ?_
    dsimp only [Function.comp_apply]
    split
    · exact (hf a ha ‹_›).1
    · rfl
  refine ⟨hnumbers ▸ hrising, fun b hb => ?_⟩
  obtain ⟨a, ha, rfl⟩ := List.mem_map.1 hb
  split
  · exact (hf a ha ‹_›).2 (hsound a ha)
  · exact hsound a ha

theorem accountsSound_withinRecord {k : Nat} {f : Account → Account} (hf : withinRecord f) {s : State}
    (hs : accountsSound s) : accountsSound (changeAccount k f s) :=
  accountsSound_changeAccount (fun a _ _ => ⟨congrArg (·.1) (hf a).1, (hf a).2⟩) hs

theorem accountsSound_of_accounts {s t : State} (h : t.accounts = s.accounts) (hs : accountsSound s) :
    accountsSound t := by
  unfold accountsSound
  rwa [h]

theorem purchases_withinRecord (e : Nat) :
    withinRecord fun r => { r with purchases := r.purchases.filter (·.event != e) } := by
  refine fun a => ⟨rfl, fun h => ?_⟩
  obtain ⟨hnumber, hport, hbalance, hresidue, hcredited, hlength, hnodup⟩ := h
  exact ⟨hnumber, hport, hbalance, hresidue, hcredited, (List.length_filter_le _ _).trans hlength,
    hnodup.sublist (List.filter_sublist.map _)⟩

theorem accountsSound_keptByMoney : KeptByMoney accountsSound where
  account _ _ _ hf h := accountsSound_withinRecord hf.1 h
  write _ _ _ h := accountsSound_of_accounts ((changes_plainWrite _ _ _).same .accounts) h
  judge _ h := h

theorem accountsSound_keptByEvents : KeptByEvents accountsSound where
  balance _ _ _ _ := accountsSound_keptByMoney.balanceUpdate
  drop _ e _ h := accountsSound_withinRecord (purchases_withinRecord e) h
  tap _ _ h := accountsSound_of_accounts ((changes_recompute _ _).same .accounts) h
  convert _ _ _ h := accountsSound_of_accounts ((changes_convertReservation _ _ _).same .accounts) h
  release _ h := accountsSound_of_accounts ((changes_releaseReservation _).same .accounts) h
  table _ _ hc h := accountsSound_of_accounts (hc.same .accounts) h

/-- The open purchases of the account numbered `k` stand. -/
def purchasesStand (k : Nat) (purchases : List OpenPurchase) (u : State) : Prop :=
  ∀ a ∈ u.accounts, a.number = k → a.purchases = purchases

theorem purchasesStand_keptByMoney (k : Nat) (purchases : List OpenPurchase) :
    KeptByMoney (purchasesStand k purchases) where
  account l f u hf h b hb hk := by
    obtain ⟨a, ha, rfl⟩ := List.mem_map.1 hb
    by_cases hl : a.number = l
    · rw [if_pos hl] at hk ⊢
      rw [hf.2]
      exact h a ha ((congrArg (·.1) (hf.1 a).1).symm.trans hk)
    · rw [if_neg hl] at hk ⊢
      exact h a ha hk
  write time body u h a ha := h a
    (((changes_plainWrite time body u).same .accounts : (plainWrite time body u).accounts = u.accounts) ▸ ha)
  judge _ h := h

theorem accountsSound_keptByPurchases : KeptByPurchases accountsSound := by
  intro a e origin counter u ha _ hmay _ h
  obtain ⟨hmem, -⟩ := findAccount_some ha
  have hstand : purchasesStand a.number a.purchases u := fun b hb hn => by rw [eq_of_number h.1 hmem hb hn]
  have journaled {p : State → Prop} (hp : KeptByMoney p)
      (reserve : ∀ v w : State, v.accounts = w.accounts → p w → p v) (hu : p u) :
      p (takeReservation (plainWrite u.clock.time (.purchase a.number e.id e.price origin)
        (balanceUpdate a.number e.price 2 u))) :=
    reserve _ _ ((changes_takeReservation _).same .accounts) (hp.write _ _ _ (hp.balanceUpdate hu))
  unfold acceptPurchase
  refine accountsSound_of_accounts ((changes_recompute _ _).same .accounts)
    (accountsSound_of_accounts ((changes_changeEvent _ _ _).same .accounts)
      (accountsSound_changeAccount (fun b hb hn => ⟨rfl, fun hsound => ?_⟩) (journaled accountsSound_keptByMoney (fun _ _ => accountsSound_of_accounts) h)))
  have hpurchases := journaled (purchasesStand_keptByMoney _ _) (fun _ _ heq hw b hb => hw b (heq ▸ hb)) hstand b hb hn
  obtain ⟨hroom, hheld⟩ := hmay
  obtain ⟨hnumber, hport, hbalance, hresidue, hcredited, -, hnodup⟩ := hsound
  refine ⟨hnumber, hport, hbalance, hresidue, hcredited, ?_, ?_⟩
  · dsimp only
    rw [List.length_append, hpurchases]
    exact hroom
  · dsimp only
    rw [List.map_append, List.nodup_append]
    refine ⟨hnodup, List.nodup_singleton _, fun x hx y hy => ?_⟩
    rw [List.mem_singleton.1 hy]
    rintro rfl
    obtain ⟨q, hq, hqe⟩ := List.mem_map.1 hx
    rw [hpurchases] at hq
    exact Bool.eq_false_iff.1 hheld (List.any_eq_true.2 ⟨q, hq, decide_eq_true hqe⟩)

end Sys2Proof.Machine
end

section
/-! SUPPORT. O56: every command keeps the directory, the account records and the bindings. -/

namespace Sys2Proof.Machine

/-! ### Composite commands, for any property -/

section
variable {p : State → Prop}

theorem withAccount_keeps {k : Nat} {own : State → Account → State × Reply}
    (ho : ∀ u a, p u → p (own u a).1) {u : State} (h : p u) : p (withAccount k u (own u)).1 := by
  unfold withAccount
  split
  · exact h
  · split
    · exact h
    · exact ho u _ h

theorem takeSwitchover_keeps
    (quiet : ∀ u v, Changes [.lineup, .carrier, .inputs, .journal, .alarms] u v → p u → p v)
    (taps : ∀ named u, p u → p (switchoverTaps named u)) {b : Nat} {s : State} (h : p s) : p (takeSwitchover b s) := by
  unfold takeSwitchover
  dsimp only
  have recorded : p (convertReservation b (.switchover (switchLineup b s.lineup).active.version)
      { s with lineup := switchLineup b s.lineup }) :=
    quiet s _ (.after_put (changes_convertReservation _ _ _).mono) h
  generalize convertReservation _ _ _ = u at recorded ⊢
  exact foldl_keeps (fun _ _ v hv => quiet v _ (changes_judgeSourceLost _ _).mono hv)
    (taps _ _ (quiet u { u with carrier := { u.carrier with cursor := 0 } } (.of_put rfl) recorded))

theorem mainPowerReturn_keeps {s : State} (cold : p (coldReset s)) (retained : ∀ kind u, p u → p (retainedReset kind u))
    (h : p s) : p (mainPowerReturnStep s) := by
  obtain hr | hr | ⟨-, -, hr⟩ := mainPowerReturnStep_cases s <;> rw [hr]
  · exact h
  · exact cold
  · exact retained _ _ h

theorem resetPin_keeps {s : State} (stop : ∀ u, p u → p (stopClock u)) (retained : ∀ kind u, p u → p (retainedReset kind u))
    (h : p s) : p (resetPinStep s) := by
  obtain hr | ⟨-, hr⟩ := resetPinStep_cases s <;> rw [hr]
  · exact h
  · exact retained _ _ (stop _ h)

theorem outboundFrameDone_keeps {s : State} (choose : p s → p (chooseFrame s)) (stop : ∀ u, p u → p (stopClock u))
    (retained : ∀ kind u, p u → p (retainedReset kind u)) (h : p s) : p (outboundFrameDoneStep s) := by
  obtain hr | hr := outboundFrameDoneStep_cases s <;> rw [hr]
  · exact choose h
  · exact retained _ _ (stop _ h)

end

/-! ### Commands that leave the units and the bindings -/

theorem sameUnits_changeAccount {k : Nat} {f : Account → Account} (hf : ∀ a, bindingKey (f a) = bindingKey a)
    (s : State) : SameUnits s (changeAccount k f s) := by
  refine ⟨forall₂_refl tapAgrees_refl _, rfl, rfl, ?_⟩
  rw [changeAccount_accounts, modifyAccount, List.map_map]
  refine List.map_congr_left fun a _ => ?_
  rw [Function.comp_apply, apply_ite bindingKey, hf, ite_self]

/-- The blocks of the journal, the Event Table and what carries messages. -/
abbrev quietBlocks : List Block :=
  [.meter, .journal, .alarms, .events, .sample, .minuteEnds, .deliveries, .purchases, .carrier, .link]

theorem sameUnits_of_quiet {s t : State} (h : Changes quietBlocks s t) : SameUnits s t :=
  .of_same (h.same .taps) (h.same .transponders) (h.same .sched) (h.same .accounts)

/-- A retained reset, behind the freeing of the records in REMOVING, leaves the units as the directory sees them. -/
theorem sameUnits_retainedReset (kind : ResetKind) (s : State) : SameUnits (passTurn s) (retainedReset kind s) := by
  refine ⟨?_, ?_, rfl, ?_⟩
  · change List.Forall₂ tapAgrees (s.taps.filter (·.state != .removing))
      (((s.taps.filter (·.state != .removing)).map retainedTap).map _)
    rw [List.map_map]
    refine agrees_map fun r hr => ?_
    have hlive : r.state ≠ .removing := by simpa using (List.mem_filter.1 hr).2
    exact ⟨rfl, rfl, rfl, iff_of_false nofun hlive, fun _ => Nat.zero_le _⟩
  · refine Vector.toList_inj.1 ?_
    change ((s.transponders.toList.map retainedTransponder).map unitKey) =
      (s.transponders.toList.map dropRemoving).map unitKey
    rw [List.map_map, List.map_map]
    refine List.map_congr_left fun r _ => Prod.ext rfl ?_
    change decide (UnitState.unknown = .removing) = decide ((dropRemoving r).state = .removing)
    refine decide_eq_decide.2 (iff_of_false nofun ?_)
    unfold dropRemoving
    split
    · exact nofun
    · assumption
  · change (s.accounts.map fun a => { a with latch := .none }).map bindingKey = s.accounts.map bindingKey
    rw [List.map_map]
    rfl

/-- A property of the units and the bindings: it depends on nothing else, and the commands that change them keep it. -/
structure KeptByUnits (p : State → Prop) : Prop where
  same : ∀ s t, SameUnits s t → p s → p t
  rising : ∀ s, p s → rising (s.taps.map (·.address))
  turn : ∀ s, p s → p (passTurn s)
  cold : ∀ s, p (coldReset s)
  tapAdd : ∀ address node model s, p s → p (tapAddStep address node model s).1
  tapRemove : ∀ address s, p s → p (tapRemoveStep address s).1
  transponderSet : ∀ n address s, p s → p (transponderSetStep n address s).1
  accountOpen : ∀ k a port tiers state s, p s → p (accountOpenStep k a port tiers state s).1
  accountClose : ∀ k s, p s → p (accountCloseStep k s).1

section
variable {p : State → Prop} (hp : KeptByUnits p)
include hp

theorem KeptByUnits.money : KeptByMoney p where
  account _ f u hf h := hp.same _ _ (sameUnits_changeAccount (fun a => (hf.1 a).1) u) h
  write _ _ _ h := hp.same _ _ (sameUnits_of_quiet (changes_plainWrite _ _ _).mono) h
  judge _ h := hp.same _ _ (sameUnits_of_quiet (changes_judgeOverflow _).mono) h

theorem KeptByUnits.meter : KeptByMeter p :=
  hp.money.meter (fun _ u h => hp.same u _ (by exact .of_same rfl rfl rfl rfl) h)
    fun _ u h => hp.same u _ (by exact .of_same rfl rfl rfl rfl) h

theorem KeptByUnits.events : KeptByEvents p where
  balance _ _ _ _ := hp.money.balanceUpdate
  drop _ _ u h := hp.same _ _ (sameUnits_changeAccount (by exact fun _ => rfl) u) h
  tap _ u h := hp.same _ _ (sameUnits_recompute _ u) h
  convert _ _ _ h := hp.same _ _ (sameUnits_of_quiet (changes_convertReservation _ _ _).mono) h
  release _ h := hp.same _ _ (sameUnits_of_quiet (changes_releaseReservation _).mono) h
  table _ _ hc h := hp.same _ _ (sameUnits_of_quiet hc.mono) h

theorem KeptByUnits.purchases : KeptByPurchases p := by
  intro a e origin counter u _ _ _ _ h
  have charged := hp.money.write u.clock.time (.purchase a.number e.id e.price origin) _
    (hp.money.balanceUpdate (k := a.number) (amount := e.price) (needed := 2) h)
  have reserved := hp.same _ _ (sameUnits_of_quiet (changes_takeReservation _).mono) charged
  exact hp.events.tap _ _ (hp.events.table _ _ (changes_changeEvent _ _ _).mono
    (hp.same _ _ (sameUnits_changeAccount (by exact fun _ => rfl) _) reserved))

theorem KeptByUnits.accountTiers {k : Nat} {tiers : TierSet} {u : State} (h : p u) :
    p (accountTiersStep k tiers u).1 :=
  withAccount_keeps (own := fun u a =>
    (recompute a.address (changeAccount k (fun r => { r with tiers := tiers }) u), replyOk (tierSet2 tiers)))
    (fun _ _ hu => hp.events.tap _ _ (hp.same _ _ (sameUnits_changeAccount (by exact fun _ => rfl) _) hu)) h

theorem KeptByUnits.accountMove {takenIn : List AccountState} {target : AccountState} {k : Nat} {u : State} (h : p u) :
    p (accountMove takenIn target k u).1 := by
  refine withAccount_keeps (own := fun u a =>
    if takenIn.contains a.state then
      (recompute a.address (changeAccount k (fun r => { r with state := target }) u),
        replyOk (byte1 (accountStateCode target)))
    else (u, refusal .wrongState)) (fun u a hu => ?_) h
  split
  · exact hp.events.tap _ _ (hp.same _ _ (sameUnits_changeAccount (by exact fun _ => rfl) _) hu)
  · exact hu

theorem KeptByUnits.sched {u : State} {sc : Scheduler} (hnext : sc.next = u.sched.next) (h : p u) :
    p { u with sched := sc } :=
  hp.same u _ ⟨forall₂_refl tapAgrees_refl _, rfl, hnext, rfl⟩ h

theorem KeptByUnits.passEnd (u : State) (h : p u) : p (passEnd u) := by
  refine passEnd_keeps (hp.turn u) (fun n _ v hv => hp.same _ _ ?_ hv) h
  exact .of_same ((changes_loseTransponder n v).same .taps) ((changes_loseTransponder n v).same .transponders)
    ((changes_loseTransponder n v).same .sched) ((changes_loseTransponder n v).same .accounts)

theorem KeptByUnits.carrier (c : Carrier) (u : State) (h : p u) : p { u with carrier := c } :=
  hp.same u _ (by exact .of_same rfl rfl rfl rfl) h

theorem KeptByUnits.slotOpen {u : State} (h : p u) : p (slotOpenStep u) :=
  slotOpenStep_keeps hp.carrier (fun _ _ hv => hp.sched rfl hv)
    (fun _ hv => pollOffer_keeps (fun _ _ hw => hp.sched rfl hw) hp.passEnd hv)
    (fun _ _ _ hv => hp.same _ _ (sameUnits_modifySwitch _ _ _) hv) h

theorem KeptByUnits.replyWindow {energy : Bool} {message : Option (List Byte)} {u : State} (h : p u) :
    p (replyWindowCloseStep energy message u) :=
  replyWindowCloseStep_keeps hp.carrier (fun _ v hv => hp.same v _ (by exact .of_same rfl rfl rfl rfl) hv)
    (fun _ _ v hv => hp.sched (u := landReply _ _ _ v) rfl
      (hp.same _ _ (sameUnits_landReply (hp.rising _ hv) _ _ _) hv))
    (fun _ _ _ hv => hp.same _ _ (sameUnits_judgeDelivery _ _ _) hv) h

theorem KeptByUnits.switchover {u : State} (h : p u) : p (switchoverTakeStep u) := by
  have quiet (v w : State) (hc : Changes [.lineup, .carrier, .inputs, .journal, .alarms] v w) (hv : p v) : p w :=
    hp.same _ _ (.of_same (hc.same .taps) (hc.same .transponders) (hc.same .sched) (hc.same .accounts)) hv
  unfold switchoverTakeStep
  split
  · exact h
  · rename_i b rest _
    have taken : p { u with due := { u.due with boundaries := rest } } := hp.same u _ (by exact .of_same rfl rfl rfl rfl) h
    dsimp only
    split
    · exact takeSwitchover_keeps quiet (fun _ _ hv => hp.same _ _ (sameUnits_switchoverTaps _ _) hv) taken
    · exact taken

theorem KeptByUnits.retained (kind : ResetKind) (u : State) (h : p u) : p (retainedReset kind u) :=
  hp.same _ _ (sameUnits_retainedReset kind u) (hp.turn u h)

theorem KeptByUnits.stop (u : State) (h : p u) : p (stopClock u) :=
  hp.same _ _ (.of_same ((changes_stopClock u).same .taps) ((changes_stopClock u).same .transponders)
    ((changes_stopClock u).same .sched) ((changes_stopClock u).same .accounts)) h

theorem KeptByUnits.command (c : Instr) {s : State} (h : p s) : p (commandStep c s) := by
  have request {owner : State → State × Reply} (ho : ∀ u, p u → p (owner u).1) : p (serve c owner s) :=
    serve_keeps (fun u _ h => hp.same u _ (by exact .of_same rfl rfl rfl rfl) h) h ho
  cases c
  case tapAdd => exact request fun _ => hp.tapAdd _ _ _ _
  case tapRemove => exact request fun _ => hp.tapRemove _ _
  case transponderSet => exact request fun _ => hp.transponderSet _ _ _
  case pollOrder =>
    refine request fun u hu => ?_
    unfold pollOrderStep
    split
    · exact hu
    · exact hp.sched rfl hu
  case pollStart =>
    refine request fun u hu => ?_
    unfold pollStartStep
    split
    · exact hu
    · exact hp.sched rfl hu
  case pollSuspend =>
    refine request fun u hu => ?_
    unfold pollSuspendStep
    split
    · exact hp.sched rfl hu
    · exact hu
  case accountOpen => exact request fun _ => hp.accountOpen _ _ _ _ _ _
  case accountTiers => exact request fun _ => hp.accountTiers
  case accountHold => exact request fun _ => hp.accountMove
  case accountResume => exact request fun _ => hp.accountMove
  case accountCut => exact request fun _ => hp.accountMove
  case accountRestore => exact request fun _ => hp.accountMove
  case accountClose => exact request fun _ => hp.accountClose _ _
  case cycleClose => exact request fun _ => hp.money.cycleClose
  case eventCancel => exact request fun _ => hp.events.eventCancel
  case purchaseEnter => exact request fun _ => purchaseEnter_keeps hp.purchases
  case firstPower => exact hp.cold s
  case mainPowerReturn => exact mainPowerReturn_keeps (hp.cold s) hp.retained h
  case resetPin => exact resetPin_keeps hp.stop hp.retained h
  case outboundFrameDone =>
    refine whenRunning_keeps h (outboundFrameDone_keeps (fun hs => ?_) hp.stop hp.retained)
    exact hp.same _ _ (sameUnits_of_quiet (changes_chooseFrame s).mono) hs
  case restartEventStep => exact whenRunning_keeps h hp.events.events.restartEvent
  case meterTallyTake => exact whenRunning_keeps h hp.meter.meterTallyTake
  case eventMinuteEnd => exact whenRunning_keeps h hp.events.events.eventMinuteEnd
  case switchoverTake => exact whenRunning_keeps h hp.switchover
  case slotOpen => exact whenRunning_keeps h hp.slotOpen
  case replyWindowClose => exact whenRunning_keeps h hp.replyWindow
  case purchaseDecide => exact whenRunning_keeps h (purchaseDecide_keeps (fun _ _ hc => hp.events.table _ _ hc.mono) hp.purchases)
  all_goals
    exact hp.same s _ (.of_same ((commandStep_changes _ s).same .taps) ((commandStep_changes _ s).same .transponders)
      ((commandStep_changes _ s).same .sched) ((commandStep_changes _ s).same .accounts)) h

end

/-! ### The directory and the bindings -/

theorem coldReset_units (s : State) : unitsSound (coldReset s) ∧ boundSound (coldReset s) :=
  ⟨directorySound_iff.1 (directorySound_of_empty rfl rfl rfl), bindingsSound_iff.1 (bindingsSound_of_empty rfl rfl)⟩

/-- Binding a port of a live tap, or making one vacant, leaves the directory. -/
theorem unitsSound_bindPort {a p : Nat} {b : Option Nat} {accounts : List Account} {s : State}
    (hlive : b = none ∨ ∀ t ∈ s.taps, t.address = a → t.state ≠ .removing) (hs : unitsSound s) :
    unitsSound (bindPort a p b { s with accounts := accounts }) := by
  refine unitsSound_of_agrees (s := s) ?_ rfl rfl hs
  change List.Forall₂ unitAgrees s.taps (modifyTap a _ s.taps)
  refine List.forall₂_map_right_iff.2 (List.forall₂_same.2 fun r hr => ?_)
  split
  · rename_i ha
    refine ⟨rfl, rfl, Iff.rfl, id, fun hremoving hports x hx => ?_⟩
    obtain rfl | hlive := hlive
    · obtain hx | ⟨y, -, rfl⟩ := mem_vecModify hx
      · exact hports x hx
      · rfl
    · exact absurd hremoving (hlive r hr ha)
  · exact unitAgrees_refl r

/-- What ACCOUNT_OPEN leaves: the state, or the record bound to a vacant port of a live tap and recomputed. -/
theorem accountOpenStep_cases (k a port : Nat) (tiers : TierSet) (state : Nat) (s : State) :
    (accountOpenStep k a port tiers state s).1 = s ∨
      ∃ t account, (accountInRange k = true ∧ (1 ≤ port ∧ port ≤ 4)) ∧ (∃ initial, account = newAccount k a port tiers initial) ∧
        (∀ b ∈ s.accounts, b.number ≠ account.number) ∧ findTap account.address s.taps = some t ∧
        t.state ≠ .removing ∧ vecGet t.ports (account.port - 1) none = none ∧
        (accountOpenStep k a port tiers state s).1 = recompute account.address
          (bindPort account.address account.port (some account.number)
            { s with accounts := insertAccount account s.accounts }) := by
  by_cases inRange : (1 ≤ k ∧ k ≤ 99999999) ∧ (1 ≤ a ∧ a ≤ 16777214) ∧ (1 ≤ port ∧ port ≤ 4) ∧ state ≤ 1
  swap
  · rw [accountOpenStep_outOfRange inRange]
    exact .inl rfl
  rw [accountOpenStep_inRange inRange]
  split
  · exact .inl rfl
  rename_i hfree
  split
  · exact .inl rfl
  rename_i t ht
  split
  · exact .inl rfl
  rename_i hlive
  split
  · exact .inl rfl
  rename_i hvacant
  exact .inr ⟨t, newAccount k a port tiers (initialState state), ⟨accountInRange_iff.2 inRange.1, inRange.2.2.1⟩,
    ⟨_, rfl⟩, fun b hb hn => hfree (findAccount_isSome_iff.2 ⟨b, hb, hn⟩), ht, hlive,
    Option.not_isSome_iff_eq_none.1 hvacant, rfl⟩

/-- What ACCOUNT_CLOSE leaves: the state, or the port vacant, the record freed, the tap recomputed and, for a set
overflow flag, BALANCE_OVERFLOW judged. -/
theorem accountCloseStep_cases (k : Nat) (s : State) :
    (accountCloseStep k s).1 = s ∨
      ∃ account ∈ s.accounts, closeObstacle account = none ∧ ∃ freed, freed = recompute account.address
          (bindPort account.address account.port none
            { s with accounts := s.accounts.filter (·.number != account.number) }) ∧
        (accountCloseStep k s).1 = if account.overflow then judgeOverflow freed else freed := by
  unfold accountCloseStep withAccount
  split
  · exact .inl rfl
  split
  · exact .inl rfl
  rename_i account haccount
  obtain ⟨hmem, rfl⟩ := findAccount_some haccount
  dsimp only
  split
  · exact .inl rfl
  · exact .inr ⟨account, hmem, ‹_›, _, rfl, rfl⟩

/-- Both forms of what ACCOUNT_CLOSE leaves agree in the units with the port made vacant. -/
theorem sameUnits_closed {account : Account} {s freed : State} (h : freed = recompute account.address
    (bindPort account.address account.port none
      { s with accounts := s.accounts.filter (·.number != account.number) })) :
    SameUnits (bindPort account.address account.port none
      { s with accounts := s.accounts.filter (·.number != account.number) })
      (if account.overflow then judgeOverflow freed else freed) := by
  subst h
  split
  · exact (sameUnits_recompute _ _).trans (sameUnits_of_quiet (changes_judgeOverflow _).mono)
  · exact sameUnits_recompute _ _

theorem unitsSound_kept : KeptByUnits unitsSound where
  same _ _ := unitsSound_of_same
  rising _ h := h.1.1
  turn _ := unitsSound_passTurn
  cold s := (coldReset_units s).1
  tapAdd _ _ _ _ := unitsSound_tapAdd
  tapRemove _ _ := unitsSound_tapRemove
  transponderSet _ _ _ := unitsSound_transponderSet
  accountOpen k a port tiers state s h := by
    obtain heq | ⟨t, account, -, -, -, ht, hlive, -, heq⟩ := accountOpenStep_cases k a port tiers state s <;> rw [heq]
    · exact h
    · obtain ⟨htmem, hta⟩ := findTap_some ht
      refine unitsSound_of_same (sameUnits_recompute _ _) (unitsSound_bindPort (.inr fun r hr ha => ?_) h)
      rwa [eq_of_address h.1.1 htmem hr (ha.trans hta.symm)]
  accountClose k s h := by
    obtain heq | ⟨account, -, -, freed, hfreed, heq⟩ := accountCloseStep_cases k s <;> rw [heq]
    · exact h
    · exact unitsSound_of_same (sameUnits_closed hfreed) (unitsSound_bindPort (.inl rfl) h)

theorem modifyTap_ports {a : Nat} {f : TapRec → TapRec} {taps : List TapRec} {q : TapRec} (h : q ∈ modifyTap a f taps) :
    ∃ r ∈ taps, q = r ∨ (r.address = a ∧ q = f r) := by
  obtain ⟨r, hr, rfl⟩ := List.mem_map.1 h
  refine ⟨r, hr, ?_⟩
  split
  · exact .inr ⟨‹_›, rfl⟩
  · exact .inl rfl

theorem boundSound_tapAdd {address node model : Nat} {s : State} (hs : boundSound s) :
    boundSound (tapAddStep address node model s).1 := by
  rw [tapAddStep_eq]
  split
  · exact hs
  split
  · exact hs
  rename_i free
  split
  · exact hs
  obtain ⟨hfree, -⟩ := not_or.1 free
  obtain ⟨hnumbers, haddresses, hbound, hnamed, hremoving⟩ := hs
  generalize hnew : newTap address node (modelNamed model) = new
  have haddress : new.address = address := hnew ▸ rfl
  have hports : new.ports = Vector.replicate 4 none := hnew ▸ rfl
  have taps {q : TapRec} : q ∈ insertTap new s.taps ↔ q = new ∨ q ∈ s.taps := by
    rw [insertTap_eq, mem_insertKeyed]
  have vacant {x : Option Nat} (hx : x ∈ new.ports.toList) : x = none := by
    rw [hports] at hx
    exact mem_replicate_toList hx
  refine ⟨hnumbers, ?_, fun b hb => ?_, fun q hq p hp k hk => ?_, fun q hq hstate => ?_⟩
  · change rising ((insertTap new s.taps).map (·.address))
    rw [insertTap_eq]
    exact rising_insertKeyed haddresses fun q hq h => hfree ⟨q, hq, h.trans haddress⟩
  · obtain ⟨hp, t, ht, hrest⟩ := hbound b hb
    exact ⟨hp, t, taps.2 (.inr ht), hrest⟩
  · obtain rfl | hq := taps.1 hq
    · exact nomatch vacant (mem_ports hk)
    · exact hnamed q hq p hp k hk
  · obtain rfl | hq := taps.1 hq
    · exact fun x hx => vacant hx
    · exact hremoving q hq hstate

theorem boundSound_tapRemove {address : Nat} {s : State} (hs : boundSound s) :
    boundSound (tapRemoveStep address s).1 := by
  by_cases inRange : 1 ≤ address ∧ address ≤ 16777214
  swap
  · rw [tapRemoveStep_outOfRange inRange]
    exact hs
  rw [tapRemoveStep_inRange inRange]
  split
  · exact hs
  rename_i t ht
  split
  · exact hs
  rename_i hfree
  obtain ⟨hlive, hvacant⟩ := not_or.1 (mt removal_blocked_iff.2 hfree)
  obtain ⟨htmem, rfl⟩ := findTap_some ht
  dsimp only
  rw [setTapState_of_ne hlive]
  refine boundSound_of_same ((sameUnits_of_nodes (changes_reevaluate _ _)).trans (sameUnits_withdraw _ _)) ?_
  obtain ⟨hnumbers, haddresses, hbound, hnamed, hremoving⟩ := hs
  have record {q : TapRec} (hq : q ∈ modifyTap t.address (fun r => { r with state := .removing }) s.taps) :
      ∃ r ∈ s.taps, q.address = r.address ∧ q.ports = r.ports ∧ (q = r ∨ r.address = t.address) := by
    obtain ⟨r, hr, rfl | ⟨ha, rfl⟩⟩ := modifyTap_ports hq
    · exact ⟨q, hr, rfl, rfl, .inl rfl⟩
    · exact ⟨r, hr, rfl, rfl, .inr ha⟩
  refine ⟨hnumbers, ?_, fun b hb => ?_, fun q hq p hp k hk => ?_, fun q hq hstate => ?_⟩
  · exact (modifyTap_addresses t.address (fun r => { r with state := .removing }) (fun _ => rfl) s.taps).symm ▸ haddresses
  · obtain ⟨hp, r, hr, ha, hk⟩ := hbound b hb
    refine ⟨hp, r, List.mem_map.2 ⟨r, hr, if_neg fun hra => ?_⟩, ha, hk⟩
    rw [eq_of_address haddresses htmem hr hra] at hk
    exact hvacant ⟨_, mem_ports hk, nofun⟩
  · obtain ⟨r, hr, ha, hports, -⟩ := record hq
    rw [hports] at hk
    rw [ha]
    exact hnamed r hr p hp k hk
  · obtain ⟨r, hr, -, hports, rfl | ha⟩ := record hq
    · exact hremoving q hr hstate
    · rw [hports, eq_of_address haddresses htmem hr ha]
      exact fun x hx => by_contra fun h => hvacant ⟨x, hx, h⟩

theorem boundSound_of_bindings {s t : State} (htaps : t.taps = s.taps) (haccounts : t.accounts = s.accounts)
    (h : boundSound s) : boundSound t := by
  unfold boundSound portNames at h ⊢
  rwa [htaps, haccounts]

theorem boundSound_kept : KeptByUnits boundSound where
  same _ _ := boundSound_of_same
  rising _ h := h.2.1
  turn _ := boundSound_passTurn
  cold s := (coldReset_units s).2
  tapAdd _ _ _ _ := boundSound_tapAdd
  tapRemove _ _ := boundSound_tapRemove
  transponderSet n address s h := boundSound_of_bindings ((changes_transponderSetStep n address s).same .taps)
    ((changes_transponderSetStep n address s).same .accounts) h
  accountOpen k a port tiers state s h := by
    obtain heq | ⟨t, account, ⟨-, hp⟩, ⟨initial, rfl⟩, hfree, ht, hlive, hvacant, heq⟩ :=
      accountOpenStep_cases k a port tiers state s <;> rw [heq]
    · exact h
    · exact boundSound_of_same (sameUnits_recompute _ _) (boundSound_accountOpened h hfree ht hlive hp hvacant)
  accountClose k s h := by
    obtain heq | ⟨account, hmem, -, freed, hfreed, heq⟩ := accountCloseStep_cases k s <;> rw [heq]
    · exact h
    · exact boundSound_of_same (sameUnits_closed hfreed) (boundSound_accountClosed h hmem)

/-! ### The account records -/

theorem accountsSound_accountMove {takenIn : List AccountState} {target : AccountState} {k : Nat} {s : State}
    (h : accountsSound s) : accountsSound (accountMove takenIn target k s).1 := by
  refine withAccount_keeps (own := fun u a =>
    if takenIn.contains a.state then
      (recompute a.address (changeAccount k (fun r => { r with state := target }) u),
        replyOk (byte1 (accountStateCode target)))
    else (u, refusal .wrongState)) (fun u a hu => ?_) h
  split
  · exact accountsSound_keptByEvents.tap _ _ (accountsSound_withinRecord (by exact fun _ => ⟨rfl, id⟩) hu)
  · exact hu

theorem accountsSound_accountTiers {k : Nat} {tiers : TierSet} {s : State} (h : accountsSound s) :
    accountsSound (accountTiersStep k tiers s).1 :=
  withAccount_keeps (own := fun u a =>
    (recompute a.address (changeAccount k (fun r => { r with tiers := tiers }) u), replyOk (tierSet2 tiers)))
    (fun _ _ hu => accountsSound_keptByEvents.tap _ _ (accountsSound_withinRecord (by exact fun _ => ⟨rfl, id⟩) hu)) h

theorem accountsSound_accountOpen {k a port : Nat} {tiers : TierSet} {state : Nat} {s : State} (h : accountsSound s) :
    accountsSound (accountOpenStep k a port tiers state s).1 := by
  obtain heq | ⟨t, account, ⟨hk, hp⟩, ⟨initial, rfl⟩, hfree, -, -, -, heq⟩ :=
    accountOpenStep_cases k a port tiers state s <;> rw [heq]
  · exact h
  refine accountsSound_keptByEvents.tap _ _ ?_
  generalize hnew : newAccount k a port tiers initial = new at hfree ⊢
  have sound : accountSound new :=
    hnew ▸ ⟨hk, hp, by simp [newAccount], Nat.zero_le _, Nat.zero_le _, Nat.zero_le _, .nil⟩
  obtain ⟨hrising, hsound⟩ := h
  refine ⟨?_, fun b hb => ?_⟩
  · change rising ((insertAccount new s.accounts).map (·.number))
    rw [insertAccount_eq]
    exact rising_insertKeyed hrising hfree
  · have hb : b ∈ insertAccount new s.accounts := hb
    rw [insertAccount_eq] at hb
    obtain rfl | hb := mem_insertKeyed.1 hb
    · exact sound
    · exact hsound b hb

theorem accountsSound_accountClose {k : Nat} {s : State} (h : accountsSound s) :
    accountsSound (accountCloseStep k s).1 := by
  obtain heq | ⟨account, -, -, freed, rfl, heq⟩ := accountCloseStep_cases k s <;> rw [heq]
  · exact h
  obtain ⟨hrising, hsound⟩ := h
  have freed : accountsSound (bindPort account.address account.port none
      { s with accounts := s.accounts.filter (·.number != account.number) }) :=
    ⟨hrising.sublist (List.filter_sublist.map _), fun b hb => hsound b (List.mem_of_mem_filter hb)⟩
  have recomputed := accountsSound_keptByEvents.tap account.address _ freed
  split
  · exact accountsSound_keptByMoney.judge _ recomputed
  · exact recomputed

theorem accountsSound_retained (kind : ResetKind) (s : State) (h : accountsSound s) :
    accountsSound (retainedReset kind s) := by
  obtain ⟨hrising, hsound⟩ := h
  refine ⟨?_, fun b hb => ?_⟩
  · change rising ((s.accounts.map fun a => { a with latch := .none }).map (·.number))
    rw [List.map_map]
    exact hrising
  · obtain ⟨a, ha, rfl⟩ := List.mem_map.1 (show b ∈ s.accounts.map fun a => { a with latch := .none } from hb)
    exact hsound a ha

theorem accountsSound_stop (s : State) (h : accountsSound s) : accountsSound (stopClock s) :=
  accountsSound_of_accounts ((changes_stopClock s).same .accounts) h

theorem commandStep_accountsSound (c : Instr) {s : State} (h : accountsSound s) : accountsSound (commandStep c s) := by
  have request {owner : State → State × Reply} (ho : ∀ u, accountsSound u → accountsSound (owner u).1) :
      accountsSound (serve c owner s) := serve_keeps (p := accountsSound) (fun _ _ h => h) h ho
  have cold : accountsSound (coldReset s) := accountsSound_of_empty rfl
  cases c
  case accountOpen => exact request fun _ => accountsSound_accountOpen
  case accountTiers => exact request fun _ => accountsSound_accountTiers
  case accountHold => exact request fun _ => accountsSound_accountMove
  case accountResume => exact request fun _ => accountsSound_accountMove
  case accountCut => exact request fun _ => accountsSound_accountMove
  case accountRestore => exact request fun _ => accountsSound_accountMove
  case accountClose => exact request fun _ => accountsSound_accountClose
  case cycleClose => exact request fun _ => accountsSound_keptByMoney.cycleClose
  case eventCancel => exact request fun _ => accountsSound_keptByEvents.eventCancel
  case purchaseEnter => exact request fun _ => purchaseEnter_keeps accountsSound_keptByPurchases
  case firstPower => exact cold
  case mainPowerReturn => exact mainPowerReturn_keeps cold accountsSound_retained h
  case resetPin => exact resetPin_keeps accountsSound_stop accountsSound_retained h
  case outboundFrameDone =>
    exact whenRunning_keeps h (outboundFrameDone_keeps
      (accountsSound_of_accounts ((changes_chooseFrame s).same .accounts)) accountsSound_stop accountsSound_retained)
  case restartEventStep => exact whenRunning_keeps h accountsSound_keptByEvents.events.restartEvent
  case meterTallyTake => exact whenRunning_keeps h (accountsSound_keptByMoney.meter (fun _ _ h => h) fun _ _ h => h).meterTallyTake
  case eventMinuteEnd => exact whenRunning_keeps h accountsSound_keptByEvents.events.eventMinuteEnd
  case purchaseDecide =>
    exact whenRunning_keeps h (purchaseDecide_keeps
      (fun _ _ hc => accountsSound_of_accounts (hc.same .accounts)) accountsSound_keptByPurchases)
  all_goals exact accountsSound_of_accounts ((commandStep_changes _ s).same .accounts) h

/-- Settles O56: the directory and the bindings, record by record, and the account records, each kept by every
command. -/
theorem directoryAndAccountsStaySound : Obligations.DirectoryAndAccountsStaySound := by
  intro s t h
  refine ⟨fun hs => ?_, fun hs => ?_, fun hs => ?_⟩
  · exact directorySound_iff.2 (step_keeps (p := unitsSound) (fun _ _ h => h) (fun c _ _ => unitsSound_kept.command c) h
      (directorySound_iff.1 hs))
  · exact step_keeps (p := accountsSound) (fun _ _ h => h) (fun c _ _ => commandStep_accountsSound c) h hs
  · exact bindingsSound_iff.2 (step_keeps (p := boundSound) (fun _ _ h => h) (fun c _ _ => boundSound_kept.command c) h
      (bindingsSound_iff.1 hs))

end Sys2Proof.Machine
end

section
/-! SUPPORT. Open purchases against holders lists: what reservationsSound reads of a state, and what changes of an account's
or an event's list make of it. -/

namespace Sys2Proof.Machine

/-! ### Keyed lists -/

/-- The entries keyed `k` changed by `g`. -/
def modifyKey {β : Type} (k : Nat) (g : β → β) (xs : List (Nat × β)) : List (Nat × β) :=
  xs.map fun x => if x.1 = k then (k, g x.2) else x

theorem mem_modifyKey {β : Type} {k : Nat} {g : β → β} {xs : List (Nat × β)} {y : Nat × β} :
    y ∈ modifyKey k g xs ↔ (y ∈ xs ∧ y.1 ≠ k) ∨ ∃ v, (k, v) ∈ xs ∧ y = (k, g v) := by
  unfold modifyKey
  rw [List.mem_map]
  constructor
  · rintro ⟨⟨n, v⟩, hx, rfl⟩
    by_cases hn : n = k
    · subst hn
      exact .inr ⟨v, hx, if_pos rfl⟩
    · dsimp only
      rw [if_neg hn]
      exact .inl ⟨hx, hn⟩
  · rintro (⟨hy, hn⟩ | ⟨v, hv, rfl⟩)
    · exact ⟨y, hy, if_neg hn⟩
    · exact ⟨(k, v), hv, if_pos rfl⟩

theorem modifyKey_keys {β : Type} (k : Nat) (g : β → β) (xs : List (Nat × β)) :
    (modifyKey k g xs).map (·.1) = xs.map (·.1) := by
  unfold modifyKey
  rw [List.map_map]
  refine List.map_congr_left fun x _ => ?_
  dsimp only [Function.comp_apply]
  split
  · exact Eq.symm ‹_›
  · rfl

theorem eq_of_key {β : Type} {xs : List (Nat × β)} (h : rising (xs.map (·.1))) {k : Nat} {v w : β} (hv : (k, v) ∈ xs)
    (hw : (k, w) ∈ xs) : v = w := by
  have hnodup : (xs.map (·.1)).Nodup := h.imp fun hlt => Nat.ne_of_lt hlt
  exact congrArg Prod.snd (List.inj_on_of_nodup_map hnodup hv hw rfl)

theorem modifyKey_of_absent {β : Type} {k : Nat} (g : β → β) {xs : List (Nat × β)} (h : ∀ x ∈ xs, x.1 ≠ k) :
    modifyKey k g xs = xs := by
  unfold modifyKey
  conv_rhs => rw [← List.map_id xs]
  exact List.map_congr_left fun x hx => if_neg (h x hx)

/-! ### Purchases and holders -/

/-- The lists of purchases by account and of holders by event describe the same purchases. -/
def holdersMatch (lists : List (Nat × List OpenPurchase)) (table : List (Nat × List Nat)) : Prop :=
  rising (lists.map (·.1)) ∧ rising (table.map (·.1)) ∧
    (∀ a ∈ lists, (a.2.map (·.event)).Nodup ∧ ∀ p ∈ a.2, ∃ e ∈ table, e.1 = p.event ∧ a.1 ∈ e.2) ∧
    ∀ e ∈ table, e.2.Nodup ∧ ∀ k ∈ e.2, ∃ a ∈ lists, a.1 = k ∧ ∃ p ∈ a.2, p.event = e.1

/-- How many purchases the lists hold. -/
def purchaseCount (lists : List (Nat × List OpenPurchase)) : Nat := (lists.map (·.2.length)).sum

/-- The purchase lists of a state by account, and its holders lists by event. -/
def listsOf (s : State) : List (Nat × List OpenPurchase) := s.accounts.map fun a => (a.number, a.purchases)

def tableOf (s : State) : List (Nat × List Nat) := s.events.map fun e => (e.id, e.holders)

theorem mem_listsOf {s : State} {x : Nat × List OpenPurchase} :
    x ∈ listsOf s ↔ ∃ a ∈ s.accounts, (a.number, a.purchases) = x := List.mem_map

theorem mem_tableOf {s : State} {x : Nat × List Nat} : x ∈ tableOf s ↔ ∃ e ∈ s.events, (e.id, e.holders) = x := List.mem_map

theorem holdersSound_iff {s : State} : holdersSound s ↔ holdersMatch (listsOf s) (tableOf s) := by
  have inLists {q : Nat × List OpenPurchase → Prop} :
      (∃ x ∈ listsOf s, q x) ↔ ∃ a ∈ s.accounts, q (a.number, a.purchases) := by
    simp only [listsOf, List.mem_map, exists_exists_and_eq_and]
  have inTable {q : Nat × List Nat → Prop} : (∃ x ∈ tableOf s, q x) ↔ ∃ e ∈ s.events, q (e.id, e.holders) := by
    simp only [tableOf, List.mem_map, exists_exists_and_eq_and]
  unfold holdersSound holdersMatch
  simp only [inLists, inTable]
  simp only [listsOf, tableOf, List.map_map, List.forall_mem_map]
  exact Iff.rfl

/-- The reservations that a scheduled switchover holds. -/
def scheduleHolds (l : Lineup) : Nat := if l.scheduled.isSome then 1 else 0

theorem reservationsSound_iff {s : State} : reservationsSound s ↔ holdersMatch (listsOf s) (tableOf s) ∧
    s.journal.reserved = purchaseCount (listsOf s) + scheduleHolds s.lineup := by
  have hcount : openPurchases s = purchaseCount (listsOf s) := by
    unfold openPurchases purchaseCount listsOf
    rw [List.map_map]
    rfl
  rw [reservationsSound, holdersSound_iff, hcount]
  rfl

/-- From `s` to `t` the purchase lists, the holders lists, the reservations and whether a switchover is scheduled
stand. -/
def SameHolders (s t : State) : Prop :=
  listsOf t = listsOf s ∧ tableOf t = tableOf s ∧ t.journal.reserved = s.journal.reserved ∧
    scheduleHolds t.lineup = scheduleHolds s.lineup

theorem SameHolders.trans {s t u : State} (h : SameHolders s t) (k : SameHolders t u) : SameHolders s u := by
  obtain ⟨hl, ht, hr, hs⟩ := h
  obtain ⟨kl, kt, kr, ks⟩ := k
  exact ⟨kl.trans hl, kt.trans ht, kr.trans hr, ks.trans hs⟩

theorem SameHolders.of_same {s t : State} (ha : t.accounts = s.accounts) (he : t.events = s.events)
    (hr : t.journal.reserved = s.journal.reserved) (hl : t.lineup = s.lineup) : SameHolders s t := by
  unfold SameHolders listsOf tableOf
  rw [ha, he, hr, hl]
  exact ⟨rfl, rfl, rfl, rfl⟩

theorem reservationsSound_of_same {s t : State} (h : SameHolders s t) (hs : reservationsSound s) :
    reservationsSound t := by
  obtain ⟨hl, ht, hr, hsched⟩ := h
  rw [reservationsSound_iff] at hs ⊢
  rwa [hl, ht, hr, hsched]

theorem purchaseCount_modifyKey {lists : List (Nat × List OpenPurchase)} (h : rising (lists.map (·.1))) {k : Nat}
    {ps : List OpenPurchase} (hk : (k, ps) ∈ lists) (g : List OpenPurchase → List OpenPurchase) :
    purchaseCount (modifyKey k g lists) + ps.length = purchaseCount lists + (g ps).length := by
  induction lists with
  | nil => cases hk
  | cons x xs ih =>
    obtain ⟨later, hxs⟩ := List.pairwise_cons.1 h
    have hcons (y : Nat × List OpenPurchase) (ys : List (Nat × List OpenPurchase)) :
        purchaseCount (y :: ys) = y.2.length + purchaseCount ys := rfl
    have hmod : modifyKey k g (x :: xs) = (if x.1 = k then (k, g x.2) else x) :: modifyKey k g xs := rfl
    obtain heq | hk := List.mem_cons.1 hk
    · subst heq
      have : modifyKey k g xs = xs := modifyKey_of_absent g fun y hy =>
        Nat.ne_of_gt (later _ (List.mem_map_of_mem hy))
      rw [hmod, if_pos rfl, this, hcons, hcons]
      dsimp only
      omega
    · have hne : x.1 ≠ k := Nat.ne_of_lt (later _ (List.mem_map_of_mem hk))
      have := ih hxs hk
      rw [hmod, if_neg hne, hcons, hcons]
      omega

section
variable {lists : List (Nat × List OpenPurchase)} {table : List (Nat × List Nat)}

/-- A purchase bought: it joins the account's list, and the account the event's. -/
theorem holdersMatch_bought (h : holdersMatch lists table) {k id : Nat} {ps : List OpenPurchase} {hs : List Nat}
    (hk : (k, ps) ∈ lists) (he : (id, hs) ∈ table) {p : OpenPurchase} (hp : p.event = id)
    (hnew : ∀ q ∈ ps, q.event ≠ id) :
    holdersMatch (modifyKey k (· ++ [p]) lists) (modifyKey id (· ++ [k]) table) := by
  obtain ⟨hlists, htable, hbought, hheld⟩ := h
  have unheld : k ∉ hs := fun hmem => by
    obtain ⟨-, hholders⟩ := hheld _ he
    obtain ⟨⟨n, qs⟩, ha, rfl, q, hq, hqe⟩ := hholders k hmem
    exact hnew q (eq_of_key hlists ha hk ▸ hq) hqe
  have raised {e : Nat × List Nat} (hmem : e ∈ table) :
      ∃ e' ∈ modifyKey id (· ++ [k]) table, e'.1 = e.1 ∧ ∀ x ∈ e.2, x ∈ e'.2 := by
    obtain ⟨n, xs⟩ := e
    by_cases hn : n = id
    · subst hn
      exact ⟨_, mem_modifyKey.2 (.inr ⟨xs, hmem, rfl⟩), rfl, fun x hx => List.mem_append_left _ hx⟩
    · exact ⟨_, mem_modifyKey.2 (.inl ⟨hmem, hn⟩), rfl, fun _ hx => hx⟩
  have longer {a : Nat × List OpenPurchase} (hmem : a ∈ lists) :
      ∃ a' ∈ modifyKey k (· ++ [p]) lists, a'.1 = a.1 ∧ ∀ x ∈ a.2, x ∈ a'.2 := by
    obtain ⟨n, xs⟩ := a
    by_cases hn : n = k
    · subst hn
      exact ⟨_, mem_modifyKey.2 (.inr ⟨xs, hmem, rfl⟩), rfl, fun x hx => List.mem_append_left _ hx⟩
    · exact ⟨_, mem_modifyKey.2 (.inl ⟨hmem, hn⟩), rfl, fun _ hx => hx⟩
  have bought {a : Nat × List OpenPurchase} (ha : a ∈ lists) {q : OpenPurchase} (hq : q ∈ a.2) :
      ∃ e ∈ modifyKey id (· ++ [k]) table, e.1 = q.event ∧ a.1 ∈ e.2 := by
    obtain ⟨e, hemem, heq, hin⟩ := (hbought a ha).2 q hq
    obtain ⟨e', he', hid, hsub⟩ := raised hemem
    exact ⟨e', he', hid.trans heq, hsub _ hin⟩
  have held {e : Nat × List Nat} (hemem : e ∈ table) {x : Nat} (hx : x ∈ e.2) :
      ∃ a ∈ modifyKey k (· ++ [p]) lists, a.1 = x ∧ ∃ q ∈ a.2, q.event = e.1 := by
    obtain ⟨a, ha, hax, q, hq, hqe⟩ := (hheld e hemem).2 x hx
    obtain ⟨a', ha', hn, hsub⟩ := longer ha
    exact ⟨a', ha', hn.trans hax, q, hsub _ hq, hqe⟩
  refine ⟨modifyKey_keys k _ lists ▸ hlists, modifyKey_keys id _ table ▸ htable, fun a ha => ?_, fun e hemem => ?_⟩
  · obtain ⟨ha, -⟩ | ⟨qs, hqs, rfl⟩ := mem_modifyKey.1 ha
    · exact ⟨(hbought a ha).1, fun q hq => bought ha hq⟩
    · obtain rfl := eq_of_key hlists hk hqs
      refine ⟨?_, fun q hq => ?_⟩
      · dsimp only
        rw [List.map_append, List.nodup_append]
        refine ⟨(hbought _ hk).1, List.nodup_singleton _, fun x hx y hy => ?_⟩
        obtain ⟨q, hq, rfl⟩ := List.mem_map.1 hx
        rw [List.mem_singleton.1 hy]
        exact (hnew q hq).trans_eq hp.symm
      · obtain hq | hq := List.mem_append.1 hq
        · exact bought hk hq
        · rw [List.mem_singleton.1 hq, hp]
          exact ⟨_, mem_modifyKey.2 (.inr ⟨hs, he, rfl⟩), rfl, List.mem_append_right _ (List.mem_singleton_self k)⟩
  · obtain ⟨hemem, -⟩ | ⟨xs, hxs, rfl⟩ := mem_modifyKey.1 hemem
    · exact ⟨(hheld e hemem).1, fun x hx => held hemem hx⟩
    · obtain rfl := eq_of_key htable he hxs
      refine ⟨?_, fun x hx => ?_⟩
      · refine List.nodup_append.2 ⟨(hheld _ he).1, List.nodup_singleton _, fun x hx y hy => ?_⟩
        rw [List.mem_singleton.1 hy]
        rintro rfl
        exact unheld hx
      · obtain hx | hx := List.mem_append.1 hx
        · exact held he hx
        · rw [List.mem_singleton.1 hx]
          exact ⟨_, mem_modifyKey.2 (.inr ⟨ps, hk, rfl⟩), rfl, p, List.mem_append_right _ (List.mem_singleton_self p), hp⟩

/-- A purchase ended: it leaves the account's list, and the account, first in the event's list, leaves that. -/
theorem holdersMatch_dropped {k id : Nat} {rest : List Nat} (h : holdersMatch lists (modifyKey id (fun _ => k :: rest) table))
    (hid : ∃ hs, (id, hs) ∈ table) :
    holdersMatch (modifyKey k (fun ps => ps.filter (·.event != id)) lists) (modifyKey id (fun _ => rest) table) := by
  obtain ⟨hlists, htable, hbought, hheld⟩ := h
  obtain ⟨hs, he⟩ := hid
  have htable' : rising (table.map (·.1)) := modifyKey_keys id (fun _ => k :: rest) table ▸ htable
  have hfirst : (id, k :: rest) ∈ modifyKey id (fun _ => k :: rest) table := mem_modifyKey.2 (.inr ⟨hs, he, rfl⟩)
  have hnodup : (k :: rest).Nodup := (hheld _ hfirst).1
  -- a holder other than k is in `rest`, and other events keep their holders
  have kept {e : Nat × List Nat} (hemem : e ∈ modifyKey id (fun _ => k :: rest) table) {x : Nat} (hx : x ∈ e.2)
      (hne : e.1 = id → x ≠ k) : ∃ e' ∈ modifyKey id (fun _ => rest) table, e'.1 = e.1 ∧ x ∈ e'.2 := by
    obtain ⟨hemem, hn⟩ | ⟨v, hv, rfl⟩ := mem_modifyKey.1 hemem
    · exact ⟨e, mem_modifyKey.2 (.inl ⟨hemem, hn⟩), rfl, hx⟩
    · refine ⟨_, mem_modifyKey.2 (.inr ⟨v, hv, rfl⟩), rfl, ?_⟩
      exact (List.mem_cons.1 hx).resolve_left (hne rfl)
  have holds {e : Nat × List Nat} (hemem : e ∈ modifyKey id (fun _ => k :: rest) table) {x : Nat} (hx : x ∈ e.2)
      (hne : e.1 = id → x ≠ k) :
      ∃ a ∈ modifyKey k (fun ps => ps.filter (·.event != id)) lists, a.1 = x ∧ ∃ q ∈ a.2, q.event = e.1 := by
    obtain ⟨⟨n, qs⟩, ha, rfl, q, hq, hqe⟩ := (hheld e hemem).2 x hx
    by_cases hn : n = k
    · subst hn
      refine ⟨_, mem_modifyKey.2 (.inr ⟨qs, ha, rfl⟩), rfl, q, List.mem_filter.2 ⟨hq, ?_⟩, hqe⟩
      rw [bne_iff_ne, hqe]
      exact fun heq => hne heq rfl
    · exact ⟨_, mem_modifyKey.2 (.inl ⟨ha, hn⟩), rfl, q, hq, hqe⟩
  refine ⟨modifyKey_keys k _ lists ▸ hlists, modifyKey_keys id _ table ▸ htable', fun a ha => ?_, fun e hemem => ?_⟩
  · obtain ⟨ha, hn⟩ | ⟨qs, hqs, rfl⟩ := mem_modifyKey.1 ha
    · refine ⟨(hbought a ha).1, fun q hq => ?_⟩
      obtain ⟨e, hemem, heq, hin⟩ := (hbought a ha).2 q hq
      obtain ⟨e', he', hid, hin'⟩ := kept hemem hin fun _ => hn
      exact ⟨e', he', hid.trans heq, hin'⟩
    · refine ⟨(hbought _ hqs).1.sublist (List.filter_sublist.map _), fun q hq => ?_⟩
      obtain ⟨hq, hqe⟩ := List.mem_filter.1 hq
      obtain ⟨e, hemem, heq, hin⟩ := (hbought _ hqs).2 q hq
      obtain ⟨e', he', hid, hin'⟩ := kept hemem hin fun h => absurd (heq.symm.trans h) (by simpa using hqe)
      exact ⟨e', he', hid.trans heq, hin'⟩
  · obtain ⟨hemem, hn⟩ | ⟨v, hv, rfl⟩ := mem_modifyKey.1 hemem
    · have hemem' : e ∈ modifyKey id (fun _ => k :: rest) table := mem_modifyKey.2 (.inl ⟨hemem, hn⟩)
      exact ⟨(hheld e hemem').1, fun x hx => holds hemem' hx fun h => absurd h hn⟩
    · refine ⟨hnodup.of_cons, fun x hx => holds hfirst (.tail _ hx) fun _ h => ?_⟩
      exact (List.nodup_cons.1 hnodup).1 (h ▸ hx)

/-- An event without holders is freed. -/
theorem holdersMatch_freed {id : Nat} (h : holdersMatch lists (modifyKey id (fun _ => []) table)) :
    holdersMatch lists (table.filter (·.1 != id)) := by
  obtain ⟨hlists, htable, hbought, hheld⟩ := h
  have htable' : rising (table.map (·.1)) := modifyKey_keys id (fun _ => []) table ▸ htable
  have others {e : Nat × List Nat} : e ∈ table.filter (·.1 != id) ↔ e ∈ table ∧ e.1 ≠ id := by
    rw [List.mem_filter, bne_iff_ne]
  refine ⟨hlists, htable'.sublist (List.filter_sublist.map _), fun a ha => ⟨(hbought a ha).1, fun q hq => ?_⟩,
    fun e hemem => hheld e (mem_modifyKey.2 (.inl (others.1 hemem)))⟩
  obtain ⟨e, hemem, heq, hin⟩ := (hbought a ha).2 q hq
  obtain hemem | ⟨v, -, rfl⟩ := mem_modifyKey.1 hemem
  · exact ⟨e, others.2 hemem, heq, hin⟩
  · cases hin

/-- An entry with an empty list joins either side. -/
theorem holdersMatch_opened (h : holdersMatch lists table) {k : Nat} {lists' : List (Nat × List OpenPurchase)}
    (hrising : rising (lists'.map (·.1))) (hmem : ∀ x, x ∈ lists' ↔ x = (k, []) ∨ x ∈ lists) :
    holdersMatch lists' table := by
  obtain ⟨-, htable, hbought, hheld⟩ := h
  refine ⟨hrising, htable, fun a ha => ?_, fun e he => ⟨(hheld e he).1, fun x hx => ?_⟩⟩
  · obtain rfl | ha := (hmem a).1 ha
    · exact ⟨.nil, List.forall_mem_nil _⟩
    · exact hbought a ha
  · obtain ⟨a, ha, hrest⟩ := (hheld e he).2 x hx
    exact ⟨a, (hmem a).2 (.inr ha), hrest⟩

theorem holdersMatch_added (h : holdersMatch lists table) {id : Nat} {table' : List (Nat × List Nat)}
    (hrising : rising (table'.map (·.1))) (hmem : ∀ x, x ∈ table' ↔ x = (id, []) ∨ x ∈ table) :
    holdersMatch lists table' := by
  obtain ⟨hlists, -, hbought, hheld⟩ := h
  refine ⟨hlists, hrising, fun a ha => ⟨(hbought a ha).1, fun p hp => ?_⟩, fun e he => ?_⟩
  · obtain ⟨e, he, hrest⟩ := (hbought a ha).2 p hp
    exact ⟨e, (hmem e).2 (.inr he), hrest⟩
  · obtain rfl | he := (hmem e).1 he
    · exact ⟨.nil, List.forall_mem_nil _⟩
    · exact hheld e he

/-- An account without purchases is closed. -/
theorem holdersMatch_closed (h : holdersMatch lists table) {k : Nat} (hk : (k, []) ∈ lists) :
    holdersMatch (lists.filter (·.1 != k)) table := by
  obtain ⟨hlists, htable, hbought, hheld⟩ := h
  refine ⟨hlists.sublist (List.filter_sublist.map _), htable, fun a ha => hbought a (List.mem_of_mem_filter ha),
    fun e he => ⟨(hheld e he).1, fun x hx => ?_⟩⟩
  obtain ⟨⟨n, ps⟩, ha, hax, p, hp, hpe⟩ := (hheld e he).2 x hx
  refine ⟨_, List.mem_filter.2 ⟨ha, bne_iff_ne.2 ?_⟩, hax, p, hp, hpe⟩
  rintro rfl
  rw [eq_of_key hlists ha hk] at hp
  cases hp

end

end Sys2Proof.Machine
end

section
/-! SUPPORT. O57: every command keeps the reservations equal to the open purchases plus a scheduled switchover, and the
journal within its bound and its numbering. -/

namespace Sys2Proof.Machine

/-! ### What operations make of the lists -/

theorem listsOf_changeAccount {k : Nat} {f : Account → Account} {g : List OpenPurchase → List OpenPurchase}
    (hf : ∀ a, (f a).number = a.number ∧ (f a).purchases = g a.purchases) (s : State) :
    listsOf (changeAccount k f s) = modifyKey k g (listsOf s) := by
  unfold listsOf modifyKey
  rw [changeAccount_accounts, modifyAccount, List.map_map, List.map_map]
  refine List.map_congr_left fun a _ => ?_
  dsimp only [Function.comp_apply]
  split
  · rename_i hn
    rw [(hf a).1, (hf a).2, hn]
  · rfl

theorem listsOf_money {k : Nat} {f : Account → Account} (hf : moneyChange f) (s : State) :
    listsOf (changeAccount k f s) = listsOf s := by
  rw [listsOf_changeAccount (g := id) (fun a => ⟨congrArg (·.1) (hf.1 a).1, hf.2 a⟩)]
  unfold modifyKey
  conv_rhs => rw [← List.map_id (listsOf s)]
  refine List.map_congr_left fun x _ => ?_
  split
  · rename_i hx
    exact Prod.ext hx.symm rfl
  · rfl

theorem tableOf_changeEvent {id : Nat} {f : EventRec → EventRec} {g : List Nat → List Nat}
    (hf : ∀ e, (f e).id = e.id ∧ (f e).holders = g e.holders) (s : State) :
    tableOf (changeEvent id f s) = modifyKey id g (tableOf s) := by
  unfold tableOf modifyKey
  rw [changeEvent_events, modifyEvent, List.map_map, List.map_map]
  refine List.map_congr_left fun e _ => ?_
  dsimp only [Function.comp_apply]
  split
  · rename_i hn
    rw [(hf e).1, (hf e).2, hn]
  · rfl

theorem tableOf_standing {id : Nat} {f : EventRec → EventRec}
    (hf : ∀ e, (f e).id = e.id ∧ (f e).holders = e.holders) (s : State) :
    tableOf (changeEvent id f s) = tableOf s := by
  rw [tableOf_changeEvent (g := fun hs => hs) hf]
  unfold modifyKey
  conv_rhs => rw [← List.map_id (tableOf s)]
  refine List.map_congr_left fun x _ => ?_
  split
  · rename_i hx
    exact Prod.ext hx.symm rfl
  · rfl

theorem tableOf_freeEvent (id : Nat) (s : State) : tableOf (freeEvent id s) = (tableOf s).filter (·.1 != id) := by
  unfold tableOf
  rw [freeEvent_events, List.filter_map]
  rfl

/-! ### Operations that leave the lists -/

theorem sameHolders_changeAccount {k : Nat} {f : Account → Account} (hf : moneyChange f) (s : State) :
    SameHolders s (changeAccount k f s) := ⟨listsOf_money hf s, rfl, rfl, rfl⟩

theorem SameHolders.of_changes {bs : List Block} {s t : State} (h : Changes bs s t)
    (ha : Block.isIn .accounts bs = false := by rfl) (he : Block.isIn .events bs = false := by rfl)
    (hj : Block.isIn .journal bs = false := by rfl) (hl : Block.isIn .lineup bs = false := by rfl) : SameHolders s t :=
  .of_same (h.same .accounts ha) (h.same .events he) (congrArg Journal.reserved (h.same .journal hj)) (h.same .lineup hl)

theorem plainWrite_reserved (time : Nat) (body : RecordBody) (s : State) :
    (plainWrite time body s).journal.reserved = s.journal.reserved := by
  obtain ⟨-, h⟩ | ⟨-, h⟩ := plainWrite_cases time body s <;> rw [h]
  rfl

theorem sameHolders_plainWrite (time : Nat) (body : RecordBody) (s : State) : SameHolders s (plainWrite time body s) :=
  .of_same ((changes_plainWrite time body s).same .accounts) ((changes_plainWrite time body s).same .events)
    (plainWrite_reserved time body s) ((changes_plainWrite time body s).same .lineup)

theorem sameHolders_keptByMoney (s : State) : KeptByMoney (SameHolders s) where
  account _ _ u hf h := h.trans (sameHolders_changeAccount hf u)
  write _ _ u h := h.trans (sameHolders_plainWrite _ _ u)
  judge u h := h.trans (.of_changes (changes_judgeOverflow u))

theorem SameHolders.refl (s : State) : SameHolders s s := ⟨rfl, rfl, rfl, rfl⟩

theorem sameHolders_balanceUpdate (k : Nat) (amount : Int) (needed : Nat) (s : State) :
    SameHolders s (balanceUpdate k amount needed s) := (sameHolders_keptByMoney s).balanceUpdate (.refl s)

theorem sameHolders_recompute (a : Nat) (s : State) : SameHolders s (recompute a s) := .of_changes (changes_recompute a s)

theorem sameHolders_changeEvent {id : Nat} {f : EventRec → EventRec}
    (hf : ∀ e, (f e).id = e.id ∧ (f e).holders = e.holders) (s : State) : SameHolders s (changeEvent id f s) :=
  ⟨rfl, tableOf_standing hf s, rfl, rfl⟩

/-! ### The end of an event (R155, R157) -/

/-- The reservations are exact but that the event numbered `id` has the holders `rest` alone. -/
def exactBut (id : Nat) (rest : List Nat) (s : State) : Prop :=
  holdersMatch (listsOf s) (modifyKey id (fun _ => rest) (tableOf s)) ∧
    s.journal.reserved = purchaseCount (listsOf s) + scheduleHolds s.lineup

theorem filter_event_length {ps : List OpenPurchase} (h : (ps.map (·.event)).Nodup) {p : OpenPurchase} (hp : p ∈ ps) :
    (ps.filter (·.event != p.event)).length + 1 = ps.length := by
  induction ps with
  | nil => cases hp
  | cons q qs ih =>
    rw [List.map_cons, List.nodup_cons] at h
    obtain ⟨hq, hqs⟩ := h
    obtain rfl | hp := List.mem_cons.1 hp
    · have hall : qs.filter (·.event != p.event) = qs := List.filter_eq_self.2 fun x hx => by
        rw [bne_iff_ne]
        exact fun heq => hq (heq ▸ List.mem_map_of_mem hx)
      rw [List.filter_cons, if_neg (by simp), hall, List.length_cons]
    · have hne : (q.event != p.event) = true := by
        rw [bne_iff_ne]
        exact fun heq => hq (heq ▸ List.mem_map_of_mem hp)
      rw [List.filter_cons, if_pos hne, List.length_cons, List.length_cons, ih hqs hp]

theorem convertReservation_reserved {time : Nat} {body : RecordBody} {s : State} (h : 1 ≤ s.journal.reserved) :
    (convertReservation time body s).journal.reserved + 1 = s.journal.reserved := by
  rw [show convertReservation time body s = _ from if_pos h]
  change s.journal.reserved - 1 + 1 = _
  omega

theorem releaseReservation_reserved {s : State} (h : 1 ≤ s.journal.reserved) :
    (releaseReservation s).journal.reserved + 1 = s.journal.reserved := by
  rw [show releaseReservation s = _ from if_pos h]
  change s.journal.reserved - 1 + 1 = _
  omega

/-- The end of one purchase: the reservation is used by a step that leaves the lists, and then the purchase leaves. -/
theorem exactBut_dropped {id k : Nat} {rest : List Nat} {s u : State} {a : Account} (h : exactBut id (k :: rest) s)
    (hid : ∃ hs, (id, hs) ∈ tableOf s) (ha : findAccount k s.accounts = some a) (hlists : listsOf u = listsOf s)
    (htable : tableOf u = tableOf s) (hl : scheduleHolds u.lineup = scheduleHolds s.lineup)
    (hr : 1 ≤ s.journal.reserved → u.journal.reserved + 1 = s.journal.reserved) :
    exactBut id rest (dropPurchase a id u) := by
  obtain ⟨hmatch, hreserved⟩ := h
  obtain ⟨hmem, rfl⟩ := findAccount_some ha
  obtain ⟨hs, he⟩ := hid
  have hdropped := holdersMatch_dropped hmatch ⟨hs, he⟩
  obtain ⟨hrising, -, hbought, hheld⟩ := hmatch
  have hin : (a.number, a.purchases) ∈ listsOf s := mem_listsOf.2 ⟨a, hmem, rfl⟩
  obtain ⟨b, hb, hba, p, hp, hpe⟩ := (hheld _ (mem_modifyKey.2 (.inr ⟨hs, he, rfl⟩))).2 a.number (.head _)
  obtain ⟨n, ps⟩ := b
  dsimp only at hba hp hpe
  subst hba
  obtain rfl := eq_of_key hrising hb hin
  have hcount := purchaseCount_modifyKey hrising hin (fun ps => ps.filter (·.event != id))
  have hshorter : (a.purchases.filter (·.event != id)).length + 1 = a.purchases.length :=
    hpe ▸ filter_event_length (hbought _ hin).1 hp
  have lists : listsOf (dropPurchase a id u) =
      modifyKey a.number (fun ps => ps.filter (·.event != id)) (listsOf s) := by
    unfold dropPurchase
    rw [(sameHolders_recompute _ _).1, listsOf_changeAccount (g := fun ps => ps.filter (·.event != id))
      (by exact fun _ => ⟨rfl, rfl⟩), hlists]
  have same := sameHolders_recompute a.address
    (changeAccount a.number (fun r => { r with purchases := r.purchases.filter (·.event != id) }) u)
  have table : tableOf (dropPurchase a id u) = tableOf s := same.2.1.trans htable
  have reserved : (dropPurchase a id u).journal.reserved = u.journal.reserved := same.2.2.1
  have lineup : scheduleHolds (dropPurchase a id u).lineup = scheduleHolds s.lineup := same.2.2.2.trans hl
  refine ⟨by rw [lists, table]; exact hdropped, ?_⟩
  rw [lists, reserved, lineup]
  omega

/-- The first holder of an event whose list stands has an account with a purchase of it. -/
theorem exactBut_holder {id k : Nat} {rest : List Nat} {s : State} (h : exactBut id (k :: rest) s)
    (hid : ∃ hs, (id, hs) ∈ tableOf s) :
    ∃ a p, findAccount k s.accounts = some a ∧ purchaseOf a id = some p := by
  obtain ⟨⟨hrising, -, -, hheld⟩, -⟩ := h
  obtain ⟨hs, he⟩ := hid
  obtain ⟨b, hb, hbk, p, hp, hpe⟩ := (hheld _ (mem_modifyKey.2 (.inr ⟨hs, he, rfl⟩))).2 k (.head _)
  obtain ⟨a, ha, rfl⟩ := mem_listsOf.1 hb
  obtain ⟨c, hc⟩ := Option.isSome_iff_exists.1 (findAccount_isSome_iff.2 ⟨a, ha, hbk⟩)
  obtain ⟨hcmem, hck⟩ := findAccount_some hc
  have hnumbers : rising (s.accounts.map (·.number)) := by
    unfold listsOf at hrising
    rwa [List.map_map] at hrising
  obtain rfl := eq_of_number hnumbers ha hcmem (hck.trans hbk.symm)
  refine ⟨c, (purchaseOf c id).get ?_, hc, (Option.some_get _).symm⟩
  rw [purchaseOf, List.find?_isSome]
  exact ⟨p, hp, decide_eq_true hpe⟩

/-- A refund uses one reservation and leaves the lists. -/
theorem refund_uses (k e price : Nat) (cause : RefundCause) (s : State) :
    listsOf (refund k e price cause s) = listsOf s ∧ tableOf (refund k e price cause s) = tableOf s ∧
      scheduleHolds (refund k e price cause s).lineup = scheduleHolds s.lineup ∧
      (1 ≤ s.journal.reserved → (refund k e price cause s).journal.reserved + 1 = s.journal.reserved) := by
  obtain ⟨hlists, htable, hreserved, hlineup⟩ := sameHolders_balanceUpdate k (-(price : Int)) 0 s
  unfold refund
  dsimp only
  generalize balanceUpdate k (-(price : Int)) 0 s = u at hlists htable hreserved hlineup ⊢
  have converted := changes_convertReservation u.clock.time (.refund k e price cause) u
  have haccounts : (convertReservation u.clock.time (.refund k e price cause) u).accounts = u.accounts := converted.same .accounts
  have hevents : (convertReservation u.clock.time (.refund k e price cause) u).events = u.events := converted.same .events
  have hl : (convertReservation u.clock.time (.refund k e price cause) u).lineup = u.lineup := converted.same .lineup
  refine ⟨?_, ?_, by rw [hl, hlineup], fun hr => ?_⟩
  · rw [← hlists, listsOf, haccounts]
    rfl
  · rw [← htable, tableOf, hevents]
    rfl
  · rw [← hreserved] at hr ⊢
    exact convertReservation_reserved hr

theorem release_uses (s : State) :
    listsOf (releaseReservation s) = listsOf s ∧ tableOf (releaseReservation s) = tableOf s ∧
      scheduleHolds (releaseReservation s).lineup = scheduleHolds s.lineup ∧
      (1 ≤ s.journal.reserved → (releaseReservation s).journal.reserved + 1 = s.journal.reserved) := by
  have released := changes_releaseReservation s
  have haccounts : (releaseReservation s).accounts = s.accounts := released.same .accounts
  have hevents : (releaseReservation s).events = s.events := released.same .events
  have hl : (releaseReservation s).lineup = s.lineup := released.same .lineup
  refine ⟨?_, ?_, by rw [hl], releaseReservation_reserved⟩
  · rw [listsOf, haccounts]
    rfl
  · rw [tableOf, hevents]
    rfl

/-- The event ended for one holder, as settlement and cancellation do it. -/
def endsHolder (e : EventRec) (f : Nat → State → State) : Prop :=
  ∀ k s a p, findAccount k s.accounts = some a → purchaseOf a e.id = some p →
    ∃ u, f k s = dropPurchase a e.id u ∧ (u = releaseReservation s ∨ ∃ cause, u = refund k e.id p.price cause s)

theorem settleHolder_ends (e : EventRec) : endsHolder e (settleHolder e) := by
  intro k s a p ha hp
  unfold settleHolder
  rw [ha]
  dsimp only
  rw [hp]
  refine ⟨_, rfl, ?_⟩
  split
  · exact .inr ⟨_, rfl⟩
  · exact .inl rfl

theorem cancelHolder_ends (e : EventRec) : endsHolder e (cancelHolder e) := by
  intro k s a p ha hp
  unfold cancelHolder
  rw [ha]
  dsimp only
  rw [hp]
  exact ⟨_, rfl, .inr ⟨_, rfl⟩⟩

theorem exactBut_ends {e : EventRec} {f : Nat → State → State} (hf : endsHolder e f) {k : Nat} {rest : List Nat} {s : State}
    (h : exactBut e.id (k :: rest) s) (hid : ∃ hs, (e.id, hs) ∈ tableOf s) :
    exactBut e.id rest (f k s) ∧ tableOf (f k s) = tableOf s := by
  obtain ⟨a, p, ha, hp⟩ := exactBut_holder h hid
  obtain ⟨u, hfu, hu⟩ := hf k s a p ha hp
  have uses : listsOf u = listsOf s ∧ tableOf u = tableOf s ∧ scheduleHolds u.lineup = scheduleHolds s.lineup ∧
      (1 ≤ s.journal.reserved → u.journal.reserved + 1 = s.journal.reserved) := by
    obtain rfl | ⟨cause, rfl⟩ := hu
    · exact release_uses s
    · exact refund_uses k e.id p.price cause s
  obtain ⟨hlists, htable, hl, hr⟩ := uses
  rw [hfu]
  refine ⟨exactBut_dropped h hid ha hlists htable hl hr, ?_⟩
  exact (sameHolders_recompute a.address
    (changeAccount a.number (fun r => { r with purchases := r.purchases.filter (·.event != e.id) }) u)).2.1.trans htable

theorem exactBut_foldl {e : EventRec} {f : Nat → State → State} (hf : endsHolder e f) {holders : List Nat} {s : State}
    (h : exactBut e.id holders s) (hid : ∃ hs, (e.id, hs) ∈ tableOf s) :
    exactBut e.id [] (holders.foldl (fun u k => f k u) s) := by
  induction holders generalizing s with
  | nil => exact h
  | cons k rest ih =>
    obtain ⟨hrest, htable⟩ := exactBut_ends hf h hid
    exact ih hrest (htable ▸ hid)

/-- An event on record ended for all its holders and freed. -/
theorem reservationsSound_ended {e : EventRec} {f : Nat → State → State} (hf : endsHolder e f) {s : State}
    (he : e ∈ s.events) (h : reservationsSound s) :
    reservationsSound (freeEvent e.id (e.holders.foldl (fun u k => f k u) s)) := by
  obtain ⟨hmatch, hreserved⟩ := reservationsSound_iff.1 h
  have hin : (e.id, e.holders) ∈ tableOf s := mem_tableOf.2 ⟨e, he, rfl⟩
  have standing : modifyKey e.id (fun _ => e.holders) (tableOf s) = tableOf s := by
    unfold modifyKey
    conv_rhs => rw [← List.map_id (tableOf s)]
    refine List.map_congr_left fun x hx => ?_
    split
    · rename_i hxid
      obtain ⟨n, hs⟩ := x
      dsimp only at hxid
      subst hxid
      rw [eq_of_key hmatch.2.1 hin hx]
      rfl
    · rfl
  obtain ⟨hended, hleft⟩ := exactBut_foldl hf (s := s) (holders := e.holders) ⟨by rwa [standing], hreserved⟩ ⟨_, hin⟩
  generalize e.holders.foldl (fun u k => f k u) s = u at hended hleft ⊢
  rw [reservationsSound_iff, tableOf_freeEvent]
  exact ⟨holdersMatch_freed hended, hleft⟩

theorem reservationsSound_settleAt (t id : Nat) (s : State) (h : reservationsSound s) :
    reservationsSound (settleAt t id s) := by
  unfold settleAt
  split
  · exact h
  · rename_i e he
    obtain ⟨hmem, -⟩ := findEvent_some he
    split
    · exact reservationsSound_ended (settleHolder_ends e) hmem h
    · exact h

theorem reservationsSound_eventCancel {id : Nat} {s : State} (h : reservationsSound s) :
    reservationsSound (eventCancelStep id s).1 := by
  unfold eventCancelStep
  split
  · exact h
  split
  · exact h
  · rename_i e he
    obtain ⟨hmem, rfl⟩ := findEvent_some he
    exact reservationsSound_ended (cancelHolder_ends e) hmem h

theorem reservationsSound_keptByTable : KeptByTable reservationsSound where
  taken _ _ hc h := reservationsSound_of_same (.of_changes hc) h
  count _ _ u hf h := reservationsSound_of_same (sameHolders_changeEvent hf u) h
  hand _ u h := reservationsSound_of_same (sameHolders_recompute _ u) h
  settle := reservationsSound_settleAt

theorem reservationsSound_keptByMoney : KeptByMoney reservationsSound where
  account _ _ u hf h := reservationsSound_of_same (sameHolders_changeAccount hf u) h
  write _ _ u h := reservationsSound_of_same (sameHolders_plainWrite _ _ u) h
  judge u h := reservationsSound_of_same (.of_changes (changes_judgeOverflow u)) h

/-! ### Purchases (R150) -/

/-- A balance update leaves free the slots that the step still needs. -/
theorem journalFree_balanceUpdate {k needed : Nat} {amount : Int} {s : State} (h : needed ≤ journalFree s.journal) :
    needed ≤ journalFree (balanceUpdate k amount needed s).journal := by
  unfold balanceUpdate
  split
  · exact h
  · dsimp only
    split
    · exact h
    · have judged (u : State) : (judgeOverflow u).journal = u.journal := rfl
      rw [judged]
      split
      · exact journalFree_plainWrite ‹_› _ _
      · exact h

theorem takeReservation_reserved {s : State} (h : 1 ≤ journalFree s.journal) :
    (takeReservation s).journal.reserved = s.journal.reserved + 1 := by
  rw [show takeReservation s = _ from if_pos h]
  rfl

theorem reservationsSound_keptByPurchases : KeptByPurchases reservationsSound := by
  intro a e origin counter u ha he hmay hfree h
  obtain ⟨hamem, -⟩ := findAccount_some ha
  obtain ⟨hemem, -⟩ := findEvent_some he
  obtain ⟨hmatch, hreserved⟩ := reservationsSound_iff.1 h
  have charged := sameHolders_balanceUpdate a.number e.price 2 u
  have room := journalFree_balanceUpdate (k := a.number) (amount := e.price) hfree
  unfold acceptPurchase
  dsimp only
  generalize balanceUpdate a.number e.price 2 u = v at charged room ⊢
  have written := charged.trans (sameHolders_plainWrite u.clock.time (.purchase a.number e.id e.price origin) v)
  have slot : 1 ≤ journalFree (plainWrite u.clock.time (.purchase a.number e.id e.price origin) v).journal :=
    journalFree_plainWrite room _ _
  generalize plainWrite u.clock.time (.purchase a.number e.id e.price origin) v = w at written slot ⊢
  obtain ⟨hlists, htable, hres, hlineup⟩ := written
  have taken := changes_takeReservation w
  have reserved := takeReservation_reserved slot
  have lists : listsOf (takeReservation w) = listsOf u :=
    (congrArg (List.map fun a : Account => (a.number, a.purchases)) (taken.same .accounts)).trans hlists
  have table : tableOf (takeReservation w) = tableOf u :=
    (congrArg (List.map fun e : EventRec => (e.id, e.holders)) (taken.same .events)).trans htable
  have lineup : scheduleHolds (takeReservation w).lineup = scheduleHolds u.lineup :=
    (congrArg scheduleHolds (taken.same .lineup)).trans hlineup
  generalize takeReservation w = x at reserved lists table lineup ⊢
  refine reservationsSound_of_same (sameHolders_recompute _ _) ?_
  generalize hbought : ({ event := e.id, price := e.price, time := u.clock.time, origin := origin, counter := counter } :
    OpenPurchase) = bought
  have hid : bought.event = e.id := hbought ▸ rfl
  have hlistsIn : (a.number, a.purchases) ∈ listsOf u := mem_listsOf.2 ⟨a, hamem, rfl⟩
  have htableIn : (e.id, e.holders) ∈ tableOf u := mem_tableOf.2 ⟨e, hemem, rfl⟩
  have unheld : ∀ q ∈ a.purchases, q.event ≠ e.id := fun q hq heq =>
    Bool.eq_false_iff.1 hmay.2 (List.any_eq_true.2 ⟨q, hq, decide_eq_true heq⟩)
  have hlists' : listsOf (changeEvent e.id (fun r => { r with holders := r.holders ++ [a.number] })
      (changeAccount a.number (fun r => { r with purchases := r.purchases ++ [bought] }) x)) =
      modifyKey a.number (· ++ [bought]) (listsOf u) := by
    rw [← lists]
    exact listsOf_changeAccount (g := (· ++ [bought])) (by exact fun _ => ⟨rfl, rfl⟩) x
  have htable' : tableOf (changeEvent e.id (fun r => { r with holders := r.holders ++ [a.number] })
      (changeAccount a.number (fun r => { r with purchases := r.purchases ++ [bought] }) x)) =
      modifyKey e.id (· ++ [a.number]) (tableOf u) := by
    rw [tableOf_changeEvent (g := (· ++ [a.number])) (by exact fun _ => ⟨rfl, rfl⟩), ← table]
    rfl
  rw [reservationsSound_iff, hlists', htable']
  refine ⟨holdersMatch_bought hmatch hlistsIn htableIn hid unheld, ?_⟩
  have hcount := purchaseCount_modifyKey hmatch.1 hlistsIn (· ++ [bought])
  rw [List.length_append, List.length_singleton] at hcount
  change x.journal.reserved = _ + scheduleHolds x.lineup
  rw [lineup, reserved, hres]
  omega

/-! ### Accounts, events and the schedule -/

theorem reservationsSound_accountOpen {k a port : Nat} {tiers : TierSet} {state : Nat} {s : State}
    (h : reservationsSound s) : reservationsSound (accountOpenStep k a port tiers state s).1 := by
  obtain heq | ⟨t, account, -, ⟨initial, rfl⟩, hfree, -, -, -, heq⟩ :=
    accountOpenStep_cases k a port tiers state s <;> rw [heq]
  · exact h
  refine reservationsSound_of_same (sameHolders_recompute _ _) ?_
  obtain ⟨hmatch, hreserved⟩ := reservationsSound_iff.1 h
  generalize hnew : newAccount k a port tiers initial = new at hfree ⊢
  have hpurchases : new.purchases = [] := hnew ▸ rfl
  have hrising := rising_insertKeyed (key := fun b : Account => b.number) (x := new) (xs := s.accounts)
    (by simpa [listsOf, Function.comp_def] using hmatch.1) hfree
  rw [reservationsSound_iff]
  change holdersMatch ((insertAccount new s.accounts).map fun b => (b.number, b.purchases)) (tableOf s) ∧
    s.journal.reserved = purchaseCount ((insertAccount new s.accounts).map fun b => (b.number, b.purchases)) +
      scheduleHolds s.lineup
  rw [insertAccount_eq]
  refine ⟨holdersMatch_opened hmatch (k := new.number) (by rwa [List.map_map]) fun x => ?_, ?_⟩
  · rw [List.mem_map, mem_listsOf]
    constructor
    · rintro ⟨b, hb, rfl⟩
      obtain rfl | hb := mem_insertKeyed.1 hb
      · exact .inl (by rw [hpurchases])
      · exact .inr ⟨b, hb, rfl⟩
    · rintro (rfl | ⟨b, hb, rfl⟩)
      · exact ⟨new, mem_insertKeyed.2 (.inl rfl), by rw [hpurchases]⟩
      · exact ⟨b, mem_insertKeyed.2 (.inr hb), rfl⟩
  · rw [hreserved]
    congr 1
    have count (xs : List Account) : purchaseCount ((insertKeyed (·.number) new xs).map fun b => (b.number, b.purchases)) =
        purchaseCount (xs.map fun b => (b.number, b.purchases)) := by
      induction xs with
      | nil => simp [insertKeyed, purchaseCount, hpurchases]
      | cons x xs ih =>
        rw [insertKeyed]
        split
        · simp [purchaseCount, hpurchases]
        · simpa [purchaseCount] using ih
    exact (count s.accounts).symm

theorem reservationsSound_accountClose {k : Nat} {s : State} (h : reservationsSound s) :
    reservationsSound (accountCloseStep k s).1 := by
  obtain heq | ⟨account, hmem, hobstacle, freed, rfl, heq⟩ := accountCloseStep_cases k s <;> rw [heq]
  · exact h
  obtain ⟨hmatch, hreserved⟩ := reservationsSound_iff.1 h
  have hempty : account.purchases = [] := by
    unfold closeObstacle at hobstacle
    split_ifs at hobstacle with hcut hbalance hpurchases
    simpa using hpurchases
  have hin : (account.number, []) ∈ listsOf s := mem_listsOf.2 ⟨account, hmem, by rw [hempty]⟩
  have freed : reservationsSound (bindPort account.address account.port none
      { s with accounts := s.accounts.filter (·.number != account.number) }) := by
    rw [reservationsSound_iff]
    change holdersMatch ((s.accounts.filter (·.number != account.number)).map fun b => (b.number, b.purchases))
      (tableOf s) ∧ s.journal.reserved = purchaseCount ((s.accounts.filter (·.number != account.number)).map
        fun b => (b.number, b.purchases)) + scheduleHolds s.lineup
    have hfilter : (s.accounts.filter (·.number != account.number)).map (fun b => (b.number, b.purchases)) =
        (listsOf s).filter (·.1 != account.number) := by
      rw [listsOf, List.filter_map]
      rfl
    rw [hfilter]
    refine ⟨holdersMatch_closed hmatch hin, ?_⟩
    have hcount : purchaseCount ((listsOf s).filter (·.1 != account.number)) = purchaseCount (listsOf s) := by
      have hempty {x : Nat × List OpenPurchase} (hx : x ∈ listsOf s) (hn : x.1 = account.number) : x.2 = [] := by
        obtain ⟨n, ps⟩ := x
        dsimp only at hn
        subst hn
        exact eq_of_key hmatch.1 hx hin
      generalize listsOf s = lists at hempty
      induction lists with
      | nil => rfl
      | cons x xs ih =>
        have ih := ih fun hx => hempty (.tail _ hx)
        rw [List.filter_cons]
        split
        · simpa [purchaseCount] using ih
        · rename_i hx
          have := hempty (.head _) (by simpa using hx)
          simpa [purchaseCount, this] using ih
    rw [hcount]
    exact hreserved
  have recomputed := reservationsSound_of_same (sameHolders_recompute account.address _) freed
  split
  · exact reservationsSound_keptByMoney.judge _ recomputed
  · exact recomputed

theorem reservationsSound_eventAdd {e : EventRec} (hholders : e.holders = []) {s : State} (h : reservationsSound s) :
    reservationsSound (eventAddStep e s).1 := by
  unfold eventAddStep
  split
  · exact h
  split
  · exact h
  split
  · exact h
  rename_i hfree
  split
  · exact h
  split
  · exact h
  split
  · exact h
  split
  · exact h
  obtain ⟨hmatch, hreserved⟩ := reservationsSound_iff.1 h
  rw [reservationsSound_iff]
  refine ⟨?_, hreserved⟩
  change holdersMatch (listsOf s) ((insertEvent e s.events).map fun x => (x.id, x.holders))
  rw [insertEvent_eq]
  have hrising := rising_insertKeyed (key := fun x : EventRec => x.id) (x := e) (xs := s.events)
    (by simpa [tableOf, Function.comp_def] using hmatch.2.1) fun x hx hid => hfree (findEvent_isSome_iff.2 ⟨x, hx, hid⟩)
  refine holdersMatch_added hmatch (id := e.id) (by rwa [List.map_map]) fun x => ?_
  rw [List.mem_map, mem_tableOf]
  constructor
  · rintro ⟨b, hb, rfl⟩
    obtain rfl | hb := mem_insertKeyed.1 hb
    · exact .inl (by rw [hholders])
    · exact .inr ⟨b, hb, rfl⟩
  · rintro (rfl | ⟨b, hb, rfl⟩)
    · exact ⟨e, mem_insertKeyed.2 (.inl rfl), by rw [hholders]⟩
    · exact ⟨b, mem_insertKeyed.2 (.inr hb), rfl⟩

/-- A step that keeps the lists and moves the reservations with the schedule. -/
theorem reservationsSound_of_schedule {s t : State} (ha : t.accounts = s.accounts) (he : t.events = s.events)
    (hr : t.journal.reserved + scheduleHolds s.lineup = s.journal.reserved + scheduleHolds t.lineup)
    (h : reservationsSound s) : reservationsSound t := by
  rw [reservationsSound_iff] at h ⊢
  obtain ⟨hmatch, hreserved⟩ := h
  have hlists : listsOf t = listsOf s := congrArg (List.map _) ha
  have htable : tableOf t = tableOf s := congrArg (List.map _) he
  rw [hlists, htable]
  exact ⟨hmatch, by omega⟩

theorem reservationsSound_schedule {time : Nat} {s : State} (h : reservationsSound s) :
    reservationsSound (switchoverScheduleStep time s).1 := by
  unfold switchoverScheduleStep
  split
  · exact h
  split
  · exact h
  rename_i hnone
  split
  · exact h
  split
  · exact h
  split
  · exact h
  rename_i hfree
  dsimp only
  generalize hu : ({ s with lineup := { s.lineup with
    scheduled := some time, staged := { s.lineup.staged with version := nextVersion s.lineup.active.version } } } :
      State) = u
  have taken := changes_takeReservation u
  have haccounts : (takeReservation u).accounts = u.accounts := taken.same .accounts
  have hevents : (takeReservation u).events = u.events := taken.same .events
  have hlineup : (takeReservation u).lineup = u.lineup := taken.same .lineup
  have hreserved := takeReservation_reserved (s := u) (by rw [← hu]; exact Nat.one_le_iff_ne_zero.2 hfree)
  refine reservationsSound_of_schedule (haccounts.trans (hu ▸ rfl)) (hevents.trans (hu ▸ rfl)) ?_ h
  rw [hlineup, hreserved, ← hu]
  simp [scheduleHolds, hnone]

theorem scheduleHolds_of_scheduled {l : Lineup} (hs : l.scheduled.isSome = true) : scheduleHolds l = 1 := if_pos hs

theorem reservationsSound_cancel {s : State} (h : reservationsSound s) : reservationsSound (switchoverCancelStep s).1 := by
  unfold switchoverCancelStep
  split
  · rename_i hs
    have hone := reserved_pos_of_scheduled h hs
    have hholds := scheduleHolds_of_scheduled hs
    dsimp only
    generalize hu : ({ s with lineup := { s.lineup with
      scheduled := none, staged := { s.lineup.staged with version := s.lineup.active.version } } } : State) = u
    have released := changes_releaseReservation u
    have haccounts : (releaseReservation u).accounts = u.accounts := released.same .accounts
    have hevents : (releaseReservation u).events = u.events := released.same .events
    have hlineup : (releaseReservation u).lineup = u.lineup := released.same .lineup
    have hsame : u.journal = s.journal := hu ▸ rfl
    have hreserved := releaseReservation_reserved (s := u) (by rwa [hsame])
    refine reservationsSound_of_schedule (haccounts.trans (hu ▸ rfl)) (hevents.trans (hu ▸ rfl)) ?_ h
    rw [hlineup, hholds, hreserved, hsame, ← hu]
    rfl
  · exact h

theorem reservationsSound_takeSwitchover {b : Nat} {s : State} (hs : s.lineup.scheduled = some b)
    (h : reservationsSound s) : reservationsSound (takeSwitchover b s) := by
  have hsome : s.lineup.scheduled.isSome = true := by rw [hs]; rfl
  have hone := reserved_pos_of_scheduled h hsome
  have hholds := scheduleHolds_of_scheduled hsome
  unfold takeSwitchover
  dsimp only
  generalize hu : ({ s with lineup := switchLineup b s.lineup } : State) = u
  have converted := changes_convertReservation b (.switchover (switchLineup b s.lineup).active.version) u
  have hsame : u.journal = s.journal := hu ▸ rfl
  have hreserved := convertReservation_reserved (time := b) (body := .switchover (switchLineup b s.lineup).active.version)
    (s := u) (by rwa [hsame])
  generalize convertReservation b (.switchover (switchLineup b s.lineup).active.version) u = v at converted hreserved ⊢
  have haccounts : v.accounts = u.accounts := converted.same .accounts
  have hevents : v.events = u.events := converted.same .events
  have hlineup : v.lineup = u.lineup := converted.same .lineup
  have taken : reservationsSound v := by
    refine reservationsSound_of_schedule (haccounts.trans (hu ▸ rfl)) (hevents.trans (hu ▸ rfl)) ?_ h
    rw [hlineup, hholds, hreserved, hsame, ← hu]
    rfl
  refine foldl_keeps (fun i _ w hw => reservationsSound_of_same (.of_changes (changes_judgeSourceLost i w)) hw) ?_
  exact reservationsSound_of_same (.of_changes (changes_switchoverTaps _ _))
    (reservationsSound_of_same (SameHolders.of_same (s := v) rfl rfl rfl rfl) taken)

theorem reservationsSound_switchover {s : State} (h : reservationsSound s) : reservationsSound (switchoverTakeStep s) := by
  unfold switchoverTakeStep
  split
  · exact h
  · rename_i b rest _
    have taken : reservationsSound { s with due := { s.due with boundaries := rest } } := h
    dsimp only
    split
    · exact reservationsSound_takeSwitchover ‹_› taken
    · exact taken

theorem reservationsSound_retained (kind : ResetKind) (s : State) (h : reservationsSound s) :
    reservationsSound (retainedReset kind s) := by
  have hone : s.lineup.scheduled.isSome = true → 1 ≤ s.journal.reserved := reserved_pos_of_scheduled h
  rw [reservationsSound_iff] at h ⊢
  obtain ⟨hmatch, hreserved⟩ := h
  have hlists : listsOf (retainedReset kind s) = listsOf s := by
    unfold listsOf
    change (s.accounts.map fun a => { a with latch := .none }).map _ = _
    rw [List.map_map]
    rfl
  rw [hlists]
  refine ⟨hmatch, ?_⟩
  change (if s.lineup.scheduled.isSome then s.journal.reserved - 1 else s.journal.reserved) = _ + 0
  unfold scheduleHolds at hreserved
  split
  · rename_i hs
    rw [if_pos hs] at hreserved
    omega
  · rename_i hs
    rwa [if_neg hs] at hreserved

theorem reservationsSound_restartUp {s : State} (h : reservationsSound s) : reservationsSound (restartUpStep s) := by
  have changed := changes_restartUpStep s
  have haccounts : (restartUpStep s).accounts = s.accounts := changed.same .accounts
  have hevents : (restartUpStep s).events = s.events := changed.same .events
  have hlineup : (restartUpStep s).lineup = s.lineup := changed.same .lineup
  have hreserved : (restartUpStep s).journal.reserved = s.journal.reserved := by
    unfold restartUpStep rejudge
    split
    · dsimp only
      split <;> rfl
    · rfl
  exact reservationsSound_of_same (.of_same haccounts hevents hreserved hlineup) h

end Sys2Proof.Machine
end

section
/-! SUPPORT. The journal's bound and numbering, kept by every command, and with them O57. -/

namespace Sys2Proof.Machine

/-! ### The journal's changes -/

theorem nextSequence_bounds {q : Nat} (h : 1 ≤ q ∧ q ≤ 4294967295) : 1 ≤ nextSequence q ∧ nextSequence q ≤ 4294967295 := by
  unfold nextSequence
  split <;> omega

theorem journalSound_appendRecord {time : Nat} {body : RecordBody} {j : Journal} (h : journalSound j)
    (room : journalHeld j + j.reserved + 1 ≤ 1024) : journalSound (appendRecord time body j) := by
  obtain ⟨-, hnext, hchain⟩ := h
  refine ⟨?_, nextSequence_bounds hnext, ?_⟩
  · simp only [journalHeld, appendRecord, List.length_append, List.length_singleton] at room ⊢
    omega
  · simp only [appendRecord, List.map_append, List.map_singleton]
    refine List.isChain_append.2 ⟨hchain, .singleton _, fun x hx y hy => ?_⟩
    rw [List.getLast?_concat, Option.mem_some_iff] at hx
    rw [List.head?_singleton, Option.mem_some_iff] at hy
    rw [← hx, ← hy]

theorem journalSound_reserved {j : Journal} {r : Nat} (h : journalSound j) (room : journalHeld j + r ≤ 1024) :
    journalSound { j with reserved := r } := by
  obtain ⟨-, hnext, hchain⟩ := h
  exact ⟨room, hnext, hchain⟩

theorem journalSound_plainWrite (time : Nat) (body : RecordBody) (s : State) (h : journalSound s.journal) :
    journalSound (plainWrite time body s).journal := by
  obtain ⟨hfree, heq⟩ | ⟨-, heq⟩ := plainWrite_cases time body s <;> rw [heq]
  · refine journalSound_appendRecord (time := time) (body := body) h ?_
    unfold journalFree at hfree
    omega
  · exact h

theorem journalSound_takeReservation (s : State) (h : journalSound s.journal) :
    journalSound (takeReservation s).journal := by
  obtain ⟨hfree, heq⟩ | ⟨-, heq⟩ := takeReservation_cases s <;> rw [heq]
  · refine journalSound_reserved (j := s.journal) (r := s.journal.reserved + 1) h ?_
    unfold journalFree at hfree
    omega
  · exact h

theorem journalSound_releaseReservation (s : State) (h : journalSound s.journal) :
    journalSound (releaseReservation s).journal := by
  obtain ⟨-, heq⟩ | ⟨-, heq⟩ := releaseReservation_cases s <;> rw [heq]
  · have room := h.1
    exact journalSound_reserved (j := s.journal) (r := s.journal.reserved - 1) h (by omega)
  · exact h

theorem journalSound_convertReservation (time : Nat) (body : RecordBody) (s : State) (h : journalSound s.journal) :
    journalSound (convertReservation time body s).journal := by
  obtain ⟨hone, heq⟩ | ⟨-, heq⟩ := convertReservation_cases time body s <;> rw [heq]
  · have room := h.1
    have released : journalSound { s.journal with reserved := s.journal.reserved - 1 } := journalSound_reserved h (by omega)
    refine journalSound_appendRecord (time := time) (body := body) released ?_
    change journalHeld s.journal + (s.journal.reserved - 1) + 1 ≤ 1024
    omega
  · exact h

theorem recordsAfter_suffix {q : Nat} {records kept : List JournalRec} (h : recordsAfter q records = some kept) :
    kept <:+ records := by
  induction records with
  | nil => cases h
  | cons r rest ih =>
    rw [recordsAfter] at h
    split at h
    · cases h
      exact List.suffix_cons r kept
    · exact (ih h).trans (List.suffix_cons r rest)

theorem journalSound_journalRelease (q : Nat) (s : State) (h : journalSound s.journal) :
    journalSound (journalReleaseStep q s).1.journal := by
  unfold journalReleaseStep
  split
  · exact h
  · split
    · exact h
    · rename_i kept hkept
      have suffix := recordsAfter_suffix hkept
      obtain ⟨room, hnext, hchain⟩ := h
      refine ⟨?_, hnext, ?_⟩
      · have := suffix.length_le
        change kept.length + s.journal.reserved ≤ 1024
        unfold journalHeld at room
        omega
      · change List.IsChain _ (kept.map (·.sequence) ++ [s.journal.nextSequence])
        obtain ⟨older, heq⟩ := suffix
        rw [← heq, List.map_append, List.append_assoc] at hchain
        exact hchain.right_of_append

/-! ### The commands -/

/-- The journal of a state is sound. -/
def journalStands (s : State) : Prop := journalSound s.journal

theorem journalStands_of_same {s t : State} (ht : t.journal = s.journal) (h : journalStands s) : journalStands t := by
  unfold journalStands
  rwa [ht]

theorem journalStands_keptByMoney : KeptByMoney journalStands where
  account _ _ _ _ h := h
  write := journalSound_plainWrite
  judge _ h := h

theorem journalStands_keptByEvents : KeptByEvents journalStands where
  balance _ _ _ _ := journalStands_keptByMoney.balanceUpdate
  drop _ _ _ h := h
  tap _ _ h := journalStands_of_same ((changes_recompute _ _).same .journal) h
  convert := journalSound_convertReservation
  release := journalSound_releaseReservation
  table _ _ hc h := journalStands_of_same (hc.same .journal) h

theorem journalStands_keptByPurchases : KeptByPurchases journalStands := by
  intro a e origin counter u _ _ _ _ h
  have charged : journalStands (balanceUpdate a.number e.price 2 u) := journalStands_keptByMoney.balanceUpdate h
  unfold acceptPurchase
  dsimp only
  generalize balanceUpdate a.number e.price 2 u = v at charged ⊢
  have written := journalSound_plainWrite u.clock.time (.purchase a.number e.id e.price origin) v charged
  generalize plainWrite u.clock.time (.purchase a.number e.id e.price origin) v = w at written ⊢
  have taken := journalSound_takeReservation w written
  generalize takeReservation w = x at taken ⊢
  exact journalStands_of_same ((changes_recompute _ _).same .journal) taken

theorem journalStands_switchover {s : State} (h : journalStands s) : journalStands (switchoverTakeStep s) := by
  unfold switchoverTakeStep
  split
  · exact h
  · dsimp only
    split
    · unfold takeSwitchover
      dsimp only
      refine foldl_keeps (fun i _ w hw => journalStands_of_same ((changes_judgeSourceLost i w).same .journal) hw) ?_
      exact journalStands_of_same ((changes_switchoverTaps _ _).same .journal)
        (journalSound_convertReservation _ _ { s with lineup := _, due := _ } h)
    · exact h

theorem journalStands_retained (kind : ResetKind) (s : State) (h : journalStands s) :
    journalStands (retainedReset kind s) := by
  obtain ⟨room, hnext, hchain⟩ := h
  refine ⟨?_, hnext, hchain⟩
  change journalHeld s.journal + (if s.lineup.scheduled.isSome then s.journal.reserved - 1 else s.journal.reserved) ≤ 1024
  split <;> omega

theorem journalStands_stop (s : State) (h : journalStands s) : journalStands (stopClock s) :=
  journalStands_of_same ((changes_stopClock s).same .journal) h

theorem journalStands_restartUp {s : State} (h : journalStands s) : journalStands (restartUpStep s) := by
  unfold restartUpStep rejudge
  split
  · dsimp only
    split
    · exact h
    · exact h
  · exact h

theorem journalStands_gapRecord {s : State} (h : journalStands s) : journalStands (gapRecordStep s) := by
  unfold gapRecordStep
  split
  · dsimp only
    split
    · exact journalSound_plainWrite _ _ { s with due := { s.due with gapRecord := false } } h
    · exact h
  · exact h

theorem commandStep_journalStands (c : Instr) {s : State} (h : journalStands s) : journalStands (commandStep c s) := by
  have request {owner : State → State × Reply} (ho : ∀ u, journalStands u → journalStands (owner u).1) :
      journalStands (serve c owner s) := serve_keeps (p := journalStands) (fun _ _ h => h) h ho
  have cold : journalStands (coldReset s) := resetStateIsSound.2.2.2.2.2.2.2.2.2.1
  cases c
  case switchoverSchedule =>
    refine request fun u hu => ?_
    unfold switchoverScheduleStep
    repeat' split
    all_goals first
      | exact hu
      | exact journalSound_takeReservation { u with lineup := _ } hu
  case switchoverCancel =>
    refine request fun u hu => ?_
    unfold switchoverCancelStep
    split
    · exact journalSound_releaseReservation { u with lineup := _ } hu
    · exact hu
  case cycleClose => exact request fun _ => journalStands_keptByMoney.cycleClose
  case eventCancel => exact request fun _ => journalStands_keptByEvents.eventCancel
  case purchaseEnter => exact request fun _ => purchaseEnter_keeps journalStands_keptByPurchases
  case journalRelease => exact request fun u => journalSound_journalRelease _ u
  case firstPower => exact cold
  case mainPowerReturn => exact mainPowerReturn_keeps cold journalStands_retained h
  case resetPin => exact resetPin_keeps journalStands_stop journalStands_retained h
  case outboundFrameDone =>
    exact whenRunning_keeps h (outboundFrameDone_keeps
      (journalStands_of_same ((changes_chooseFrame s).same .journal)) journalStands_stop journalStands_retained)
  case restartUp => exact journalStands_restartUp h
  case restartEventStep => exact whenRunning_keeps h journalStands_keptByEvents.events.restartEvent
  case gapRecord => exact whenRunning_keeps h journalStands_gapRecord
  case meterTallyTake => exact whenRunning_keeps h (journalStands_keptByMoney.meter (fun _ _ h => h) fun _ _ h => h).meterTallyTake
  case eventMinuteEnd => exact whenRunning_keeps h journalStands_keptByEvents.events.eventMinuteEnd
  case switchoverTake => exact whenRunning_keeps h journalStands_switchover
  case purchaseDecide =>
    exact whenRunning_keeps h (purchaseDecide_keeps
      (fun _ _ hc => journalStands_of_same (hc.same .journal)) journalStands_keptByPurchases)
  all_goals exact journalStands_of_same ((commandStep_changes _ s).same .journal) h

/-! ### The reservations -/

/-- A change of STAGED while no switchover is scheduled. -/
theorem reservationsSound_staged {s : State} {staged : Bank} (h : reservationsSound s) :
    reservationsSound { s with lineup := { s.lineup with staged := staged } } :=
  reservationsSound_of_same (s := s) ⟨rfl, rfl, rfl, rfl⟩ h

theorem reservationsSound_lineupPut (channel slot source kind : Nat) (tier : Option Nat) (label : List Byte) (s : State)
    (h : reservationsSound s) : reservationsSound (lineupPutStep channel slot source kind tier label s).1 := by
  rw [lineupPutStep_eq]
  split
  · exact h
  split
  · exact h
  split
  · exact h
  split
  · exact h
  exact reservationsSound_staged h

theorem reservationsSound_lineupDrop (channel : Nat) (s : State) (h : reservationsSound s) :
    reservationsSound (lineupDropStep channel s).1 := by
  rw [lineupDropStep_eq]
  split
  · exact h
  split
  · exact h
  split
  · exact h
  exact reservationsSound_staged h

theorem reservationsSound_tierRateSet (target rate : Nat) (s : State) (h : reservationsSound s) :
    reservationsSound (tierRateSetStep target rate s).1 := by
  unfold tierRateSetStep
  split
  · exact h
  split
  · exact h
  exact reservationsSound_staged h

theorem reservationsSound_accountTiers {k : Nat} {tiers : TierSet} {s : State} (h : reservationsSound s) :
    reservationsSound (accountTiersStep k tiers s).1 :=
  withAccount_keeps (own := fun u a =>
    (recompute a.address (changeAccount k (fun r => { r with tiers := tiers }) u), replyOk (tierSet2 tiers)))
    (fun _ _ hu => reservationsSound_keptByTable.hand _ _
      (reservationsSound_keptByMoney.account _ _ _ ⟨fun _ => ⟨rfl, id⟩, fun _ => rfl⟩ hu)) h

theorem reservationsSound_accountMove {takenIn : List AccountState} {target : AccountState} {k : Nat} {s : State}
    (h : reservationsSound s) : reservationsSound (accountMove takenIn target k s).1 := by
  refine withAccount_keeps (own := fun u a =>
    if takenIn.contains a.state then
      (recompute a.address (changeAccount k (fun r => { r with state := target }) u),
        replyOk (byte1 (accountStateCode target)))
    else (u, refusal .wrongState)) (fun u a hu => ?_) h
  split
  · exact reservationsSound_keptByTable.hand _ _
      (reservationsSound_keptByMoney.account _ _ _ ⟨fun _ => ⟨rfl, id⟩, fun _ => rfl⟩ hu)
  · exact hu

theorem reservationsSound_journalRelease (q : Nat) (s : State) (h : reservationsSound s) :
    reservationsSound (journalReleaseStep q s).1 := by
  unfold journalReleaseStep
  split
  · exact h
  · split
    · exact h
    · exact reservationsSound_of_same (s := s) ⟨rfl, rfl, rfl, rfl⟩ h

theorem reservationsSound_gapRecord {s : State} (h : reservationsSound s) : reservationsSound (gapRecordStep s) := by
  have taken : reservationsSound { s with due := { s.due with gapRecord := false } } := h
  unfold gapRecordStep
  split
  · dsimp only
    split
    · exact reservationsSound_keptByMoney.write _ _ _ taken
    · exact taken
  · exact h

theorem commandStep_reservationsSound (c : Instr) {s : State} (h : reservationsSound s) :
    reservationsSound (commandStep c s) := by
  have request {owner : State → State × Reply} (ho : ∀ u, reservationsSound u → reservationsSound (owner u).1) :
      reservationsSound (serve c owner s) := serve_keeps (p := reservationsSound) (fun _ _ h => h) h ho
  have cold : reservationsSound (coldReset s) := resetStateIsSound.2.2.2.2.2.2.2.2.1
  have stop (u : State) (hu : reservationsSound u) : reservationsSound (stopClock u) :=
    reservationsSound_of_same (.of_changes (changes_stopClock u)) hu
  cases c
  case lineupPut => exact request (reservationsSound_lineupPut _ _ _ _ _ _)
  case lineupDrop => exact request (reservationsSound_lineupDrop _)
  case tierRateSet => exact request (reservationsSound_tierRateSet _ _)
  case switchoverSchedule => exact request fun _ => reservationsSound_schedule
  case switchoverCancel => exact request fun _ => reservationsSound_cancel
  case accountOpen => exact request fun _ => reservationsSound_accountOpen
  case accountTiers => exact request fun _ => reservationsSound_accountTiers
  case accountHold => exact request fun _ => reservationsSound_accountMove
  case accountResume => exact request fun _ => reservationsSound_accountMove
  case accountCut => exact request fun _ => reservationsSound_accountMove
  case accountRestore => exact request fun _ => reservationsSound_accountMove
  case accountClose => exact request fun _ => reservationsSound_accountClose
  case cycleClose => exact request fun _ => reservationsSound_keptByMoney.cycleClose
  case eventAdd => exact request fun _ => reservationsSound_eventAdd rfl
  case eventCancel => exact request fun _ => reservationsSound_eventCancel
  case purchaseEnter => exact request fun _ => purchaseEnter_keeps reservationsSound_keptByPurchases
  case journalRelease => exact request (reservationsSound_journalRelease _)
  case firstPower => exact cold
  case mainPowerReturn => exact mainPowerReturn_keeps cold reservationsSound_retained h
  case resetPin => exact resetPin_keeps stop reservationsSound_retained h
  case outboundFrameDone =>
    exact whenRunning_keeps h (outboundFrameDone_keeps
      (reservationsSound_of_same (.of_changes (changes_chooseFrame s))) stop reservationsSound_retained)
  case restartUp => exact reservationsSound_restartUp h
  case restartEventStep => exact whenRunning_keeps h reservationsSound_keptByTable.restartEvent
  case gapRecord => exact whenRunning_keeps h reservationsSound_gapRecord
  case meterTallyTake => exact whenRunning_keeps h (reservationsSound_keptByMoney.meter (fun _ _ h => h) fun _ _ h => h).meterTallyTake
  case eventMinuteEnd => exact whenRunning_keeps h reservationsSound_keptByTable.eventMinuteEnd
  case switchoverTake => exact whenRunning_keeps h reservationsSound_switchover
  case purchaseDecide =>
    exact whenRunning_keeps h (purchaseDecide_keeps (fun _ _ hc => reservationsSound_of_same (.of_changes hc))
      reservationsSound_keptByPurchases)
  all_goals exact reservationsSound_of_same (.of_changes (commandStep_changes _ s)) h

/-- Settles O57: each purchase taken or ended moves the lists and the reservations together, and each write and
reservation stays within the journal's bound. -/
theorem reservationsAndJournalStayExact : Obligations.ReservationsAndJournalStayExact := fun _ _ h =>
  ⟨step_keeps (p := reservationsSound) (fun _ _ h => h) (fun c _ _ => commandStep_reservationsSound c) h,
    step_keeps (p := journalStands) (fun _ _ h => h) (fun c _ _ => commandStep_journalStands c) h⟩

end Sys2Proof.Machine
end

section
/-! SUPPORT. Which conditions each operation gives the Alarm Controller: from one state to the next the alarms change by
changes of conditions given, one after the other. -/

namespace Sys2Proof.Machine

/-- The alarms `b` come of `a` by conditions given, each of a source that `ok` admits. -/
inductive Gives (ok : Nat → Prop) : Alarms → Alarms → Prop
  | refl (a : Alarms) : Gives ok a a
  | give {a b : Alarms} (h : Gives ok a b) (now i : Nat) (present : Bool) (hi : ok i) :
    Gives ok a (alarmsGive now i present b)

section
variable {ok : Nat → Prop}

theorem Gives.one {i : Nat} (hi : ok i) (now : Nat) (present : Bool) (a : Alarms) :
    Gives ok a (alarmsGive now i present a) := .give (.refl a) now i present hi

theorem Gives.trans {a b c : Alarms} (h : Gives ok a b) (k : Gives ok b c) : Gives ok a c := by
  induction k with
  | refl => exact h
  | give _ now i present hi ih => exact .give ih now i present hi

theorem Gives.of_eq {a b : Alarms} (h : b = a) : Gives ok a b := by
  rw [h]
  exact .refl a

/-- Conditions given behind a change that leaves the alarms. -/
theorem Gives.behind {s u v : State} (k : Gives ok u.alarms v.alarms) (h : u.alarms = s.alarms) :
    Gives ok s.alarms v.alarms := h ▸ k

theorem Gives.mono {wider : Nat → Prop} (hw : ∀ i, ok i → wider i) {a b : Alarms} (h : Gives ok a b) : Gives wider a b := by
  induction h with
  | refl => exact .refl _
  | give _ now i present hi ih => exact .give ih now i present (hw i hi)

theorem Gives.foldl {α : Type} {f : State → α → State} {xs : List α}
    (hf : ∀ x ∈ xs, ∀ u, Gives ok u.alarms (f u x).alarms) (s : State) : Gives ok s.alarms (xs.foldl f s).alarms :=
  foldl_keeps (p := fun u => Gives ok s.alarms u.alarms) (fun x hx u hu => hu.trans (hf x hx u)) (.refl _)

/-- What changes of conditions keep, given conditions keep. -/
theorem Gives.keeps {q : Alarms → Prop} (hq : ∀ now i present a, ok i → q a → q (alarmsGive now i present a))
    {a b : Alarms} (h : Gives ok a b) (ha : q a) : q b := by
  induction h with
  | refl => exact ha
  | give _ now i present hi ih => exact hq now i present _ hi ih

end

/-! ### The sources of each owner -/

/-- The sources of the journal and the Meter. -/
def moneySource (i : Nat) : Prop := i = journalHighSource ∨ i = balanceOverflowSource

/-- The five sources of a node. -/
def nodeSource (n i : Nat) : Prop :=
  i = nodeOutageSource n ∨ i = nodeDegradedSource n ∨ i = nodePowerSource n ∨ i = nodeLevelStepSource n ∨
    i = switchFaultSource n

/-- The sources that `ok` admits are those of the part, of nodes that `fit` admits and of its inputs. -/
structure AdmitsPart (ok fit : Nat → Prop) : Prop where
  money : ∀ i, moneySource i → ok i
  input : ∀ n, (1 ≤ n ∧ n ≤ 64) → ok (sourceLostSource n)
  node : ∀ n, fit n → ∀ i, nodeSource n i → ok i
  part : ∀ n, (1 ≤ n ∧ n ≤ 32) → fit n

/-! ### Money -/

theorem gives_plainWrite (time : Nat) (body : RecordBody) (s : State) :
    Gives moneySource s.alarms (plainWrite time body s).alarms := by
  obtain ⟨-, h⟩ | ⟨-, h⟩ := plainWrite_cases time body s <;> rw [h]
  · exact .one (.inl rfl) _ _ _
  · exact .refl _

theorem gives_takeReservation (s : State) : Gives moneySource s.alarms (takeReservation s).alarms := by
  obtain ⟨-, h⟩ | ⟨-, h⟩ := takeReservation_cases s <;> rw [h]
  · exact .one (.inl rfl) _ _ _
  · exact .refl _

theorem gives_releaseReservation (s : State) : Gives moneySource s.alarms (releaseReservation s).alarms := by
  obtain ⟨-, h⟩ | ⟨-, h⟩ := releaseReservation_cases s <;> rw [h]
  · exact .one (.inl rfl) _ _ _
  · exact .refl _

theorem gives_convertReservation (time : Nat) (body : RecordBody) (s : State) :
    Gives moneySource s.alarms (convertReservation time body s).alarms := by
  obtain ⟨-, h⟩ | ⟨-, h⟩ := convertReservation_cases time body s <;> rw [h]
  · exact .one (.inl rfl) _ _ _
  · exact .refl _

theorem gives_judgeOverflow (s : State) : Gives moneySource s.alarms (judgeOverflow s).alarms := .one (.inr rfl) _ _ _

/-- Conditions of money given behind a state. -/
abbrev moneyGiven (s u : State) : Prop := Gives moneySource s.alarms u.alarms

theorem moneyGiven_keptByMoney (s : State) : KeptByMoney (moneyGiven s) where
  account _ _ _ _ h := h
  write _ _ u h := h.trans (gives_plainWrite _ _ u)
  judge u h := h.trans (gives_judgeOverflow u)

theorem gives_recompute (a : Nat) (s : State) : (recompute a s).alarms = s.alarms := (changes_recompute a s).same .alarms

theorem moneyGiven_keptByEvents (s : State) : KeptByEvents (moneyGiven s) where
  balance _ _ _ _ := (moneyGiven_keptByMoney s).balanceUpdate
  drop _ _ _ h := h
  tap a u h := h.trans (.of_eq (gives_recompute a u))
  convert _ _ u h := h.trans (gives_convertReservation _ _ u)
  release u h := h.trans (gives_releaseReservation u)
  table _ _ hc h := h.trans (.of_eq (hc.same .alarms))

theorem moneyGiven_keptByPurchases (s : State) : KeptByPurchases (moneyGiven s) := by
  intro a e origin counter u _ _ _ _ h
  have charged : moneyGiven s (balanceUpdate a.number e.price 2 u) := (moneyGiven_keptByMoney s).balanceUpdate h
  unfold acceptPurchase
  dsimp only
  generalize balanceUpdate a.number e.price 2 u = v at charged ⊢
  have written := charged.trans (gives_plainWrite u.clock.time (.purchase a.number e.id e.price origin) v)
  generalize plainWrite u.clock.time (.purchase a.number e.id e.price origin) v = w at written ⊢
  have taken := written.trans (gives_takeReservation w)
  generalize takeReservation w = x at taken ⊢
  unfold moneyGiven
  rw [gives_recompute]
  exact taken

theorem gives_meterTallyTake (s : State) : moneyGiven s (meterTallyTakeStep s) :=
  ((moneyGiven_keptByMoney s).meter (fun _ _ h => h) fun _ _ h => h).meterTallyTake (.refl _)

theorem gives_gapRecord (s : State) : moneyGiven s (gapRecordStep s) := by
  unfold gapRecordStep
  split
  · dsimp only
    split
    · exact gives_plainWrite _ _ { s with due := { s.due with gapRecord := false } }
    · exact .refl _
  · exact .refl _

theorem gives_restartUp (s : State) : moneyGiven s (restartUpStep s) := by
  unfold restartUpStep rejudge
  split
  · dsimp only
    split
    · exact .give (.one (.inl rfl) _ _ _) _ _ _ (.inr rfl)
    · exact .give (.one (.inr rfl) _ _ _) _ _ _ (.inl rfl)
  · exact .refl _

theorem gives_accountClose (k : Nat) (s : State) : moneyGiven s (accountCloseStep k s).1 := by
  obtain heq | ⟨account, -, -, freed, rfl, heq⟩ := accountCloseStep_cases k s <;> rw [heq]
  · exact .refl _
  have recomputed := gives_recompute account.address (bindPort account.address account.port none
    { s with accounts := s.accounts.filter (·.number != account.number) })
  split
  · exact Gives.trans (.of_eq recomputed) (gives_judgeOverflow _)
  · exact .of_eq recomputed

theorem gives_switchoverSchedule (time : Nat) (s : State) : moneyGiven s (switchoverScheduleStep time s).1 := by
  unfold switchoverScheduleStep
  repeat' split
  all_goals first
    | exact .refl _
    | exact .behind (gives_takeReservation _) rfl

theorem gives_switchoverCancel (s : State) : moneyGiven s (switchoverCancelStep s).1 := by
  unfold switchoverCancelStep
  split
  · exact .behind (gives_releaseReservation _) rfl
  · exact .refl _

theorem gives_journalRelease (q : Nat) (s : State) : moneyGiven s (journalReleaseStep q s).1 := by
  unfold journalReleaseStep
  split
  · exact .refl _
  · split
    · exact .refl _
    · exact .one (.inl rfl) _ _ _

/-! ### Nodes -/

theorem gives_giveNodeConditions (n : Nat) (s : State) : Gives (nodeSource n) s.alarms (giveNodeConditions n s).alarms := by
  unfold giveNodeConditions
  dsimp only
  split
  · exact .give (.one (.inr (.inl rfl)) _ _ _) _ _ _ (.inl rfl)
  · exact .give (.one (.inl rfl) _ _ _) _ _ _ (.inr (.inl rfl))

theorem gives_setNodeState (n : Nat) (state : NodeState) (timer : Option Nat) (s : State) :
    Gives (nodeSource n) s.alarms (setNodeState n state timer s).alarms :=
  gives_giveNodeConditions n (modifyNode n _ s)

theorem gives_reevaluate (n : Nat) (s : State) : Gives (nodeSource n) s.alarms (reevaluate n s).alarms :=
  reevaluate_keeps (p := fun u => Gives (nodeSource n) s.alarms u.alarms)
    (fun _ _ _ h => h.trans (gives_setNodeState n _ _ _)) (.refl _)

theorem gives_probeAnswer (n probe : Nat) (s : State) : Gives (nodeSource n) s.alarms (probeAnswer n probe s).alarms :=
  probeAnswer_keeps (p := fun u => Gives (nodeSource n) s.alarms u.alarms) id
    (fun _ _ _ _ h => h.trans (gives_setNodeState n _ _ _)) (.refl _)

theorem gives_judgeSwitchFault (n : Nat) (s : State) : Gives (nodeSource n) s.alarms (judgeSwitchFault n s).alarms :=
  .one (.inr (.inr (.inr (.inr rfl)))) _ _ _

theorem gives_judgePower (n : Nat) (s : State) : Gives (nodeSource n) s.alarms (judgePower n s).alarms :=
  .one (.inr (.inr (.inl rfl))) _ _ _

theorem gives_judgeLevelStep (n : Nat) (s : State) : Gives (nodeSource n) s.alarms (judgeLevelStep n s).alarms :=
  .one (.inr (.inr (.inr (.inl rfl)))) _ _ _

theorem gives_takeReading (n : Nat) (reading : Reading) (s : State) :
    Gives (nodeSource n) s.alarms (takeReading n reading s).alarms :=
  Gives.trans (gives_judgePower n (modifyNode n _ s)) (gives_judgeLevelStep n _)

theorem gives_loseTransponder (n : Nat) (s : State) : Gives (nodeSource n) s.alarms (loseTransponder n s).alarms :=
  .give (.one (.inr (.inr (.inl rfl))) _ _ _) _ _ _ (.inr (.inr (.inr (.inl rfl))))

theorem gives_restoreHoldExpiry (n : Nat) (s : State) :
    Gives (nodeSource n) s.alarms (restoreHoldExpiryStep n s).alarms := by
  unfold restoreHoldExpiryStep
  split
  · exact gives_setNodeState n _ _ s
  · exact .refl _

theorem gives_nodeConfig {ok fit : Nat → Prop} (admits : AdmitsPart ok fit) (n : Nat) (given : Thresholds) (s : State) :
    Gives ok s.alarms (nodeConfigStep n given s).1.alarms := by
  unfold nodeConfigStep
  split
  · exact .refl _
  · rename_i hn
    have fits : fit n := admits.part n (within_iff.1 (by simpa using hn))
    exact (Gives.trans (gives_reevaluate n (modifyNode n _ s)) (gives_judgePower n _)).mono (admits.node n fits)

theorem gives_judgeSourceLost (i : Nat) (s : State) :
    Gives (· = sourceLostSource i) s.alarms (judgeSourceLost i s).alarms :=
  .one (ok := (· = sourceLostSource i)) rfl _ _ _

theorem gives_sourceDebounceVerdict (i : Nat) (s : State) :
    Gives (· = sourceLostSource i) s.alarms (sourceDebounceVerdictStep i s).alarms := by
  unfold sourceDebounceVerdictStep
  split
  · exact .refl _
  · exact gives_judgeSourceLost i (modifyInput i _ s)

/-! ### Switching -/

/-- Every tap on record is of a node that `fit` admits. -/
def tapsFit (fit : Nat → Prop) (s : State) : Prop := ∀ t ∈ s.taps, fit t.node

theorem tapsFit_of_agrees {fit : Nat → Prop} {s u : State} (h : List.Forall₂ tapAgrees s.taps u.taps) (hs : tapsFit fit s) :
    tapsFit fit u := fun q hq => by
  obtain ⟨r, hr, -, hnode, -⟩ := forall₂_exists h hq
  exact hnode ▸ hs r hr

section
variable {ok fit : Nat → Prop} (admits : AdmitsPart ok fit)
include admits

/-- SWITCH_FAULT of a fitting node is given behind changes that leave the alarms. -/
theorem gives_switchFault {n : Nat} (hn : fit n) {s u : State} (h : u.alarms = s.alarms) :
    Gives ok s.alarms (judgeSwitchFault n u).alarms :=
  (Gives.of_eq h).trans ((gives_judgeSwitchFault n u).mono (admits.node n hn))

theorem gives_compareStatus (a : Nat) (ports : TapSetting) {s : State} (hs : tapsFit fit s) :
    Gives ok s.alarms (compareStatus a ports s).alarms := by
  unfold compareStatus
  split
  · exact .refl _
  · rename_i t ht
    split
    · exact gives_switchFault admits (hs t (findTap_some ht).1) rfl
    · exact .refl _

theorem gives_reconcile (a : Nat) (ports : TapSetting) {s : State} (hs : tapsFit fit s) :
    Gives ok s.alarms (reconcile a ports s).alarms :=
  Gives.trans (.of_eq ((changes_evaluateStale a s).same .alarms))
    (gives_compareStatus admits a ports (tapsFit_of_agrees (sameUnits_evaluateStale a s).1 hs))

theorem gives_judgeDelivery (a : Nat) (result : WindowResult) {s : State} (hs : tapsFit fit s) :
    Gives ok s.alarms (judgeDelivery a result s).alarms := by
  unfold judgeDelivery
  split
  · exact .refl _
  · rename_i t ht
    have fits := hs t (findTap_some ht).1
    split
    · exact gives_switchFault admits fits rfl
    · unfold deliveryFailed
      dsimp only
      split
      · split
        · exact .refl _
        · exact gives_switchFault admits fits rfl
      · exact .refl _

/-! ### Landing, passes and removal -/

theorem gives_landTap (t : TapRec) (probe : Bool) (result : WindowResult) {s : State} (ht : fit t.node)
    (hs : tapsFit fit s) : Gives ok s.alarms (landTap t probe result s).alarms := by
  have node := admits.node t.node ht
  refine (landTap_keeps (p := fun u => Gives ok s.alarms u.alarms ∧ tapsFit fit u) (fun f hf h => ?_) (fun u h => ?_)
    (fun ports u h => ?_) (fun u h => ?_) ⟨.refl _, hs⟩).1
  · refine ⟨h.1, fun q hq => ?_⟩
    obtain ⟨r, hr, rfl | ⟨-, rfl⟩⟩ := modifyTap_ports hq
    · exact h.2 q hr
    · rw [((hf.1 r).2.1)]
      exact h.2 r hr
  · have taps : (reevaluate t.node u).taps = u.taps := (changes_reevaluate t.node u).same .taps
    refine ⟨h.1.trans ((gives_reevaluate t.node u).mono node), fun q hq => h.2 q (taps ▸ hq)⟩
  · exact ⟨h.1.trans (gives_reconcile admits _ ports h.2), tapsFit_of_agrees (sameUnits_reconcile _ ports u).1 h.2⟩
  · exact ⟨h.1.trans ((gives_probeAnswer t.node _ u).mono node),
      tapsFit_of_agrees (sameUnits_probeAnswer t.node _ u).1 h.2⟩

theorem gives_landTransponder (n a : Nat) (probe : Bool) (result : WindowResult) (s : State) (hn : fit n) :
    Gives ok s.alarms (landTransponder n a probe result s).alarms :=
  landTransponder_keeps (p := fun u => Gives ok s.alarms u.alarms) (fun _ _ h => h)
    (fun _ u h => h.trans ((gives_takeReading n _ u).mono (admits.node n hn)))
    (fun u h => h.trans ((gives_probeAnswer n _ u).mono (admits.node n hn))) (.refl _)

theorem gives_replyWindow (energy : Bool) (message : Option (List Byte)) {s : State} (hs : tapsFit fit s) :
    Gives ok s.alarms (replyWindowCloseStep energy message s).alarms := by
  have landed (a : Nat) (probe : Bool) (result : WindowResult) {u : State} (hu : tapsFit fit u) :
      Gives ok u.alarms (landReply a probe result u).alarms :=
    landReply_keeps (p := fun v => Gives ok u.alarms v.alarms)
      (fun t ht _ => gives_landTap admits t probe result (hu t (findTap_some ht).1) hu)
      (fun n hn _ => gives_landTransponder admits n a probe result u (admits.part n hn)) (.refl _)
  unfold replyWindowCloseStep
  split
  · exact .refl _
  · have waiting : tapsFit fit { s with carrier := { s.carrier with expectation := none } } := hs
    unfold handResult
    split
    · exact landed _ _ _ waiting
    · exact gives_judgeDelivery admits _ _ waiting
    · unfold contentionResult
      split
      · split
        · exact .refl _
        · exact .refl _
      · exact .refl _

theorem gives_slotOpen (s : State) : Gives ok s.alarms (slotOpenStep s).alarms :=
  slotOpenStep_keeps (p := fun u => Gives ok s.alarms u.alarms) (fun _ _ h => h) (fun _ _ h => h)
    (fun _ h => pollOffer_keeps (p := fun u => Gives ok s.alarms u.alarms) (fun _ _ h => h)
      (fun _ h => passEnd_keeps (p := fun u => Gives ok s.alarms u.alarms) id
        (fun n hn u h => h.trans ((gives_loseTransponder n u).mono (admits.node n (admits.part n hn)))) h) h)
    (fun _ _ _ h => h) (.refl _)

theorem gives_tapRemove (address : Nat) {s : State} (hs : tapsFit fit s) :
    Gives ok s.alarms (tapRemoveStep address s).1.alarms := by
  unfold tapRemoveStep
  split
  · exact .refl _
  split
  · exact .refl _
  rename_i t ht
  split
  · exact .refl _
  have fits := hs t (findTap_some ht).1
  have moved (u : State) : Gives ok u.alarms (setTapState t .removing u).alarms :=
    setTapState_keeps (p := fun v => Gives ok u.alarms v.alarms) id
      (fun v h => h.trans ((gives_reevaluate t.node v).mono (admits.node t.node fits))) (.refl _)
  exact (moved (changeNextList _ s)).trans (gives_switchFault admits fits rfl)

theorem gives_takeSwitchover (b : Nat) (s : State) : Gives ok s.alarms (takeSwitchover b s).alarms := by
  have recorded := (gives_convertReservation b (.switchover (switchLineup b s.lineup).active.version)
    { s with lineup := switchLineup b s.lineup }).mono admits.money
  unfold takeSwitchover
  dsimp only
  generalize convertReservation _ _ _ = u at recorded ⊢
  have handed : (switchoverTaps (movedEvents s.lineup.active (switchLineup b s.lineup).active s.events)
      { u with carrier := { u.carrier with cursor := 0 } }).alarms = u.alarms := (changes_switchoverTaps _ _).same .alarms
  refine Gives.trans recorded (.behind (Gives.foldl (fun i hi u => (gives_judgeSourceLost i u).mono ?_) _) handed)
  rintro _ rfl
  exact admits.input i (mem_upTo.1 hi)

theorem gives_switchoverTake (s : State) : Gives ok s.alarms (switchoverTakeStep s).alarms := by
  unfold switchoverTakeStep
  split
  · exact .refl _
  · dsimp only
    split
    · exact .behind (gives_takeSwitchover admits _ _) rfl
    · exact .refl _

/-! ### The commands -/

/-- The commands that set the Alarm Controller, drain its queue or reset the part. -/
def setsAlarms : Instr → Bool
  | .alarmSet _ _ _ _ _ => true
  | .compositeDefine _ _ _ _ _ _ => true
  | .compositeRelease _ _ => true
  | .alarmExpress _ _ _ => true
  | .alarmAck _ _ => true
  | .alarmDefer _ _ => true
  | .firstPower => true
  | .mainPowerReturn => true
  | .resetPin => true
  | .outboundFrameDone => true
  | _ => false

/-- Every other command gives the Alarm Controller conditions of the part's sources and changes it in no other way. -/
theorem gives_command {c : Instr} (hc : setsAlarms c = false) (hunit : namesUnit c) {s : State} (hs : tapsFit fit s) :
    Gives ok s.alarms (commandStep c s).alarms := by
  have money {a b : Alarms} (h : Gives moneySource a b) : Gives ok a b := h.mono admits.money
  have running {f : State → State} (h : Gives ok s.alarms (f s).alarms) :
      Gives ok s.alarms (whenRunning f s).alarms :=
    whenRunning_keeps (p := fun u => Gives ok s.alarms u.alarms) (.refl _) fun _ => h
  have request {owner : State → State × Reply} (ho : ∀ u, tapsFit fit u → Gives ok u.alarms (owner u).1.alarms) :
      Gives ok s.alarms (serve c owner s).alarms := by
    unfold serve
    split
    · rename_i u hu
      obtain ⟨-, -, ⟨-, rfl⟩ | ⟨rest, -, rfl⟩⟩ := claimRequest_cases hu
      · exact ho _ hs
      · refine .behind (ho _ ?_) rfl
        exact hs
    · exact running (.refl _)
  cases c
  case switchoverSchedule => exact request fun u _ => money (gives_switchoverSchedule _ u)
  case switchoverCancel => exact request fun u _ => money (gives_switchoverCancel u)
  case tapRemove => exact request fun u hu => gives_tapRemove admits _ hu
  case nodeConfig => exact request fun u _ => gives_nodeConfig admits _ _ u
  case accountClose => exact request fun u _ => money (gives_accountClose _ u)
  case cycleClose => exact request fun u _ => money ((moneyGiven_keptByMoney u).cycleClose (.refl _))
  case eventCancel => exact request fun u _ => money ((moneyGiven_keptByEvents u).eventCancel (.refl _))
  case purchaseEnter => exact request fun u _ => money (purchaseEnter_keeps (moneyGiven_keptByPurchases u) (.refl _))
  case journalRelease => exact request fun u _ => money (gives_journalRelease _ u)
  case restartUp => exact money (gives_restartUp s)
  case restartEventStep => exact running (money ((moneyGiven_keptByEvents s).events.restartEvent (.refl _)))
  case gapRecord => exact running (money (gives_gapRecord s))
  case meterTallyTake => exact running (money (gives_meterTallyTake s))
  case eventMinuteEnd => exact running (money ((moneyGiven_keptByEvents s).events.eventMinuteEnd (.refl _)))
  case switchoverTake => exact running (gives_switchoverTake admits s)
  case sourceDebounceVerdict i =>
    refine running ((gives_sourceDebounceVerdict i s).mono ?_)
    rintro _ rfl
    exact admits.input i hunit
  case restoreHoldExpiry n => exact running ((gives_restoreHoldExpiry n s).mono (admits.node n (admits.part n hunit)))
  case slotOpen => exact running (gives_slotOpen admits s)
  case replyWindowClose => exact running (gives_replyWindow admits _ _ hs)
  case purchaseDecide =>
    exact running (money (purchaseDecide_keeps (fun _ _ hc h => h.trans (.of_eq (hc.same .alarms)))
      (moneyGiven_keptByPurchases s) (.refl _)))
  case alarmSet => cases hc
  case compositeDefine => cases hc
  case compositeRelease => cases hc
  case alarmExpress => cases hc
  case alarmAck => cases hc
  case alarmDefer => cases hc
  case firstPower => cases hc
  case mainPowerReturn => cases hc
  case resetPin => cases hc
  case outboundFrameDone => cases hc
  all_goals exact .of_eq ((commandStep_changes _ s).same .alarms)

end

end Sys2Proof.Machine
end

section
/-! SUPPORT. The Alarm Controller's arbiter, the carrying of changes through the composites and the filling of the report
queue, each by equations of its own. -/

namespace Sys2Proof.Machine

/-! ### Sources by their records -/

theorem alarmOf_of_ge (a : Alarms) {i : Nat} (h : 234 ≤ i) : alarmOf a i = coldAlarm := vecGet_of_ge _ _ _ h

theorem sources_toList (a : Alarms) : a.sources.toList = (List.range 234).map (alarmOf a) := by
  refine List.ext_getElem (by simp) fun i h _ => ?_
  have hi : i < 234 := by simpa using h
  rw [List.getElem_map, List.getElem_range, alarmOf, vecGet_of_lt _ _ _ hi]
  rfl

theorem mem_sources {a : Alarms} {r : AlarmRec} : r ∈ a.sources.toList ↔ ∃ i < 234, alarmOf a i = r := by
  simp [sources_toList]

/-- The sources whose records satisfy `p` are the numbers 0..233 that satisfy it. -/
theorem sourcesWith_eq (a : Alarms) (p : AlarmRec → Bool) :
    sourcesWith a p = (List.range 234).filter fun i => p (alarmOf a i) := by
  have indexed : a.sources.toList.zipIdx = (List.range 234).map fun i => (alarmOf a i, i) := by
    refine List.ext_getElem (by simp) fun i h _ => ?_
    simp [sources_toList]
  rw [sourcesWith, indexed, List.filter_map, List.map_map]
  exact List.map_id _

theorem mem_sourcesWith {a : Alarms} {p : AlarmRec → Bool} {i : Nat} :
    i ∈ sourcesWith a p ↔ i < 234 ∧ p (alarmOf a i) = true := by
  rw [sourcesWith_eq, List.mem_filter, List.mem_range]

/-! ### The arbiter (R179, R180) -/

theorem eligible_iff {a : Alarms} {level i : Nat} :
    eligible a level i = true ↔
      (alarmOf a i).state = .pending ∧ (alarmOf a i).clearOwed = false ∧
        (level < (alarmOf a i).level ∨ inExpress a i = true) := by
  simp [eligible, and_assoc]

/-- An eligible source is on record. -/
theorem lt_of_eligible {a : Alarms} {level i : Nat} (h : eligible a level i = true) : i < 234 := by
  by_contra hi
  rw [eligible_iff, alarmOf_of_ge a (by omega)] at h
  exact nomatch h.1

theorem expressChoice_eq_some {a : Alarms} {level k i : Nat} :
    expressChoice a level k = some i ↔ vecGet a.express k none = some i ∧ eligible a level i = true := by
  unfold expressChoice
  split
  · rename_i j hj
    split_ifs with he
    · rw [Option.some.injEq, hj, Option.some.injEq]
      exact ⟨fun h => ⟨h, h ▸ he⟩, fun h => h.1⟩
    · rw [hj, Option.some.injEq]
      exact ⟨fun h => (nomatch h), fun h => absurd (h.1 ▸ h.2) he⟩
  · rename_i hnone
    rw [hnone]
    exact ⟨fun h => (nomatch h), fun h => (nomatch h.1)⟩

theorem expressChoice_eq_none {a : Alarms} {level k : Nat} :
    expressChoice a level k = none ↔ ∀ j, vecGet a.express k none = some j → ¬eligible a level j = true := by
  rw [Option.eq_none_iff_forall_not_mem]
  exact forall_congr' fun j => by rw [Option.mem_def, expressChoice_eq_some, not_and]

/-- The sources that wait for a raise, in ascending order. -/
theorem waiting_eq (a : Alarms) (level : Nat) :
    (sourcesWith a fun r => r.state = .pending).filter (eligible a level) = (List.range 234).filter (eligible a level) := by
  rw [sourcesWith_eq, List.filter_filter]
  refine List.filter_congr fun i _ => ?_
  rw [Bool.and_eq_left_iff_imp]
  exact fun h => decide_eq_true (eligible_iff.1 h).1

/-- The lowest eligible source of level `l`. -/
def waitingAt (a : Alarms) (level l : Nat) : Option Nat :=
  ((List.range 234).filter (eligible a level)).find? fun i => (alarmOf a i).level = l

theorem waitingAt_eq_some {a : Alarms} {level l i : Nat} :
    waitingAt a level l = some i ↔
      eligible a level i = true ∧ (alarmOf a i).level = l ∧
        ∀ j, eligible a level j = true → (alarmOf a j).level = l → i ≤ j := by
  rw [waitingAt, List.find?_filter, List.find?_range_eq_some]
  simp only [Bool.not_eq_true', decide_eq_true_eq, decide_eq_false_iff_not, List.mem_range]
  constructor
  · rintro ⟨⟨he, hl⟩, -, hleast⟩
    refine ⟨he, hl, fun j hj hjl => ?_⟩
    by_contra hlt
    exact hleast j (by omega) ⟨hj, hjl⟩
  · rintro ⟨he, hl, hleast⟩
    refine ⟨⟨he, hl⟩, lt_of_eligible he, fun j hj => ?_⟩
    rintro ⟨hej, hjl⟩
    exact absurd (hleast j hej hjl) (by omega)

theorem waitingAt_eq_none {a : Alarms} {level l : Nat} :
    waitingAt a level l = none ↔ ∀ j, eligible a level j = true → (alarmOf a j).level ≠ l := by
  simp only [waitingAt, List.find?_eq_none, List.mem_filter, List.mem_range, decide_eq_true_eq]
  exact ⟨fun h j hj => h j ⟨lt_of_eligible hj, hj⟩, fun h j hj => h j hj.2⟩

theorem raiseChoice_eq (a : Alarms) (level : Nat) :
    raiseChoice a level = (waitingAt a level 3).or ((waitingAt a level 2).or (waitingAt a level 1)) := by
  have choice : raiseChoice a level = [3, 2, 1].findSome? fun l => waitingAt a level l := by
    unfold raiseChoice
    dsimp only
    rw [waiting_eq]
    rfl
  rw [choice]
  simp only [List.findSome?_cons, List.findSome?_nil]
  cases waitingAt a level 3 <;> cases waitingAt a level 2 <;> cases waitingAt a level 1 <;> rfl

/-- R180, case 3: the highest level and then the lowest number. -/
theorem raiseChoice_eq_some {a : Alarms} {level i : Nat} :
    raiseChoice a level = some i ↔
      eligible a level i = true ∧ 1 ≤ (alarmOf a i).level ∧ (alarmOf a i).level ≤ 3 ∧
        ∀ j, eligible a level j = true → 1 ≤ (alarmOf a j).level → (alarmOf a j).level ≤ 3 →
          (alarmOf a j).level < (alarmOf a i).level ∨ ((alarmOf a j).level = (alarmOf a i).level ∧ i ≤ j) := by
  rw [raiseChoice_eq, Option.or_eq_some_iff, Option.or_eq_some_iff]
  simp only [waitingAt_eq_some, waitingAt_eq_none]
  constructor
  · rintro (⟨he, hl, hleast⟩ | ⟨h3, ⟨he, hl, hleast⟩ | ⟨h2, he, hl, hleast⟩⟩) <;>
      refine ⟨he, by omega, by omega, fun j hj _ _ => ?_⟩
    · by_cases hjl : (alarmOf a j).level = 3
      · exact .inr ⟨hjl.trans hl.symm, hleast j hj hjl⟩
      · exact .inl (by omega)
    · have := h3 j hj
      by_cases hjl : (alarmOf a j).level = 2
      · exact .inr ⟨hjl.trans hl.symm, hleast j hj hjl⟩
      · exact .inl (by omega)
    · have := h3 j hj
      have := h2 j hj
      exact .inr ⟨by omega, hleast j hj (by omega)⟩
  · rintro ⟨he, hlow, hhigh, hbest⟩
    have least : ∀ j, eligible a level j = true → (alarmOf a j).level = (alarmOf a i).level → i ≤ j := fun j hj hjl => by
      obtain hlt | ⟨-, hle⟩ := hbest j hj (by omega) (by omega)
      · omega
      · exact hle
    have none_above (l : Nat) (hl : (alarmOf a i).level < l) (hl3 : l ≤ 3) :
        ∀ j, eligible a level j = true → (alarmOf a j).level ≠ l := fun j hj hjl => by
      obtain hlt | ⟨heq, -⟩ := hbest j hj (by omega) (by omega) <;> omega
    obtain hl | hl | hl : (alarmOf a i).level = 3 ∨ (alarmOf a i).level = 2 ∨ (alarmOf a i).level = 1 := by omega
    · exact .inl ⟨he, hl, fun j hj hjl => least j hj (by omega)⟩
    · exact .inr ⟨none_above 3 (by omega) (by omega), .inl ⟨he, hl, fun j hj hjl => least j hj (by omega)⟩⟩
    · exact .inr ⟨none_above 3 (by omega) (by omega),
        .inr ⟨none_above 2 (by omega) (by omega), he, hl, fun j hj hjl => least j hj (by omega)⟩⟩

/-- R180, cases 1 to 3. -/
theorem nextRaise_eq_some {a : Alarms} {i : Nat} :
    nextRaise a = some i ↔
      eligible a (serviceLevel a) i = true ∧
        (vecGet a.express 0 none = some i ∨
          ((∀ k, vecGet a.express 0 none = some k → ¬eligible a (serviceLevel a) k = true) ∧
            (vecGet a.express 1 none = some i ∨
              ((∀ k, vecGet a.express 1 none = some k → ¬eligible a (serviceLevel a) k = true) ∧
                1 ≤ (alarmOf a i).level ∧ (alarmOf a i).level ≤ 3 ∧
                ∀ j, eligible a (serviceLevel a) j = true → 1 ≤ (alarmOf a j).level → (alarmOf a j).level ≤ 3 →
                  (alarmOf a j).level < (alarmOf a i).level ∨
                    ((alarmOf a j).level = (alarmOf a i).level ∧ i ≤ j))))) := by
  simp only [nextRaise, Option.or_eq_some_iff, expressChoice_eq_some, expressChoice_eq_none, raiseChoice_eq_some]
  tauto

/-- The service level: the highest of the levels reported OPEN. -/
theorem serviceLevel_eq (a : Alarms) :
    serviceLevel a =
      (a.sources.toList.filterMap fun r => if r.state = .opened then r.reported else none).foldl max 0 := by
  have fold (rs : List AlarmRec) (m : Nat) :
      rs.foldl (fun m r => if r.state = .opened then max m (r.reported.getD 0) else m) m =
        (rs.filterMap fun r => if r.state = .opened then r.reported else none).foldl max m := by
    induction rs generalizing m with
    | nil => rfl
    | cons r rs ih =>
      rw [List.foldl_cons, ih]
      by_cases ho : r.state = .opened
      · cases hr : r.reported <;> simp [ho, hr]
      · simp [ho]
  exact fold _ 0

/-! ### Taking reports and filling the queue (R180) -/

theorem takeReport_raise {a : Alarms} {i : Nat} (h : nextRaise a = some i) (now : Nat) :
    takeReport now a = some (takeRaise now i a) := by
  simp only [takeReport, h]

theorem takeReport_clear {a : Alarms} (h : nextRaise a = none) (now : Nat) :
    takeReport now a = (sourcesWith a (·.clearOwed)).head?.map fun i => takeClear now i a := by
  simp only [takeReport, h]

/-- The lowest source that owes its clear. -/
theorem head_clearOwed {a : Alarms} {i : Nat} (hi : i < 234) (howed : (alarmOf a i).clearOwed = true)
    (hleast : ∀ k, k < i → (alarmOf a k).clearOwed = false) : (sourcesWith a (·.clearOwed)).head? = some i := by
  rw [sourcesWith_eq, List.head?_filter, List.find?_range_eq_some]
  exact ⟨howed, List.mem_range.2 hi, fun k hk => by rw [hleast k hk]; rfl⟩

theorem sourcesWith_eq_nil {a : Alarms} {p : AlarmRec → Bool} (h : ∀ k, k < 234 → p (alarmOf a k) = false) :
    sourcesWith a p = [] := by
  rw [sourcesWith_eq, List.filter_eq_nil_iff]
  exact fun k hk => by rw [h k (List.mem_range.1 hk)]; exact Bool.false_ne_true

/-- One take adds one report. -/
theorem takeReport_length {now : Nat} {a b : Alarms} (h : takeReport now a = some b) :
    b.queue.length = a.queue.length + 1 := by
  unfold takeReport at h
  split at h
  · cases h
    simp [takeRaise]
  · obtain ⟨i, -, rfl⟩ := Option.map_eq_some_iff.1 h
    simp [takeClear]

section
variable {now : Nat} {a b : Alarms}

theorem fillQueue_full (fuel : Nat) (h : 16 ≤ a.queue.length) : fillQueue now fuel a = a := by
  cases fuel with
  | zero => rfl
  | succ fuel => rw [fillQueue, if_neg (by omega)]

theorem fillQueue_done (fuel : Nat) (h : takeReport now a = none) : fillQueue now fuel a = a := by
  cases fuel with
  | zero => rfl
  | succ fuel => simp only [fillQueue, h, ite_self]

theorem fillQueue_take (fuel : Nat) (hroom : a.queue.length < 16) (h : takeReport now a = some b) :
    fillQueue now (fuel + 1) a = fillQueue now fuel b := by
  simp only [fillQueue, if_pos hroom, h]

/-- Fuel beyond what fills the queue changes nothing. -/
theorem fillQueue_enough (fuel : Nat) (a : Alarms) (h : 16 ≤ fuel + a.queue.length) :
    fillQueue now (fuel + 1) a = fillQueue now fuel a := by
  induction fuel generalizing a with
  | zero => rw [fillQueue_full _ (by omega), fillQueue_full _ (by omega)]
  | succ fuel ih =>
    by_cases hroom : a.queue.length < 16
    · cases hb : takeReport now a with
      | none => rw [fillQueue_done _ hb, fillQueue_done _ hb]
      | some b =>
        have hlen := takeReport_length hb
        rw [fillQueue_take _ hroom hb, fillQueue_take _ hroom hb, ih b (by omega)]
    · rw [fillQueue_full _ (by omega), fillQueue_full _ (by omega)]

theorem fillQueue_ends (fuel : Nat) (a : Alarms) (h : 16 ≤ fuel + a.queue.length) :
    16 ≤ (fillQueue now fuel a).queue.length ∨ takeReport now (fillQueue now fuel a) = none := by
  induction fuel generalizing a with
  | zero =>
    rw [Nat.zero_add] at h
    exact .inl h
  | succ fuel ih =>
    by_cases hroom : a.queue.length < 16
    · cases hb : takeReport now a with
      | none =>
        rw [fillQueue_done _ hb]
        exact .inr hb
      | some b =>
        have hlen := takeReport_length hb
        rw [fillQueue_take _ hroom hb]
        exact ih b (by omega)
    · rw [fillQueue_full _ (by omega)]
      exact .inl (by omega)

theorem fill_take (hroom : a.queue.length < 16) (h : takeReport now a = some b) : fill now a = fill now b := by
  have hlen := takeReport_length h
  rw [fill, fillQueue_take 15 hroom h, ← fillQueue_enough 15 b (by omega)]
  rfl

end

/-! ### The composites (R176) -/

/-- The operands of every composite stand below it. -/
abbrev operandsBelow (a : Alarms) : Prop :=
  ∀ k ∈ List.range 8, ∀ d ∈ vecGet a.composites k none, d.a < compositeSource k ∧ d.b < compositeSource k

/-- The condition of composite `k` is its computed value, or its latch. -/
abbrev composed (a : Alarms) (k : Nat) : Prop :=
  (alarmOf a (compositeSource k)).condition =
    (match vecGet a.composites k none with
      | none => false
      | some d => compositeValue a d || (d.hold && vecGet a.latches k false))

theorem compositesSound_iff {a : Alarms} : compositesSound a ↔ ∀ k < 8, composed a k :=
  ⟨fun h k hk => h k (List.mem_range.2 hk), fun h k hk => h k (List.mem_range.1 hk)⟩

theorem compositeValue_congr {a b : Alarms} {d : CompositeDef}
    (h : ∀ i, i = d.a ∨ i = d.b → (alarmOf b i).condition = (alarmOf a i).condition) :
    compositeValue b d = compositeValue a d := by
  rw [compositeValue, compositeValue, h d.a (.inl rfl), h d.b (.inr rfl)]

/-- A composite stands composed while its own condition, its operands' conditions, its definition and its latch stand. -/
theorem composed_congr {a b : Alarms} {k : Nat} (hcomposites : b.composites = a.composites)
    (hlatch : vecGet b.latches k false = vecGet a.latches k false)
    (hself : (alarmOf b (compositeSource k)).condition = (alarmOf a (compositeSource k)).condition)
    (hoperands : ∀ d, vecGet a.composites k none = some d → ∀ i, i = d.a ∨ i = d.b →
      (alarmOf b i).condition = (alarmOf a i).condition) (h : composed a k) : composed b k := by
  unfold composed at h ⊢
  rw [hself, hcomposites, hlatch, h]
  split
  · rfl
  · rename_i d hd
    rw [compositeValue_congr (hoperands d hd)]

section
variable {now k : Nat} {a : Alarms} {d : CompositeDef}

theorem recomputeComposite_none (h : vecGet a.composites k none = none) : recomputeComposite now k a = a := by
  simp only [recomputeComposite, h]

/-- The latch of composite `k` as its recomputation leaves it. -/
abbrev latchOf (a : Alarms) (k : Nat) (d : CompositeDef) : Bool :=
  vecGet a.latches k false || (d.hold && compositeValue a d)

/-- The condition of composite `k` as its recomputation leaves it. -/
abbrev presentOf (a : Alarms) (k : Nat) (d : CompositeDef) : Bool := compositeValue a d || (d.hold && latchOf a k d)

abbrev latched (a : Alarms) (k : Nat) (latch : Bool) : Alarms :=
  { a with latches := vecModify a.latches k fun _ => latch }

theorem recomputeComposite_some (h : vecGet a.composites k none = some d) :
    recomputeComposite now k a =
      if (alarmOf a (compositeSource k)).condition = presentOf a k d then latched a k (latchOf a k d)
      else takeCondition now (compositeSource k) (presentOf a k d) (latched a k (latchOf a k d)) := by
  simp only [recomputeComposite, h]
  rfl

theorem takeCondition_latches (i : Nat) (present : Bool) : (takeCondition now i present a).latches = a.latches := rfl

/-- The latches of the other composites stand. -/
theorem latches_recomputeComposite (j : Nat) (hj : j ≠ k) :
    vecGet (recomputeComposite now k a).latches j false = vecGet a.latches j false := by
  have other (latch : Bool) : vecGet (latched a k latch).latches j false = vecGet a.latches j false := by
    rw [vecGet_vecModify, if_neg fun h => hj h.1.symm]
  cases hd : vecGet a.composites k none with
  | none => rw [recomputeComposite_none hd]
  | some d =>
    rw [recomputeComposite_some hd]
    split
    · exact other _
    · rw [takeCondition_latches]
      exact other _

/-- A recomputed composite has the latch and the condition computed. -/
theorem recomputeComposite_present (hk : k < 8) (hd : vecGet a.composites k none = some d) :
    vecGet (recomputeComposite now k a).latches k false = latchOf a k d ∧
      (alarmOf (recomputeComposite now k a) (compositeSource k)).condition = presentOf a k d := by
  have latch : vecGet (latched a k (latchOf a k d)).latches k false = latchOf a k d := by
    rw [vecGet_vecModify, if_pos ⟨rfl, hk⟩]
  rw [recomputeComposite_some hd]
  split
  · rename_i hsame
    exact ⟨latch, hsame⟩
  · refine ⟨latch, ?_⟩
    rw [condition_takeCondition _ _ _ _ _ (by unfold compositeSource; omega), if_pos rfl]

/-- A recomputed composite is composed, its operands standing below it. -/
theorem composed_recomputeComposite (hk : k < 8) (hbelow : operandsBelow a)
    (hempty : vecGet a.composites k none = none → composed a k) : composed (recomputeComposite now k a) k := by
  cases hd : vecGet a.composites k none with
  | none =>
    rw [recomputeComposite_none hd]
    exact hempty hd
  | some d =>
    obtain ⟨ha, hb⟩ := hbelow k (List.mem_range.2 hk) d hd
    obtain ⟨hlatch, hpresent⟩ := recomputeComposite_present (now := now) hk hd
    have value : compositeValue (recomputeComposite now k a) d = compositeValue a d := compositeValue_congr fun i hi => by
      have : i < compositeSource k := by obtain rfl | rfl := hi <;> assumption
      exact condition_recomputeComposite _ _ _ _ (by unfold compositeSource at this; omega) (by omega)
    unfold composed
    rw [hlatch, hpresent, (recomputeComposite_settings now k a).composites, hd]
    simp only [value]

end

/-! ### Carrying changes (R176) -/

theorem usesChanged_iff {a : Alarms} {changed : List Nat} {k : Nat} :
    usesChanged a changed k = true ↔ ∃ d, vecGet a.composites k none = some d ∧ (d.a ∈ changed ∨ d.b ∈ changed) := by
  unfold usesChanged
  split
  · rename_i h
    exact ⟨fun h => (nomatch h), fun ⟨d, hd, _⟩ => nomatch h.symm.trans hd⟩
  · rename_i d hd
    simp only [Bool.or_eq_true, List.contains_iff_mem, hd, Option.some.injEq, exists_eq_left']

/-- The changed sources once composite `k` is recomputed. -/
def changedAfter (now k : Nat) (changed : List Nat) (a : Alarms) : List Nat :=
  if (alarmOf a (compositeSource k)).condition ≠ (alarmOf (recomputeComposite now k a) (compositeSource k)).condition then
    compositeSource k :: changed
  else changed

section
variable {now k : Nat} {ks changed : List Nat} {a : Alarms}

theorem cascade_unused (h : ¬usesChanged a changed k = true) : cascade now (k :: ks) changed a = cascade now ks changed a := by
  rw [cascade, if_neg h]

theorem cascade_used (h : usesChanged a changed k = true) :
    cascade now (k :: ks) changed a = cascade now ks (changedAfter now k changed a) (recomputeComposite now k a) := by
  rw [cascade, if_pos h]
  simp only [bne_iff_ne, changedAfter]

theorem mem_changedAfter {i : Nat} (h : i ∈ changedAfter now k changed a) : i = compositeSource k ∨ i ∈ changed := by
  unfold changedAfter at h
  split at h
  · exact List.mem_cons.1 h
  · exact .inr h

/-- A source that is not among the changed ones has its condition from before. -/
theorem condition_of_not_changed {i : Nat} (hi : i < 234) (h : i ∉ changedAfter now k changed a) :
    (alarmOf (recomputeComposite now k a) i).condition = (alarmOf a i).condition := by
  by_cases hik : i = compositeSource k
  · subst hik
    by_contra hne
    rw [changedAfter, if_pos (Ne.symm hne)] at h
    exact h List.mem_cons_self
  · exact condition_recomputeComposite _ _ _ _ hi hik

end

theorem operandsBelow_of_settings {a b : Alarms} (h : SettingsStand a b) (ha : operandsBelow a) : operandsBelow b := by
  unfold operandsBelow
  rw [h.composites]
  exact ha

/-- The composites below `j` are composed, and those from `j` on that use no changed source are: then carrying the changes
through the composites from `j` on leaves every composite composed. -/
theorem cascade_composed (now : Nat) (n j : Nat) (hj : j + n = 8) (changed : List Nat) (a : Alarms)
    (hbelow : operandsBelow a) (hdone : ∀ k < j, composed a k)
    (hleft : ∀ k, j ≤ k → k < 8 → usesChanged a changed k = false → composed a k) :
    ∀ k < 8, composed (cascade now (List.range' j n) changed a) k := by
  induction n generalizing j changed a with
  | zero => exact fun k hk => hdone k (by omega)
  | succ n ih =>
    rw [List.range'_succ]
    by_cases hused : usesChanged a changed j = true
    · have settings := recomputeComposite_settings now j a
      rw [cascade_used hused]
      refine ih (j + 1) (by omega) _ _ (operandsBelow_of_settings settings hbelow) (fun k hk => ?_) fun k hjk hk hfree => ?_
      · obtain rfl | hlt : k = j ∨ k < j := by omega
        · refine composed_recomputeComposite (by omega) hbelow fun hempty => ?_
          obtain ⟨d, hd, -⟩ := usesChanged_iff.1 hused
          exact nomatch hempty.symm.trans hd
        · refine composed_congr settings.composites (latches_recomputeComposite k (by omega))
            (condition_recomputeComposite _ _ _ _ (by unfold compositeSource; omega) (by unfold compositeSource; omega))
            (fun d hd i hi => ?_) (hdone k hlt)
          obtain ⟨ha, hb⟩ := hbelow k (List.mem_range.2 (by omega)) d hd
          unfold compositeSource at ha hb
          exact condition_recomputeComposite _ _ _ _ (by omega) (by unfold compositeSource; omega)
      · have unused : ∀ d, vecGet a.composites k none = some d →
            d.a ∉ changedAfter now j changed a ∧ d.b ∉ changedAfter now j changed a := fun d hd => by
          rw [← not_or]
          intro hin
          refine absurd (usesChanged_iff.2 ⟨d, ?_, hin⟩) (Bool.eq_false_iff.1 hfree)
          rw [settings.composites, hd]
        have free : usesChanged a changed k = false := Bool.eq_false_iff.2 fun h => by
          obtain ⟨d, hd, hin⟩ := usesChanged_iff.1 h
          have keep {i : Nat} (hi : i ∈ changed) : i ∈ changedAfter now j changed a := by
            unfold changedAfter
            split
            · exact List.mem_cons_of_mem _ hi
            · exact hi
          exact hin.elim (fun h => (unused d hd).1 (keep h)) fun h => (unused d hd).2 (keep h)
        refine composed_congr settings.composites (latches_recomputeComposite k (by omega))
          (condition_recomputeComposite _ _ _ _ (by unfold compositeSource; omega) (by unfold compositeSource; omega))
          (fun d hd i hi => ?_) (hleft k (by omega) hk free)
        obtain ⟨ha, hb⟩ := hbelow k (List.mem_range.2 hk) d hd
        unfold compositeSource at ha hb
        refine condition_of_not_changed (by omega) (changed := changed) ?_
        obtain rfl | rfl := hi
        · exact (unused d hd).1
        · exact (unused d hd).2
    · rw [cascade_unused hused]
      refine ih (j + 1) (by omega) _ _ hbelow (fun k hk => ?_) fun k hjk => hleft k (by omega)
      obtain rfl | hlt : k = j ∨ k < j := by omega
      · exact hleft k (by omega) (by omega) (Bool.eq_false_iff.2 hused)
      · exact hdone k hlt

/-- Every composite that uses no changed source being composed, the carried changes leave all composed. -/
theorem compositesSound_cascade (now : Nat) (changed : List Nat) {a : Alarms} (hbelow : operandsBelow a)
    (h : ∀ k < 8, usesChanged a changed k = false → composed a k) :
    compositesSound (cascade now (List.range 8) changed a) := by
  rw [compositesSound_iff, List.range_eq_range']
  exact cascade_composed now 8 0 rfl changed a hbelow (fun k hk => absurd hk (Nat.not_lt_zero k)) fun k _ => h k

theorem compositesSound_fill (now : Nat) {a : Alarms} (h : compositesSound a) : compositesSound (fill now a) := by
  obtain ⟨condition, -, composites, latches⟩ := fill_reportsOnly now a
  exact fun k hk => composed_congr composites (by rw [latches]) (condition _) (fun _ _ i _ => condition i) (h k hk)

/-- A condition of a fixed source, given, leaves every composite sound. -/
theorem compositesSound_alarmsGive (now : Nat) {i : Nat} (present : Bool) {a : Alarms} (hi : i < 226)
    (hbelow : operandsBelow a) (h : compositesSound a) : compositesSound (alarmsGive now i present a) := by
  unfold alarmsGive
  split
  · exact h
  refine compositesSound_fill now (compositesSound_cascade now [i]
    (operandsBelow_of_settings (takeCondition_settings now i present a) hbelow) fun k hk hfree => ?_)
  refine composed_congr (a := a) rfl rfl ?_ (fun d hd j hj => ?_) (compositesSound_iff.1 h k hk)
  · rw [condition_takeCondition _ _ _ _ _ (by unfold compositeSource; omega), if_neg (by unfold compositeSource; omega)]
  · obtain ⟨ha, hb⟩ := hbelow k (List.mem_range.2 hk) d hd
    unfold compositeSource at ha hb
    rw [condition_takeCondition _ _ _ _ _ (by omega), if_neg]
    rintro rfl
    refine absurd (usesChanged_iff.2 ⟨d, hd, ?_⟩) (Bool.eq_false_iff.1 hfree)
    simpa [eq_comm] using hj

/-- Changes of sources from composite `m` on, carried, leave the conditions of the sources up to `m` and the latch of `m`. -/
theorem cascade_below (now m : Nat) (ks changed : List Nat) (a : Alarms) (hks : ∀ k ∈ ks, k < 8) (hbelow : operandsBelow a)
    (hchanged : ∀ i ∈ changed, compositeSource m ≤ i) :
    (∀ i ≤ compositeSource m, i < 234 →
      (alarmOf (cascade now ks changed a) i).condition = (alarmOf a i).condition) ∧
    vecGet (cascade now ks changed a).latches m false = vecGet a.latches m false := by
  induction ks generalizing changed a with
  | nil => exact ⟨fun _ _ _ => rfl, rfl⟩
  | cons k ks ih =>
    have hk : k < 8 := hks k List.mem_cons_self
    by_cases hused : usesChanged a changed k = true
    · obtain ⟨d, hd, hin⟩ := usesChanged_iff.1 hused
      obtain ⟨ha, hb⟩ := hbelow k (List.mem_range.2 hk) d hd
      have above : m < k := by
        obtain h | h := hin <;> have := hchanged _ h <;> unfold compositeSource at * <;> omega
      obtain ⟨hcond, hlatch⟩ := ih (changedAfter now k changed a) (recomputeComposite now k a)
        (fun j hj => hks j (List.mem_cons_of_mem _ hj))
        (operandsBelow_of_settings (recomputeComposite_settings now k a) hbelow) fun i hi => by
          obtain rfl | h := mem_changedAfter hi
          · unfold compositeSource
            omega
          · exact hchanged i h
      rw [cascade_used hused]
      refine ⟨fun i hi hi' => (hcond i hi hi').trans ?_, hlatch.trans (latches_recomputeComposite m (by omega))⟩
      exact condition_recomputeComposite _ _ _ _ hi' (by unfold compositeSource at *; omega)
    · rw [cascade_unused hused]
      exact ih changed a (fun j hj => hks j (List.mem_cons_of_mem _ hj)) hbelow hchanged

/-! ### A condition taken (R181, R182) -/

/-- The record and the queue that a source's taking of a condition leaves, by the rows of R181. -/
theorem takeCondition_rows (now i : Nat) (present : Bool) (a : Alarms) :
    ∃ state reported transient clearOwed queue,
      takeCondition now i present a = { a with
        sources := vecModify a.sources i fun _ => { alarmOf a i with
          condition := present, state := state, reported := reported, transient := transient,
          clearOwed := clearOwed },
        queue := queue } ∧
      (state, reported, transient, clearOwed, queue) =
        match (alarmOf a i).state, present with
        | .idle, true =>
          if (alarmOf a i).level = 0 then
            (.idle, (alarmOf a i).reported, (alarmOf a i).transient, (alarmOf a i).clearOwed, a.queue)
          else (.pending, (alarmOf a i).reported, false, (alarmOf a i).clearOwed, a.queue)
        | .pending, false =>
          if (alarmOf a i).kind = .following then
            (.idle, (alarmOf a i).reported, false, (alarmOf a i).clearOwed, a.queue)
          else (.pending, (alarmOf a i).reported, true, (alarmOf a i).clearOwed, a.queue)
        | .latched, false =>
          if a.queue.length < 16 then
            (.idle, none, (alarmOf a i).transient, (alarmOf a i).clearOwed, a.queue ++ [.cleared i now])
          else (.idle, none, (alarmOf a i).transient, true, a.queue)
        | other, _ => (other, (alarmOf a i).reported, (alarmOf a i).transient, (alarmOf a i).clearOwed, a.queue) := by
  generalize hr : alarmOf a i = r
  generalize hroom : decide (a.queue.length < 16) = room
  have taken : takeCondition now i present a =
      { a with
        sources := vecModify a.sources i fun _ => conditionStep present room r,
        queue := if r.state = .latched && !present && room then a.queue ++ [.cleared i now] else a.queue } := by
    rw [takeCondition, modifyAlarm_congr (f := conditionStep present (decide (a.queue.length < 16)))
      (g := fun _ => conditionStep present room r) (by rw [hroom, hr]), hr, hroom]
    rfl
  have row : conditionStep present room r =
      { r with condition := present, state := (conditionStep present room r).state,
               reported := (conditionStep present room r).reported,
               transient := (conditionStep present room r).transient,
               clearOwed := (conditionStep present room r).clearOwed } := by
    obtain ⟨level, kind⟩ := conditionStep_settings present room r
    have condition := conditionStep_condition present room r
    generalize conditionStep present room r = q at level kind condition ⊢
    cases q
    subst level kind condition
    rfl
  rw [row] at taken
  refine ⟨_, _, _, _, _, taken, ?_⟩
  clear taken row
  have hroom' : (room = true) ↔ a.queue.length < 16 := by rw [← hroom, decide_eq_true_eq]
  cases hstate : r.state <;> cases present
  case idle.true => by_cases hlevel : r.level = 0 <;> simp [conditionStep, hstate, hlevel]
  case pending.false => cases hkind : r.kind <;> simp [conditionStep, hstate, hkind]
  case latched.false => by_cases hfree : room = true <;> simp [conditionStep, hstate, hfree, ← hroom']
  all_goals simp [conditionStep, hstate]

end Sys2Proof.Machine
end

section
/-! SUPPORT. Changes of conditions and the arbiter; COMPOSITE_DEFINE and COMPOSITE_RELEASE. -/

namespace Sys2Proof.Machine

/-! ### Condition changes and reports (O49) -/

theorem operandsBelow_of_sound {a : Alarms} (h : alarmsSound a) : operandsBelow a := by
  obtain ⟨-, -, -, -, hbelow, -⟩ := h
  exact hbelow

/-- One step of the carrying, for a composite with a definition. -/
theorem cascade_defined {now k : Nat} {ks changed : List Nat} {a : Alarms} {d : CompositeDef}
    (hd : vecGet a.composites k none = some d) (hk : k < 8) (hin : d.a ∈ changed ∨ d.b ∈ changed) :
    ((alarmOf a (compositeSource k)).condition = presentOf a k d →
      cascade now (k :: ks) changed a = cascade now ks changed (latched a k (latchOf a k d))) ∧
    ((alarmOf a (compositeSource k)).condition ≠ presentOf a k d →
      cascade now (k :: ks) changed a =
        cascade now ks (compositeSource k :: changed)
          (takeCondition now (compositeSource k) (presentOf a k d) (latched a k (latchOf a k d)))) := by
  have present := (recomputeComposite_present (now := now) hk hd).2
  rw [cascade_used (usesChanged_iff.2 ⟨d, hd, hin⟩), changedAfter, present, recomputeComposite_some hd]
  refine ⟨fun h => ?_, fun h => ?_⟩
  · rw [if_neg (not_not.2 h), if_pos h]
  · rw [if_pos h, if_neg h]

/-- Settles O49: each function of the controller by its equation; that the composites stay sound by the carrying in
ascending index, the composites up to the one reached being composed and those beyond that use no changed source too. -/
theorem conditionChangesAndReports : Obligations.ConditionChangesAndReports := by
  refine ⟨fun a now i present hi => ⟨fun h => if_pos h, fun h => if_neg h, takeCondition_rows now i present a⟩,
    fun a now k ks changed hk => ⟨rfl, fun h => cascade_unused ?empty, fun d hd => ?defined⟩,
    fun a now i present hi sound => ?given, fun a i hi => ⟨serviceLevel_eq a, ?raise⟩,
    fun a now => ⟨fun i h _ => takeReport_raise h now, fun h => ⟨fun i hi howed hleast => ?clear, fun hnone => ?nothing⟩,
      fillQueue_full 16, fillQueue_done 16, fun b => fill_take, fillQueue_ends 16 a (Nat.le_add_right _ _)⟩⟩
  case empty =>
    intro hused
    obtain ⟨d, hd, -⟩ := usesChanged_iff.1 hused
    exact nomatch h.symm.trans hd
  case defined =>
    refine ⟨fun ha hb => cascade_unused fun hused => ?_, cascade_defined hd hk⟩
    obtain ⟨d', hd', hin⟩ := usesChanged_iff.1 hused
    obtain rfl : d = d' := Option.some.inj (hd.symm.trans hd')
    exact hin.elim ha hb
  case given =>
    have settings := alarmsGive_settings now i present a
    refine ⟨?_, fun k hk hne => ?_, settings.composites, settings.express,
      compositesSound_alarmsGive now present hi (operandsBelow_of_sound sound)⟩
    · rw [condition_alarmsGive _ _ _ _ _ hi, if_pos rfl]
    · rw [condition_alarmsGive _ _ _ _ _ hk, if_neg hne.symm]
  case raise =>
    have onRecord (p : Nat → Prop) : (∀ j, eligible a (serviceLevel a) j = true → p j) ↔
        ∀ j, j < 234 → eligible a (serviceLevel a) j = true → p j :=
      ⟨fun h j _ => h j, fun h j hj => h j (lt_of_eligible hj) hj⟩
    rw [nextRaise_eq_some, onRecord]
    simp only [eligible_iff, serviceLevel_eq]
    exact Iff.rfl
  case clear =>
    rw [takeReport_clear h, head_clearOwed hi howed hleast]
    rfl
  case nothing =>
    rw [takeReport_clear h, sourcesWith_eq_nil hnone]
    rfl

/-! ### Composites defined and released (O51) -/

/-- The alarms with composite `k` given a condition, a change of it carried, and the queue filled. -/
abbrev compositeGiven (now k : Nat) (present : Bool) (a : Alarms) : Alarms :=
  fill now
    (if (alarmOf a (compositeSource k)).condition = present then a
    else cascade now (List.range 8) [compositeSource k] (takeCondition now (compositeSource k) present a))

/-- A composite recomputed with its latch clear before. -/
theorem compositeStep_cleared {now k : Nat} {a : Alarms} {d : CompositeDef} (hk : k < 8)
    (hd : vecGet a.composites k none = some d) :
    fill now (compositeStep now k { a with latches := vecModify a.latches k fun _ => false }) =
      compositeGiven now k (compositeValue a d) { a with
        latches := vecModify a.latches k fun _ => d.hold && compositeValue a d } := by
  generalize hc : ({ a with latches := vecModify a.latches k fun _ => false } : Alarms) = c
  have definition : vecGet c.composites k none = some d := by rw [← hc]; exact hd
  have source (i : Nat) : alarmOf c i = alarmOf a i := by rw [← hc]; rfl
  have value : compositeValue c d = compositeValue a d := compositeValue_congr fun i _ => by rw [source]
  have latch : latchOf c k d = (d.hold && compositeValue a d) := by
    unfold latchOf
    rw [value, ← hc, vecGet_vecModify, if_pos ⟨rfl, hk⟩, Bool.false_or]
  have present : presentOf c k d = compositeValue a d := by
    unfold presentOf
    rw [latch, value]
    cases compositeValue a d <;> simp
  have latches : latched c k (latchOf c k d) =
      { a with latches := vecModify a.latches k fun _ => d.hold && compositeValue a d } := by
    rw [latch, ← hc, latched]
    simp only [vecModify_vecModify]
  have recomputed := (recomputeComposite_present (now := now) hk definition).2
  unfold compositeGiven
  simp only [compositeStep]
  rw [recomputed, present, recomputeComposite_some definition, present, latches, source]
  congr 1
  by_cases hsame : (alarmOf a (compositeSource k)).condition = compositeValue a d
  · rw [if_pos hsame, if_pos hsame]
    exact (if_pos hsame).symm
  · rw [if_neg hsame, if_neg hsame]
    exact (if_neg hsame).symm

/-- A composite given its condition has it; its definition, its latch and the conditions of lower sources stand. -/
theorem compositeGiven_stands {now k : Nat} {present : Bool} {a : Alarms} (hk : k < 8) (hbelow : operandsBelow a) :
    (compositeGiven now k present a).composites = a.composites ∧
      vecGet (compositeGiven now k present a).latches k false = vecGet a.latches k false ∧
      (alarmOf (compositeGiven now k present a) (compositeSource k)).condition = present ∧
      ∀ i < compositeSource k, (alarmOf (compositeGiven now k present a) i).condition = (alarmOf a i).condition := by
  have inside : compositeSource k < 234 := by unfold compositeSource; omega
  obtain ⟨condition, -, composites, latches⟩ := fill_reportsOnly now
    (if (alarmOf a (compositeSource k)).condition = present then a
    else cascade now (List.range 8) [compositeSource k] (takeCondition now (compositeSource k) present a))
  unfold compositeGiven
  simp only [condition, composites, latches]
  split
  · rename_i hsame
    exact ⟨rfl, rfl, hsame, fun _ _ => rfl⟩
  · have settings := takeCondition_settings now (compositeSource k) present a
    obtain ⟨hcondition, hlatch⟩ := cascade_below now k (List.range 8) [compositeSource k]
      (takeCondition now (compositeSource k) present a) (fun j hj => List.mem_range.1 hj)
      (operandsBelow_of_settings settings hbelow) fun i hi => (List.mem_singleton.1 hi).ge
    refine ⟨(cascade_settings _ _ _ _).composites.trans settings.composites, hlatch, ?_, fun i hi => ?_⟩
    · rw [hcondition _ le_rfl inside, condition_takeCondition _ _ _ _ _ inside, if_pos rfl]
    · rw [hcondition i hi.le (by omega), condition_takeCondition _ _ _ _ _ (by omega), if_neg hi.ne']

/-- The operation of a code. -/
abbrev operationGiven (operation : Nat) : CompositeOp :=
  match operation with
  | 0 => .and
  | 1 => .or
  | 2 => .xor
  | _ => .andNot

theorem compositeOpOf_eq (operation : Nat) :
    compositeOpOf operation = if operation ≤ 3 then some (operationGiven operation) else none := by
  match operation with
  | 0 => rfl
  | 1 => rfl
  | 2 => rfl
  | 3 => rfl
  | n + 4 => rfl

theorem flagOf_eq (hold : Nat) : flagOf hold = if hold ≤ 1 then some (decide (hold = 0)) else none := by
  match hold with
  | 0 => rfl
  | 1 => rfl
  | n + 2 => rfl

/-- The first check of R175. -/
abbrev defineInRange (index operation a b hold : Nat) : Prop :=
  index ≤ 7 ∧ a ≤ 233 ∧ b ≤ 233 ∧ operation ≤ 3 ∧ hold ≤ 1

section
variable {index operation a b hold : Nat} {u : State}

theorem compositeDefineStep_outOfRange (h : ¬defineInRange index operation a b hold) :
    compositeDefineStep index operation a b hold u = (u, refusal .outOfRange) := by
  unfold compositeDefineStep
  by_cases hplaces : index ≤ 7 ∧ a ≤ 233 ∧ b ≤ 233
  · rw [if_neg (by simp only [Bool.or_eq_true, decide_eq_true_eq]; omega), compositeOpOf_eq, flagOf_eq]
    by_cases hop : operation ≤ 3
    · rw [if_neg (by omega : ¬hold ≤ 1), if_pos hop]
    · rw [if_neg hop]
  · rw [if_pos (by simp only [Bool.or_eq_true, decide_eq_true_eq]; omega)]

/-- Once the first check passes, the second alone decides. -/
theorem compositeDefineStep_inRange (h : defineInRange index operation a b hold) :
    compositeDefineStep index operation a b hold u =
      if compositeSource index ≤ a ∨ compositeSource index ≤ b then (u, refusal .conflict)
      else
        let made : CompositeDef := { op := operationGiven operation, a := a, b := b, hold := decide (hold = 0) }
        let t := changeAlarms (fun x => fill u.clock.time (compositeStep u.clock.time index { x with
          composites := vecModify x.composites index fun _ => some made,
          latches := vecModify x.latches index fun _ => false })) u
        (t, replyOk (flag1 (alarmOf t.alarms (compositeSource index)).condition)) := by
  obtain ⟨hindex, ha, hb, hop, hhold⟩ := h
  unfold compositeDefineStep
  rw [if_neg (by simp only [Bool.or_eq_true, decide_eq_true_eq]; omega), compositeOpOf_eq, flagOf_eq, if_pos hop,
    if_pos hhold]
  simp only [Bool.or_eq_true, decide_eq_true_eq]

end

theorem flag1_eq (b : Bool) : flag1 b = [.uint 1 (if b then 0 else 1)] := by
  cases b <;> rfl

/-- The alarms changed and the condition of source `i` replied. -/
theorem replies_changeAlarms {c : Instr} {f : Alarms → Alarms} {u : State} {alarms : Alarms} {i : Nat} {present : Bool}
    (hf : f u.alarms = alarms) (hpresent : (alarmOf alarms i).condition = present) :
    replies c (replyOk (flag1 (alarmOf (changeAlarms f u).alarms i).condition)) (changeAlarms f u) =
      replies c (replyOk [.uint 1 (if present then 0 else 1)]) { u with alarms := alarms } := by
  rw [← flag1_eq, ← hpresent, ← hf]
  rfl

/-- Settles O51: the checks by the equations of the steps; a recomputation behind a cleared latch is the taking of the
computed value, and the carrying leaves the sources below alone. -/
theorem compositesDefinedAndReleased : Obligations.CompositesDefinedAndReleased := by
  refine ⟨?define, ?release⟩
  case define =>
    intro tag index operation a b hold s u c inRange h
    rw [exec_of_executes (owner := compositeDefineStep index operation a b hold) rfl h]
    refine ⟨fun hr => ?_, fun hr hconflict => ?_, ?_⟩
    · rw [compositeDefineStep_outOfRange hr]
    · have conflict : compositeSource index ≤ a ∨ compositeSource index ≤ b := hconflict
      rw [compositeDefineStep_inRange hr, if_pos conflict]
    · intro hr ha hb sound x y present made alarms
      have hk : index < 8 := by obtain ⟨hindex, -⟩ := hr; omega
      have defined : vecGet (vecModify u.alarms.composites index fun _ => some made) index none = some made := by
        rw [vecGet_vecModify, if_pos ⟨rfl, hk⟩]
      have value : compositeValue u.alarms made = present := by
        change (match operationGiven operation with
          | .and => x && y
          | .or => x || y
          | .xor => x != y
          | .andNot => x && !y) = match operation with
          | 0 => x && y
          | 1 => x || y
          | 2 => x != y
          | _ => x && !y
        unfold operationGiven
        match operation with
        | 0 => rfl
        | 1 => rfl
        | 2 => rfl
        | n + 3 => rfl
      have below : operandsBelow { u.alarms with
          composites := vecModify u.alarms.composites index fun _ => some made,
          latches := vecModify u.alarms.latches index fun _ => decide (hold = 0) && present } := by
        intro k hk' d hd
        rw [vecGet_vecModify] at hd
        split at hd
        · rename_i hindex
          obtain rfl : made = d := Option.some.inj hd
          obtain ⟨rfl, -⟩ := hindex
          exact ⟨ha, hb⟩
        · exact operandsBelow_of_sound sound k hk' d hd
      have step : fill u.clock.time (compositeStep u.clock.time index { u.alarms with
          composites := vecModify u.alarms.composites index fun _ => some made,
          latches := vecModify u.alarms.latches index fun _ => false }) = alarms := by
        have cleared := compositeStep_cleared (now := u.clock.time) (k := index) (d := made)
          (a := { u.alarms with composites := vecModify u.alarms.composites index fun _ => some made }) hk defined
        rw [show compositeValue { u.alarms with composites := vecModify u.alarms.composites index fun _ => some made }
          made = present from value] at cleared
        exact cleared
      obtain ⟨composites, latch, condition, lower⟩ := compositeGiven_stands (now := u.clock.time) (present := present)
        hk below
      refine ⟨?_, ?_, ?_, condition, lower⟩
      · rw [compositeDefineStep_inRange hr, if_neg (by unfold compositeSource; omega)]
        exact replies_changeAlarms (by exact step) condition
      · rw [show alarms.composites = _ from composites]
        exact defined
      · rw [show vecGet alarms.latches index false = _ from latch, vecGet_vecModify, if_pos ⟨rfl, hk⟩]
  case release =>
    intro tag index s u c h
    rw [exec_of_executes (owner := compositeReleaseStep index) rfl h]
    refine ⟨fun hr => ?_, fun hr hnone => ?_, ?_⟩
    · rw [compositeReleaseStep, if_pos hr]
    · rw [compositeReleaseStep, if_neg (by omega), if_pos (Option.isNone_iff_eq_none.2 hnone)]
    · intro d hr hd sound present alarms
      have hk : index < 8 := by omega
      have below : operandsBelow { u.alarms with
          latches := vecModify u.alarms.latches index fun _ => d.hold && present } := operandsBelow_of_sound sound
      obtain ⟨composites, latch, condition, lower⟩ := compositeGiven_stands (now := u.clock.time) (present := present)
        hk below
      refine ⟨?_, ?_, condition, lower⟩
      · rw [compositeReleaseStep, if_neg (by omega), if_neg (by rw [hd]; exact Bool.false_ne_true)]
        exact replies_changeAlarms (by exact compositeStep_cleared hk hd) condition
      · rw [show vecGet alarms.latches index false = _ from latch, vecGet_vecModify, if_pos ⟨rfl, hk⟩]

end Sys2Proof.Machine
end

section
/-! SUPPORT. The Alarm Controller stays sound under each of its operations: its bounds on what is OPEN at once follow from
this, that of two sources OPEN at one level one stands in an express slot. -/

namespace Sys2Proof.Machine

/-- Source `i` is OPEN, reported at level `l`. -/
def opens (a : Alarms) (i l : Nat) : Prop := (alarmOf a i).state = .opened ∧ (alarmOf a i).reported = some l

theorem lt_of_opens {a : Alarms} {i l : Nat} (h : opens a i l) : i < 234 := by
  by_contra hi
  rw [opens, alarmOf_of_ge a (by omega)] at h
  exact nomatch h.1

theorem openAt_eq (a : Alarms) (l : Nat) (p : Nat → Bool) :
    openAt a l p =
      ((List.range 234).filter fun i => p i && ((alarmOf a i).state = .opened && (alarmOf a i).reported = some l)).length := by
  rw [openAt, sourcesWith_eq, List.countP_eq_length_filter, List.filter_filter]

/-- At most one source is OPEN at a level where any two that are OPEN there are the same. -/
theorem openAt_le_one_iff {a : Alarms} {l : Nat} {p : Nat → Bool} :
    openAt a l p ≤ 1 ↔
      ∀ i j, opens a i l → opens a j l → p i = true → p j = true → i = j := by
  have nodup : ((List.range 234).filter fun i =>
      p i && ((alarmOf a i).state = .opened && (alarmOf a i).reported = some l)).Nodup := List.nodup_range.filter _
  rw [openAt_eq, ← List.toFinset_card_of_nodup nodup, Finset.card_le_one]
  simp only [List.mem_toFinset, List.mem_filter, List.mem_range, Bool.and_eq_true, decide_eq_true_eq]
  exact ⟨fun h i j hi hj hpi hpj => h i ⟨lt_of_opens hi, hpi, hi⟩ j ⟨lt_of_opens hj, hpj, hj⟩,
    fun h i hi j hj => h i j hi.2.2 hj.2.2 hi.2.1 hj.2.1⟩

/-- There are two express slots. -/
theorem openAt_inExpress (a : Alarms) (l : Nat) : openAt a l (inExpress a) ≤ 2 := by
  rw [openAt_eq]
  have nodup : ((List.range 234).filter fun i =>
      inExpress a i && ((alarmOf a i).state = .opened && (alarmOf a i).reported = some l)).Nodup := List.nodup_range.filter _
  have inSlots : ∀ i ∈ (List.range 234).filter fun i =>
      inExpress a i && ((alarmOf a i).state = .opened && (alarmOf a i).reported = some l),
      i ∈ a.express.toList.filterMap id := fun i hi => by
    rw [List.mem_filter, Bool.and_eq_true, inExpress_iff] at hi
    exact List.mem_filterMap.2 ⟨some i, hi.2.1, rfl⟩
  calc _ ≤ (a.express.toList.filterMap id).length := (List.subperm_of_subset nodup inSlots).length_le
    _ ≤ a.express.toList.length := List.length_filterMap_le _ _
    _ = 2 := by simp

/-- The express slots hold different sources of level 3. -/
abbrev expressSound (a : Alarms) : Prop :=
  (∀ i ∈ vecGet a.express 0 none, i < 234 ∧ (alarmOf a i).level = 3 ∧ vecGet a.express 1 none ≠ some i) ∧
    ∀ i ∈ vecGet a.express 1 none, i < 234 ∧ (alarmOf a i).level = 3

/-- Of two sources OPEN at one level one stands in an express slot, and the level is 3. -/
abbrev soleOpen (a : Alarms) : Prop :=
  ∀ i j l, opens a i l → opens a j l → (l = 3 → inExpress a i = false ∧ inExpress a j = false) → i = j

/-- A sound Alarm Controller, its bounds stated source by source. -/
structure Orderly (a : Alarms) : Prop where
  queue : a.queue.length ≤ 16
  record : ∀ i < 234, alarmRecSound (alarmOf a i)
  express : expressSound a
  below : operandsBelow a
  sole : soleOpen a

theorem reported_of_opens {a : Alarms} {i l : Nat} (hrecord : ∀ i < 234, alarmRecSound (alarmOf a i)) (h : opens a i l) :
    1 ≤ l ∧ l ≤ 3 := by
  obtain ⟨-, -, range, -⟩ := hrecord i (lt_of_opens h)
  exact range l h.2

theorem alarmsSound_iff {a : Alarms} : alarmsSound a ↔ Orderly a := by
  constructor
  · rintro ⟨queue, records, first, second, below, one, two, three, -⟩
    have record : ∀ i < 234, alarmRecSound (alarmOf a i) := fun i hi => records _ (mem_sources.2 ⟨i, hi, rfl⟩)
    refine ⟨queue, record, ⟨first, second⟩, below, fun i j l hi hj hl => ?_⟩
    obtain ⟨hlow, hhigh⟩ := reported_of_opens record hi
    obtain rfl | rfl | rfl : l = 1 ∨ l = 2 ∨ l = 3 := by omega
    · exact openAt_le_one_iff.1 one i j hi hj rfl rfl
    · exact openAt_le_one_iff.1 two i j hi hj rfl rfl
    · obtain ⟨houti, houtj⟩ := hl rfl
      exact openAt_le_one_iff.1 three i j hi hj (by rw [houti]; rfl) (by rw [houtj]; rfl)
  · rintro ⟨queue, record, ⟨first, second⟩, below, sole⟩
    refine ⟨queue, fun r hr => ?_, first, second, below, ?_, ?_, ?_, openAt_inExpress a 3⟩
    · obtain ⟨i, hi, rfl⟩ := mem_sources.1 hr
      exact record i hi
    · exact openAt_le_one_iff.2 fun i j hi hj _ _ => sole i j 1 hi hj fun h => nomatch h
    · exact openAt_le_one_iff.2 fun i j hi hj _ _ => sole i j 2 hi hj fun h => nomatch h
    · refine openAt_le_one_iff.2 fun i j hi hj houti houtj => sole i j 3 hi hj fun _ => ?_
      rw [Bool.not_eq_true'] at houti houtj
      exact ⟨houti, houtj⟩

/-- The two slots. -/
theorem mem_express {a : Alarms} {x : Option Nat} (h : x ∈ a.express.toList) :
    x = vecGet a.express 0 none ∨ x = vecGet a.express 1 none := by
  obtain ⟨k, hk, rfl⟩ := List.mem_iff_getElem.1 h
  have hk2 : k < 2 := by simpa using hk
  rw [vecGet_of_lt _ 0 _ (by omega), vecGet_of_lt _ 1 _ (by omega)]
  obtain rfl | rfl : k = 0 ∨ k = 1 := by omega
  · exact .inl rfl
  · exact .inr rfl

theorem level_of_inExpress {a : Alarms} (h : expressSound a) {i : Nat} (hi : inExpress a i = true) :
    i < 234 ∧ (alarmOf a i).level = 3 := by
  obtain ⟨first, second⟩ := h
  obtain hslot | hslot := mem_express (inExpress_iff.1 hi)
  · obtain ⟨hlt, hlevel, -⟩ := first i hslot.symm
    exact ⟨hlt, hlevel⟩
  · exact second i hslot.symm

theorem expressSound_of_settings {a b : Alarms} (h : SettingsStand a b) (ha : expressSound a) : expressSound b := by
  unfold expressSound
  simp only [h.express, h.level]
  exact ha

/-! ### Changes that open nothing -/

/-- With the host's settings standing and the records sound, what opens no source keeps the controller sound. -/
theorem Orderly.of_settings {a b : Alarms} (ha : Orderly a) (h : SettingsStand a b) (queue : b.queue.length ≤ 16)
    (record : ∀ i < 234, alarmRecSound (alarmOf b i)) (hopens : ∀ i l, opens b i l → opens a i l) : Orderly b where
  queue := queue
  record := record
  express := expressSound_of_settings h ha.express
  below := operandsBelow_of_settings h ha.below
  sole i j l hi hj hl := ha.sole i j l (hopens i l hi) (hopens j l hj) fun h3 => by
    have slots : inExpress b = inExpress a := by
      funext k
      rw [inExpress, inExpress, h.express]
    rw [← slots]
    exact hl h3

/-- One record changed, its level and kind standing. -/
theorem Orderly.modified {a : Alarms} (ha : Orderly a) {i : Nat} {f : AlarmRec → AlarmRec}
    (settings : ∀ r, (f r).level = r.level ∧ (f r).kind = r.kind)
    (record : alarmRecSound (alarmOf a i) → alarmRecSound (f (alarmOf a i)))
    (hopened : (f (alarmOf a i)).state = .opened →
      (alarmOf a i).state = .opened ∧ (f (alarmOf a i)).reported = (alarmOf a i).reported)
    {queue : List AlarmReport} (hqueue : queue.length ≤ 16) : Orderly { modifyAlarm i f a with queue := queue } := by
  refine ha.of_settings (settingsStand_modifyAlarm i f settings a a.latches queue) hqueue (fun j hj => ?_)
    fun j l hjl => ?_
  · change alarmRecSound (alarmOf (modifyAlarm i f a) j)
    rw [alarmOf_modifyAlarm _ _ _ _ hj]
    split
    · rename_i hij
      subst hij
      exact record (ha.record i hj)
    · exact ha.record j hj
  · have hj : j < 234 := lt_of_opens hjl
    change (alarmOf (modifyAlarm i f a) j).state = .opened ∧ (alarmOf (modifyAlarm i f a) j).reported = some l at hjl
    rw [alarmOf_modifyAlarm _ _ _ _ hj] at hjl
    split at hjl
    · rename_i hij
      subst hij
      obtain ⟨hstate, hreported⟩ := hjl
      obtain ⟨hwas, hsame⟩ := hopened hstate
      exact ⟨hwas, hsame ▸ hreported⟩
    · exact hjl

theorem conditionStep_sound (present room : Bool) {r : AlarmRec} (h : alarmRecSound r) :
    alarmRecSound (conditionStep present room r) := by
  obtain ⟨level, reported, range, waits, latched, transient⟩ := h
  cases hstate : r.state <;> cases present <;> simp only [conditionStep, hstate]
  case idle.true =>
    split
    · simp_all [alarmRecSound]
    · rename_i hlevel
      simp_all [alarmRecSound]
      omega
  case pending.false => cases hkind : r.kind <;> simp_all [alarmRecSound]
  all_goals simp_all [alarmRecSound]

theorem conditionStep_opened {present room : Bool} {r : AlarmRec} (h : (conditionStep present room r).state = .opened) :
    r.state = .opened ∧ (conditionStep present room r).reported = r.reported := by
  cases hstate : r.state <;> cases present <;> simp only [conditionStep, hstate] at h ⊢
  case idle.true => split at h <;> simp_all
  case pending.false => cases hkind : r.kind <;> simp_all
  all_goals simp_all

section
variable {a : Alarms} (ha : Orderly a)
include ha

theorem Orderly.takeCondition (now i : Nat) (present : Bool) : Orderly (takeCondition now i present a) := by
  refine ha.modified (conditionStep_settings _ _) (conditionStep_sound _ _) conditionStep_opened ?_
  split
  · rename_i h
    simp only [Bool.and_eq_true, decide_eq_true_eq] at h
    simp only [List.length_append, List.length_cons, List.length_nil]
    omega
  · exact ha.queue

theorem Orderly.latches (latches : Vector Bool 8) : Orderly { a with latches := latches } :=
  ha.of_settings ⟨fun _ => rfl, fun _ => rfl, rfl, rfl⟩ ha.queue ha.record fun _ _ h => h

theorem Orderly.recompute (now k : Nat) : Orderly (recomputeComposite now k a) := by
  cases hd : vecGet a.composites k none with
  | none =>
    rw [recomputeComposite_none hd]
    exact ha
  | some d =>
    rw [recomputeComposite_some hd]
    split
    · exact ha.latches _
    · exact (ha.latches _).takeCondition now _ _

theorem Orderly.acknowledged (i : Nat) (h : (alarmOf a i).state = .opened ∨ (alarmOf a i).state = .deferred) :
    Orderly (modifyAlarm i acknowledge a) := by
  refine ha.modified (fun r => ?_) (fun hsound => ?_) (fun hopened => ?_) ha.queue
  · unfold acknowledge
    split <;> exact ⟨rfl, rfl⟩
  · obtain ⟨level, reported, range, waits, latched, transient⟩ := hsound
    unfold acknowledge
    split <;> simp_all [alarmRecSound] <;> aesop
  · unfold acknowledge at hopened
    split at hopened <;> cases hopened

theorem Orderly.deferred (i : Nat) (h : (alarmOf a i).state = .opened) :
    Orderly (modifyAlarm i (fun r => { r with state := .deferred }) a) := by
  refine ha.modified (f := fun r => { r with state := .deferred }) (fun r => ⟨rfl, rfl⟩) (fun hsound => ?_)
    (fun hopened => (nomatch hopened)) ha.queue
  obtain ⟨level, reported, range, waits, latched, transient⟩ := hsound
  simp_all [alarmRecSound]

end

theorem Orderly.cascade {now : Nat} {ks changed : List Nat} {a : Alarms} (ha : Orderly a) :
    Orderly (cascade now ks changed a) := by
  induction ks generalizing changed a with
  | nil => exact ha
  | cons k ks ih =>
    by_cases hused : usesChanged a changed k = true
    · rw [cascade_used hused]
      exact ih (ha.recompute now k)
    · rw [cascade_unused hused]
      exact ih ha

theorem Orderly.compositeStep {now k : Nat} {a : Alarms} (ha : Orderly a) : Orderly (compositeStep now k a) := by
  simp only [Machine.compositeStep]
  split
  · exact ha.recompute now k
  · exact (ha.recompute now k).cascade

/-! ### Raises -/

theorem le_foldl_max {xs : List Nat} {x m : Nat} (h : x ∈ xs ∨ x ≤ m) : x ≤ xs.foldl max m := by
  induction xs generalizing m with
  | nil => exact h.resolve_left List.not_mem_nil
  | cons y ys ih =>
    refine ih ?_
    obtain hmem | hle := h
    · obtain rfl | hmem := List.mem_cons.1 hmem
      · exact .inr (le_max_right _ _)
      · exact .inl hmem
    · exact .inr (le_max_of_le_left hle)

/-- The service level is not below any level reported OPEN. -/
theorem le_serviceLevel {a : Alarms} {i l : Nat} (h : opens a i l) : l ≤ serviceLevel a := by
  rw [serviceLevel_eq]
  refine le_foldl_max (.inl (List.mem_filterMap.2 ⟨alarmOf a i, mem_sources.2 ⟨i, lt_of_opens h, rfl⟩, ?_⟩))
  rw [if_pos h.1]
  exact h.2

/-- R179: a raise is of a level above the service level, or of an express source. -/
theorem Orderly.takeRaise {now i : Nat} {a : Alarms} (ha : Orderly a) (hroom : a.queue.length < 16)
    (h : nextRaise a = some i) : Orderly (takeRaise now i a) := by
  have able := (nextRaise_eq_some.1 h).1
  have hi := lt_of_eligible able
  obtain ⟨pending, -, reach⟩ := eligible_iff.1 able
  obtain ⟨hmax, -, -, waits, -⟩ := ha.record i hi
  have hlevel := (waits pending).1
  have settings : SettingsStand a (Machine.takeRaise now i a) :=
    takeReport_settings (takeReport_raise h now)
  have records (j : Nat) (hj : j < 234) : alarmOf (Machine.takeRaise now i a) j =
      if i = j then { alarmOf a j with state := .opened, reported := some (alarmOf a j).level, transient := false }
      else alarmOf a j := alarmOf_modifyAlarm i j _ a hj
  have raised {j l : Nat} (hjl : opens (Machine.takeRaise now i a) j l) :
      (j = i ∧ l = (alarmOf a i).level) ∨ (opens a j l ∧ l ≤ serviceLevel a) := by
    have hj := lt_of_opens hjl
    unfold opens at hjl
    rw [records j hj] at hjl
    split at hjl
    · rename_i hij
      exact .inl ⟨hij.symm, hij ▸ (Option.some.inj hjl.2).symm⟩
    · exact .inr ⟨hjl, le_serviceLevel hjl⟩
  have slots : inExpress (Machine.takeRaise now i a) = inExpress a := rfl
  have above {l : Nat} (hl : l = (alarmOf a i).level) (hle : l ≤ serviceLevel a)
      (hout : l = 3 → inExpress a i = false) : False := by
    obtain hlt | hexpress := reach
    · omega
    · exact Bool.false_ne_true ((hout (hl.trans (level_of_inExpress ha.express hexpress).2)).symm.trans hexpress)
  refine ⟨?_, fun j hj => ?_, expressSound_of_settings settings ha.express, operandsBelow_of_settings settings ha.below,
    fun j k l hjl hkl hout => ?_⟩
  · simp only [Machine.takeRaise, List.length_append, List.length_cons, List.length_nil]
    omega
  · rw [records j hj]
    split
    · rename_i hij
      subst hij
      simp [alarmRecSound, hmax, hlevel]
    · exact ha.record j hj
  · rw [slots] at hout
    obtain ⟨rfl, hl⟩ | ⟨hj, hjle⟩ := raised hjl <;> obtain ⟨rfl, hl'⟩ | ⟨hk, hkle⟩ := raised hkl
    · rfl
    · exact (above hl hkle fun h3 => (hout h3).1).elim
    · exact (above hl' hjle fun h3 => (hout h3).2).elim
    · exact ha.sole j k l hj hk hout

theorem Orderly.takeReport {now : Nat} {a b : Alarms} (ha : Orderly a) (hroom : a.queue.length < 16)
    (h : takeReport now a = some b) : Orderly b := by
  cases hraise : nextRaise a with
  | some i =>
    rw [takeReport_raise hraise] at h
    cases h
    exact ha.takeRaise hroom hraise
  | none =>
    rw [takeReport_clear hraise] at h
    obtain ⟨i, -, rfl⟩ := Option.map_eq_some_iff.1 h
    refine ha.modified (f := fun r => { r with clearOwed := false }) (fun _ => ⟨rfl, rfl⟩) id (fun h => ⟨h, rfl⟩) ?_
    simp only [List.length_append, List.length_cons, List.length_nil]
    omega

theorem Orderly.fillQueue {now fuel : Nat} {a : Alarms} (ha : Orderly a) : Orderly (fillQueue now fuel a) := by
  induction fuel generalizing a with
  | zero => exact ha
  | succ fuel ih =>
    by_cases hroom : a.queue.length < 16
    · cases hb : Machine.takeReport now a with
      | none =>
        rw [fillQueue_done _ hb]
        exact ha
      | some b =>
        rw [fillQueue_take _ hroom hb]
        exact ih (ha.takeReport hroom hb)
    · rw [fillQueue_full _ (by omega)]
      exact ha

theorem Orderly.fill {now : Nat} {a : Alarms} (ha : Orderly a) : Orderly (fill now a) := ha.fillQueue

theorem Orderly.alarmsGive {now i : Nat} {present : Bool} {a : Alarms} (ha : Orderly a) :
    Orderly (alarmsGive now i present a) := by
  unfold Machine.alarmsGive
  split
  · exact ha
  · exact (ha.takeCondition now i present).cascade.fill

/-! ### The host's settings and the resets -/

theorem Orderly.drained {a : Alarms} (ha : Orderly a) {report : AlarmReport} {rest : List AlarmReport}
    (h : a.queue = report :: rest) : Orderly { a with queue := rest } := by
  refine ha.of_settings ⟨fun _ => rfl, fun _ => rfl, rfl, rfl⟩ ?_ ha.record fun _ _ h => h
  have := ha.queue
  rw [h, List.length_cons] at this
  exact Nat.le_of_succ_le this

theorem Orderly.defined {k : Nat} {d : CompositeDef} {a : Alarms} (ha : Orderly a)
    (hd : d.a < compositeSource k ∧ d.b < compositeSource k) (latches : Vector Bool 8) :
    Orderly { a with composites := vecModify a.composites k fun _ => some d, latches := latches } := by
  refine ⟨ha.queue, ha.record, ha.express, fun j hj e he => ?_, ha.sole⟩
  rw [Option.mem_def, vecGet_vecModify] at he
  split at he
  · rename_i hjk
    obtain ⟨rfl, -⟩ := hjk
    cases he
    exact hd
  · exact ha.below j hj e he

theorem setAlarmRec_sound {level : Nat} (kind : AlarmKind) (hlevel : level ≤ 3) {r : AlarmRec} (h : alarmRecSound r) :
    alarmRecSound (setAlarmRec level kind r) := by
  obtain ⟨-, reported, range, waits, latched, transient⟩ := h
  cases hstate : r.state with
  | idle =>
    rw [setAlarmRec_idle hstate]
    split <;> simp_all [alarmRecSound]
    omega
  | pending =>
    rw [setAlarmRec_pending hstate]
    split
    · simp_all [alarmRecSound]
    · cases hc : r.condition <;> simp_all [alarmRecSound] <;> omega
  | opened =>
    rw [setAlarmRec_reported (.inl hstate)]
    split <;> simp_all [alarmRecSound]
  | deferred =>
    rw [setAlarmRec_reported (.inr (.inl hstate))]
    split <;> simp_all [alarmRecSound]
  | latched =>
    rw [setAlarmRec_reported (.inr (.inr hstate))]
    split <;> simp_all [alarmRecSound]

theorem setAlarmRec_opened {level : Nat} {kind : AlarmKind} {r : AlarmRec}
    (h : (setAlarmRec level kind r).state = .opened) :
    r.state = .opened ∧ (setAlarmRec level kind r).reported = r.reported := by
  cases hstate : r.state with
  | idle =>
    rw [setAlarmRec_idle hstate] at h
    split at h <;> simp_all
  | pending =>
    rw [setAlarmRec_pending hstate] at h
    split at h <;> simp_all
  | opened =>
    rw [setAlarmRec_reported (.inl hstate)] at h ⊢
    split at h <;> simp_all
  | deferred =>
    rw [setAlarmRec_reported (.inr (.inl hstate))] at h
    split at h <;> simp_all
  | latched =>
    rw [setAlarmRec_reported (.inr (.inr hstate))] at h
    split at h <;> simp_all

theorem setAlarmRec_level {level : Nat} {kind : AlarmKind} {r : AlarmRec} : (setAlarmRec level kind r).level = level := by
  unfold setAlarmRec
  dsimp only
  split <;> split <;> rfl

/-- R174: the sources of a range that holds an express source are given level 3 only. -/
theorem Orderly.given {low high level : Nat} {kind : AlarmKind} {a : Alarms} (ha : Orderly a) (hlevel : level ≤ 3)
    (hfree : ¬(level ≠ 3 ∧ rangeInExpress low high a)) :
    Orderly { a with sources := sourcesGiven low high level kind a } := by
  have records (i : Nat) (hi : i < 234) : alarmOf { a with sources := sourcesGiven low high level kind a } i =
      if low ≤ i ∧ i ≤ high then setAlarmRec level kind (alarmOf a i) else alarmOf a i :=
    vecGet_sourcesGiven low high level kind a hi
  have opensBefore (i l : Nat) (h : opens { a with sources := sourcesGiven low high level kind a } i l) : opens a i l := by
    have hi := lt_of_opens h
    unfold opens at h
    rw [records i hi] at h
    split at h
    · obtain ⟨hwas, hsame⟩ := setAlarmRec_opened h.1
      exact ⟨hwas, hsame ▸ h.2⟩
    · exact h
  have express {i : Nat} (hslot : some i ∈ a.express.toList) (hi : i < 234) (hthree : (alarmOf a i).level = 3) :
      (alarmOf { a with sources := sourcesGiven low high level kind a } i).level = 3 := by
    rw [records i hi]
    split
    · rename_i hrange
      rw [setAlarmRec_level]
      by_contra hne
      exact hfree ⟨hne, some i, hslot, i, rfl, hrange⟩
    · exact hthree
  have slot {k i : Nat} (h : vecGet a.express k none = some i) : some i ∈ a.express.toList := by
    obtain hmem | hnone := vecGet_mem a.express k none
    · exact h ▸ hmem
    · exact nomatch h.symm.trans hnone
  refine ⟨ha.queue, fun i hi => ?_, ⟨fun i hi => ?_, fun i hi => ?_⟩, ha.below, fun i j l hi hj hout => ?_⟩
  · rw [records i hi]
    split
    · exact setAlarmRec_sound kind hlevel (ha.record i hi)
    · exact ha.record i hi
  · obtain ⟨hlt, hthree, hother⟩ := ha.express.1 i hi
    exact ⟨hlt, express (slot hi) hlt hthree, hother⟩
  · obtain ⟨hlt, hthree⟩ := ha.express.2 i hi
    exact ⟨hlt, express (slot hi) hlt hthree⟩
  · exact ha.sole i j l (opensBefore i l hi) (opensBefore j l hj) hout

/-- R178: a slot takes a source of level 3 that the other slot does not hold, and gives up one that is not OPEN. -/
theorem Orderly.slotted {slot : Nat} {source : Option Nat} {a : Alarms} (ha : Orderly a) (hslot : slot ≤ 1)
    (hrange : ∀ i ∈ source, i < 234 ∧ (alarmOf a i).level = 3)
    (hother : source ≠ none → vecGet a.express (1 - slot) none ≠ source)
    (hheld : vecGet a.express slot none ≠ source →
      ∀ i ∈ vecGet a.express slot none, (alarmOf a i).state ≠ .opened) :
    Orderly { a with express := vecModify a.express slot fun _ => source } := by
  have slots (k : Nat) (hk : k < 2) : vecGet (vecModify a.express slot fun _ => source) k none =
      if slot = k then source else vecGet a.express k none := by
    rw [vecGet_vecModify]
    exact if_congr (and_iff_left hk) rfl rfl
  have kept {i l : Nat} (hopen : opens a i l) (hin : inExpress a i = true) :
      inExpress { a with express := vecModify a.express slot fun _ => source } i = true := by
    have place : ∃ k < 2, vecGet a.express k none = some i := by
      obtain h | h := mem_express (inExpress_iff.1 hin)
      · exact ⟨0, by omega, h.symm⟩
      · exact ⟨1, by omega, h.symm⟩
    obtain ⟨k, hk, hki⟩ := place
    have stands : vecGet (vecModify a.express slot fun _ => source) k none = some i := by
      rw [slots k hk]
      split
      · rename_i hsk
        subst hsk
        by_contra hne
        exact hheld (fun h => hne (h ▸ hki)) i hki hopen.1
      · exact hki
    obtain hmem | hnone := vecGet_mem (vecModify a.express slot fun _ => source) k none
    · exact inExpress_iff.2 (stands ▸ hmem)
    · exact nomatch stands.symm.trans hnone
  refine ⟨ha.queue, ha.record, ⟨fun i hi => ?_, fun i hi => ?_⟩, ha.below, fun i j l hi hj hout => ?_⟩
  · change vecGet (vecModify a.express slot fun _ => source) 0 none = some i at hi
    change i < 234 ∧ (alarmOf a i).level = 3 ∧ vecGet (vecModify a.express slot fun _ => source) 1 none ≠ some i
    rw [slots 0 (by omega)] at hi
    rw [slots 1 (by omega)]
    obtain rfl | rfl : slot = 0 ∨ slot = 1 := by omega
    · obtain ⟨hlt, hthree⟩ := hrange i hi
      exact ⟨hlt, hthree, fun h => hother (by rw [if_pos rfl] at hi; rw [hi]; nofun) (h.trans hi.symm)⟩
    · obtain ⟨hlt, hthree, -⟩ := ha.express.1 i hi
      refine ⟨hlt, hthree, fun h => ?_⟩
      have hs : source = some i := h
      exact hother (by rw [hs]; nofun) (hs ▸ hi)
  · change vecGet (vecModify a.express slot fun _ => source) 1 none = some i at hi
    rw [slots 1 (by omega)] at hi
    split at hi
    · exact hrange i hi
    · exact ha.express.2 i hi
  · refine ha.sole i j l hi hj fun h3 => ?_
    obtain ⟨houti, houtj⟩ := hout h3
    refine ⟨Bool.eq_false_iff.2 fun h => ?_, Bool.eq_false_iff.2 fun h => ?_⟩
    · exact Bool.false_ne_true (houti.symm.trans (kept hi h))
    · exact Bool.false_ne_true (houtj.symm.trans (kept hj h))

theorem alarmOf_retained (a : Alarms) {i : Nat} (hi : i < 234) :
    alarmOf (retainedAlarms a) i = retainedAlarm (alarmOf a i) := vecGet_vecMap _ _ _ _ _ hi

theorem Orderly.retained {a : Alarms} (ha : Orderly a) : Orderly (retainedAlarms a) := by
  have settings : SettingsStand a (retainedAlarms a) := by
    refine ⟨fun i => ?_, fun i => ?_, rfl, rfl⟩ <;> by_cases hi : i < 234
    · rw [alarmOf_retained a hi]
      rfl
    · rw [alarmOf_of_ge _ (by omega), alarmOf_of_ge _ (by omega)]
    · rw [alarmOf_retained a hi]
      rfl
    · rw [alarmOf_of_ge _ (by omega), alarmOf_of_ge _ (by omega)]
  refine ha.of_settings settings (Nat.zero_le _) (fun i hi => ?_) fun i l h => ?_
  · obtain ⟨level, -⟩ := ha.record i hi
    rw [alarmOf_retained a hi]
    simp [alarmRecSound, retainedAlarm, coldAlarm, level]
  · have hi := lt_of_opens h
    rw [opens, alarmOf_retained a hi] at h
    exact nomatch h.1

end Sys2Proof.Machine
end

section
/-! SUPPORT. Every step keeps the Alarm Controller sound: its commands' own changes, and the conditions given by the
others. -/

namespace Sys2Proof.Machine

/-! ### Composites under the controller's own changes -/

/-- What leaves every condition, definition and latch leaves the composites. -/
theorem compositesSound_of_conditions {a b : Alarms} (hcondition : ∀ i < 234, (alarmOf b i).condition = (alarmOf a i).condition)
    (hcomposites : b.composites = a.composites) (hlatches : b.latches = a.latches) (h : compositesSound a) :
    compositesSound b := by
  have condition (i : Nat) : (alarmOf b i).condition = (alarmOf a i).condition := by
    by_cases hi : i < 234
    · exact hcondition i hi
    · rw [alarmOf_of_ge _ (by omega), alarmOf_of_ge _ (by omega)]
  exact fun k hk => composed_congr hcomposites (by rw [hlatches]) (condition _) (fun _ _ i _ => condition i) (h k hk)

/-- A composite recomputed, the others being composed: all are. -/
theorem compositesSound_compositeStep {now k : Nat} {a : Alarms} (hk : k < 8) (hbelow : operandsBelow a)
    (hempty : vecGet a.composites k none = none → composed a k) (hothers : ∀ j < 8, j ≠ k → composed a j) :
    compositesSound (compositeStep now k a) := by
  have settings := recomputeComposite_settings now k a
  have self := composed_recomputeComposite (now := now) hk hbelow hempty
  have other (j : Nat) (hj : j < 8) (hne : j ≠ k)
      (hstands : ∀ d, vecGet a.composites j none = some d → ∀ i, i = d.a ∨ i = d.b →
        (alarmOf (recomputeComposite now k a) i).condition = (alarmOf a i).condition) :
      composed (recomputeComposite now k a) j :=
    composed_congr settings.composites (latches_recomputeComposite j hne)
      (condition_recomputeComposite _ _ _ _ (by unfold compositeSource; omega) (by unfold compositeSource; omega))
      hstands (hothers j hj hne)
  have operand {j : Nat} {d : CompositeDef} (hj : j < 8) (hd : vecGet a.composites j none = some d) {i : Nat}
      (hi : i = d.a ∨ i = d.b) : i < 234 := by
    obtain ⟨ha, hb⟩ := hbelow j (List.mem_range.2 hj) d hd
    unfold compositeSource at ha hb
    omega
  unfold compositeStep
  dsimp only
  split
  · rename_i hsame
    rw [compositesSound_iff]
    intro j hj
    by_cases hne : j = k
    · exact hne ▸ self
    · refine other j hj hne fun d hd i hi => ?_
      by_cases hik : i = compositeSource k
      · rw [hik, hsame]
      · exact condition_recomputeComposite _ _ _ _ (operand hj hd hi) hik
  · refine compositesSound_cascade now _ (operandsBelow_of_settings settings hbelow) fun j hj hfree => ?_
    by_cases hne : j = k
    · exact hne ▸ self
    · refine other j hj hne fun d hd i hi => condition_recomputeComposite _ _ _ _ (operand hj hd hi) fun hik => ?_
      refine absurd (usesChanged_iff.2 ⟨d, by rw [settings.composites, hd], ?_⟩) (Bool.eq_false_iff.1 hfree)
      simpa [← hik, eq_comm] using hi

/-- A changed definition or latch of composite `k` leaves the other composites. -/
theorem composed_other {a b : Alarms} {k j : Nat} (hne : j ≠ k) (hsources : b.sources = a.sources)
    {definition : Option CompositeDef → Option CompositeDef} (hcomposites : b.composites = vecModify a.composites k definition)
    {latch : Bool → Bool} (hlatches : b.latches = vecModify a.latches k latch) (h : composed a j) : composed b j := by
  have source (i : Nat) : alarmOf b i = alarmOf a i := by rw [alarmOf, hsources, alarmOf]
  unfold composed at h ⊢
  rw [source, hcomposites, hlatches, vecGet_vecModify, vecGet_vecModify, if_neg fun h => hne h.1.symm,
    if_neg fun h => hne h.1.symm, h]
  split
  · rfl
  · rw [compositeValue_congr fun i _ => by rw [source]]

theorem compositesSound_defined {now k : Nat} {d : CompositeDef} {a : Alarms} (hk : k < 8)
    (hd : d.a < compositeSource k ∧ d.b < compositeSource k) (ha : Orderly a) (h : compositesSound a) :
    compositesSound (compositeStep now k { a with
      composites := vecModify a.composites k fun _ => some d, latches := vecModify a.latches k fun _ => false }) := by
  refine compositesSound_compositeStep hk (ha.defined hd _).below (fun hnone => ?_) fun j hj hne =>
    composed_other (a := a) hne rfl rfl rfl (compositesSound_iff.1 h j hj)
  rw [vecGet_vecModify, if_pos ⟨rfl, hk⟩] at hnone
  exact nomatch hnone

theorem compositesSound_released {now k : Nat} {a : Alarms} (hk : k < 8) (hd : vecGet a.composites k none ≠ none)
    (ha : Orderly a) (h : compositesSound a) :
    compositesSound (compositeStep now k { a with latches := vecModify a.latches k fun _ => false }) := by
  refine compositesSound_compositeStep hk ha.below (fun hnone => absurd hnone hd) fun j hj hne => ?_
  refine composed_other (a := a) (definition := id) hne rfl (vecModify_unchanged none rfl).symm rfl
    (compositesSound_iff.1 h j hj)

theorem compositesSound_retained {a : Alarms} : compositesSound (retainedAlarms a) := by
  have absent (i : Nat) : (alarmOf (retainedAlarms a) i).condition = false := by
    by_cases hi : i < 234
    · rw [alarmOf_retained a hi]
      rfl
    · rw [alarmOf_of_ge _ (by omega)]
      rfl
  intro k _
  rw [absent]
  split
  · rfl
  · rename_i d hd
    rw [compositeValue, absent, absent, show (retainedAlarms a).latches = Vector.replicate 8 false from rfl, vecGet_replicate]
    cases d.op <;> cases d.hold <;> rfl

/-! ### What every command keeps of the alarms -/

/-- A property of the alarms that the host's requests and the sending of reports keep. -/
structure KeptBySettings (q : Alarms → Prop) : Prop where
  fill : ∀ now a, q a → q (fill now a)
  drained : ∀ a report rest, a.queue = report :: rest → q a → q { a with queue := rest }
  given : ∀ low high level kind a, level ≤ 3 → ¬(level ≠ 3 ∧ rangeInExpress low high a) → q a →
    q { a with sources := sourcesGiven low high level kind a }
  slotted : ∀ slot source a, slot ≤ 1 → (∀ i ∈ source, i < 234 ∧ (alarmOf a i).level = 3) →
    (source ≠ none → vecGet a.express (1 - slot) none ≠ source) →
    (vecGet a.express slot none ≠ source → ∀ i ∈ vecGet a.express slot none, (alarmOf a i).state ≠ .opened) → q a →
    q { a with express := vecModify a.express slot fun _ => source }
  acknowledged : ∀ i a, (alarmOf a i).state = .opened ∨ (alarmOf a i).state = .deferred → q a →
    q (modifyAlarm i acknowledge a)
  deferred : ∀ i a, (alarmOf a i).state = .opened → q a → q (modifyAlarm i (fun r => { r with state := .deferred }) a)
  defined : ∀ now k d a, k < 8 → d.a < compositeSource k ∧ d.b < compositeSource k → q a →
    q (compositeStep now k { a with
      composites := vecModify a.composites k fun _ => some d, latches := vecModify a.latches k fun _ => false })
  released : ∀ now k a, k < 8 → vecGet a.composites k none ≠ none → q a →
    q (compositeStep now k { a with latches := vecModify a.latches k fun _ => false })

/-- A property of the alarms that every change of them keeps, conditions being given of the sources that `ok` admits. -/
structure KeptByAlarms (ok : Nat → Prop) (q : Alarms → Prop) : Prop extends KeptBySettings q where
  give : ∀ now i present a, ok i → q a → q (alarmsGive now i present a)
  cold : q coldAlarms
  retained : ∀ a, q a → q (retainedAlarms a)

section
variable {q : Alarms → Prop} (hq : KeptBySettings q)
include hq

theorem KeptBySettings.alarmSet {low high level kind : Nat} {s : State} (h : q s.alarms) :
    q (alarmSetStep low high level kind s).1.alarms := by
  by_cases hr : alarmSetInRange low high level kind
  · rw [alarmSetStep_inRange hr]
    split
    · exact h
    · rename_i hfree
      obtain ⟨-, -, -, hlevel, -⟩ := hr
      exact hq.fill _ _ (hq.given _ _ _ _ _ hlevel hfree h)
  · rw [alarmSetStep_outOfRange hr]
    exact h

theorem KeptBySettings.alarmExpress {slot : Nat} {source : Option Nat} {s : State} (h : q s.alarms) :
    q (alarmExpressStep slot source s).1.alarms := by
  rw [alarmExpressStep_eq]
  split
  · exact h
  rename_i hrange
  split
  · exact h
  rename_i hlevel
  split
  · exact h
  rename_i hother
  split
  · exact h
  rename_i hheld
  obtain ⟨hslot, hsource⟩ := not_not.1 hrange
  refine hq.fill _ _ (hq.slotted _ _ _ hslot (fun i hi => ⟨?_, ?_⟩) (fun hne heq => hother ⟨hne, heq⟩)
    (fun hne i hi hopen => hheld ⟨hne, i, hi, hopen⟩) h)
  · exact Nat.lt_succ_of_le (hsource i hi)
  · by_contra hne
    exact hlevel ⟨i, hi, hne⟩

theorem KeptBySettings.alarmAck {i : Nat} {s : State} (h : q s.alarms) : q (alarmAckStep i s).1.alarms := by
  unfold alarmAckStep
  split
  · exact h
  · dsimp only
    split
    · rename_i hstate
      simp only [Bool.or_eq_true, decide_eq_true_eq] at hstate
      exact hq.fill _ _ (hq.acknowledged _ _ hstate h)
    · exact h

theorem KeptBySettings.alarmDefer {i : Nat} {s : State} (h : q s.alarms) : q (alarmDeferStep i s).1.alarms := by
  rw [alarmDeferStep_eq]
  split_ifs with hrange hstate
  · exact h
  · exact hq.fill _ _ (hq.deferred _ _ hstate h)
  · exact h

theorem KeptBySettings.compositeDefine {index operation a b hold : Nat} {s : State} (h : q s.alarms) :
    q (compositeDefineStep index operation a b hold s).1.alarms := by
  by_cases hr : defineInRange index operation a b hold
  · rw [compositeDefineStep_inRange hr]
    split
    · exact h
    · rename_i hfree
      rw [not_or, not_le, not_le] at hfree
      obtain ⟨hindex, -⟩ := hr
      exact hq.fill _ _ (hq.defined _ _ _ _ (Nat.lt_succ_of_le hindex) hfree h)
  · rw [compositeDefineStep_outOfRange hr]
    exact h

theorem KeptBySettings.compositeRelease {index : Nat} {s : State} (h : q s.alarms) :
    q (compositeReleaseStep index s).1.alarms := by
  unfold compositeReleaseStep
  split
  · exact h
  split
  · exact h
  rename_i hindex hnone
  refine hq.fill _ _ (hq.released _ _ _ (by omega) (fun hd => hnone ?_) h)
  rw [hd]
  rfl

theorem KeptBySettings.chooseFrame {s : State} (h : q s.alarms) : q (chooseFrame s).alarms := by
  unfold Machine.chooseFrame
  split
  · exact h
  split
  · exact h
  split
  · rename_i report rest hqueue
    exact hq.fill _ _ (hq.drained _ _ _ hqueue h)
  · exact h

end

theorem KeptByAlarms.command {ok fit : Nat → Prop} {q : Alarms → Prop} (hq : KeptByAlarms ok q)
    (admits : AdmitsPart ok fit) {c : Instr} (hunit : namesUnit c) {s : State}
    (hs : tapsFit fit s) (h : q s.alarms) : q (commandStep c s).alarms := by
  have request {owner : State → State × Reply} (ho : ∀ u, q u.alarms → q (owner u).1.alarms) :
      q (serve c owner s).alarms := serve_keeps (p := fun u => q u.alarms) (fun _ _ h => h) h ho
  have stop (u : State) (hu : q u.alarms) : q (stopClock u).alarms := by
    rw [show (stopClock u).alarms = u.alarms from (changes_stopClock u).same .alarms]
    exact hu
  have retained (kind : ResetKind) (u : State) (hu : q u.alarms) : q (retainedReset kind u).alarms := hq.retained _ hu
  by_cases hc : setsAlarms c = false
  · exact (gives_command admits hc hunit hs).keeps hq.give h
  cases c
  case alarmSet => exact request fun _ => hq.alarmSet
  case compositeDefine => exact request fun _ => hq.compositeDefine
  case compositeRelease => exact request fun _ => hq.compositeRelease
  case alarmExpress => exact request fun _ => hq.alarmExpress
  case alarmAck => exact request fun _ => hq.alarmAck
  case alarmDefer => exact request fun _ => hq.alarmDefer
  case firstPower => exact hq.cold
  case mainPowerReturn => exact mainPowerReturn_keeps (p := fun u => q u.alarms) hq.cold retained h
  case resetPin => exact resetPin_keeps (p := fun u => q u.alarms) stop retained h
  case outboundFrameDone =>
    exact whenRunning_keeps (p := fun u => q u.alarms) h
      (outboundFrameDone_keeps (p := fun u => q u.alarms) hq.chooseFrame stop retained)
  all_goals exact absurd rfl hc

/-! ### The two properties kept -/

theorem orderly_kept : KeptByAlarms (fun _ => True) Orderly where
  give _ _ _ _ _ h := h.alarmsGive
  fill _ _ h := h.fill
  cold := alarmsSound_iff.1 coldAlarms_sound
  retained _ h := h.retained
  drained _ _ _ hqueue h := h.drained hqueue
  given _ _ _ _ _ hlevel hfree h := h.given hlevel hfree
  slotted _ _ _ hslot hrange hother hheld h := h.slotted hslot hrange hother hheld
  acknowledged i _ hstate h := h.acknowledged i hstate
  deferred i _ hstate h := h.deferred i hstate
  defined _ _ _ _ _ hd h := (h.defined hd _).compositeStep
  released _ _ _ _ _ h := (h.latches _).compositeStep

theorem setAlarmRec_condition {level : Nat} {kind : AlarmKind} {r : AlarmRec} :
    (setAlarmRec level kind r).condition = r.condition := by
  unfold setAlarmRec
  dsimp only
  split <;> split <;> rfl

theorem acknowledge_condition (r : AlarmRec) : (acknowledge r).condition = r.condition := by
  unfold acknowledge
  split <;> rfl

/-- A sound controller whose composites are the values of their operands. -/
abbrev composedOrderly (a : Alarms) : Prop := Orderly a ∧ compositesSound a

theorem composedOrderly_kept : KeptByAlarms (· < 226) composedOrderly where
  give now _ present _ hi h := ⟨h.1.alarmsGive, compositesSound_alarmsGive now present hi h.1.below h.2⟩
  fill now _ h := ⟨h.1.fill, compositesSound_fill now h.2⟩
  cold := ⟨alarmsSound_iff.1 coldAlarms_sound, coldAlarms_compositesSound⟩
  retained _ h := ⟨h.1.retained, compositesSound_retained⟩
  drained _ _ _ hqueue h := ⟨h.1.drained hqueue, h.2⟩
  given low high level kind a hlevel hfree h := by
    refine ⟨h.1.given hlevel hfree, compositesSound_of_conditions (a := a) (fun i hi => ?_) rfl rfl h.2⟩
    rw [alarmOf, vecGet_sourcesGiven low high level kind a hi]
    split
    · exact setAlarmRec_condition
    · rfl
  slotted _ _ _ hslot hrange hother hheld h := ⟨h.1.slotted hslot hrange hother hheld, h.2⟩
  acknowledged i a hstate h := ⟨h.1.acknowledged i hstate, compositesSound_of_conditions (a := a)
    (fun j _ => condition_modifyAlarm i j _ acknowledge_condition a) rfl rfl h.2⟩
  deferred i a hstate h := ⟨h.1.deferred i hstate, compositesSound_of_conditions (a := a)
    (fun j _ => condition_modifyAlarm i j (fun r => { r with state := .deferred }) (fun _ => rfl) a) rfl rfl h.2⟩
  defined _ _ _ _ hk hd h := ⟨(h.1.defined hd _).compositeStep, compositesSound_defined hk hd h.1 h.2⟩
  released _ _ _ hk hd h := ⟨(h.1.latches _).compositeStep, compositesSound_released hk hd h.1 h.2⟩

/-- Every source the part's blocks give is a fixed one while the taps are of nodes 1..32. -/
theorem admitsPart_fixed : AdmitsPart (· < 226) (fun n => 1 ≤ n ∧ n ≤ 32) where
  money i h := by
    obtain rfl | rfl := h <;> decide
  input n h := by
    unfold sourceLostSource
    omega
  node n h i hi := by
    obtain rfl | rfl | rfl | rfl | rfl := hi <;>
      simp only [nodeOutageSource, nodeDegradedSource, nodePowerSource, nodeLevelStepSource, switchFaultSource] <;> omega
  part _ h := h

theorem admitsPart_all : AdmitsPart (fun _ => True) (fun _ => True) :=
  ⟨fun _ _ => trivial, fun _ _ => trivial, fun _ _ _ _ => trivial, fun _ _ => trivial⟩

theorem tapsFit_of_directorySound {s : State} (h : directorySound s) : tapsFit (fun n => 1 ≤ n ∧ n ≤ 32) s := by
  obtain ⟨-, -, -, htaps, -⟩ := h
  exact fun t ht => (htaps t ht).2.1

/-- Settles O58: every change of the alarms keeps the records sound and opens a source only above the service level or in an
express slot, and a condition given is carried through the composites in ascending index. -/
theorem alarmsStaySound : Obligations.AlarmsStaySound := by
  intro s t h sound
  have orderly := alarmsSound_iff.1 sound
  have all (u : State) : tapsFit (fun _ => True) u := fun _ _ => trivial
  refine ⟨alarmsSound_iff.2 (step_keeps (p := fun u => Orderly u.alarms) (fun _ _ h => h)
    (fun c u hunit hu => orderly_kept.command admitsPart_all hunit (all u) hu) h orderly), fun directory composites => ?_⟩
  exact (step_keeps (p := fun u => unitsSound u ∧ composedOrderly u.alarms) (fun _ _ h => h)
    (fun c u hunit hu => ⟨unitsSound_kept.command c hu.1,
      composedOrderly_kept.command admitsPart_fixed hunit (tapsFit_of_directorySound (directorySound_iff.2 hu.1)) hu.2⟩)
    h ⟨directorySound_iff.1 directory, orderly, composites⟩).2.2

end Sys2Proof.Machine
end

section
/-! SUPPORT. Every command keeps the switching records sound: the command queue names taps on record that are not in
REMOVING, each once, and every switching record lies within Table 6-2. -/

namespace Sys2Proof.Machine

/-! ### Records that agree -/

/-- A switching record within Table 6-2. -/
def switchRecSound (r : SwitchRec) : Prop := r.serial ≤ 255 ∧ r.attempts ≤ 4 ∧ r.inFlight = r.sent.isSome

/-- A record of a tap as a change leaves it: address and removal stand, and so does a sound switching record. -/
def switchAgrees (r q : TapRec) : Prop :=
  q.address = r.address ∧ (q.state = .removing ↔ r.state = .removing) ∧
    (switchRecSound r.switching → switchRecSound q.switching)

theorem switchAgrees_refl (r : TapRec) : switchAgrees r r := ⟨rfl, Iff.rfl, id⟩

theorem switchAgrees_map {taps : List TapRec} {f : TapRec → TapRec} (hf : ∀ r ∈ taps, switchAgrees r (f r)) :
    List.Forall₂ switchAgrees taps (taps.map f) :=
  List.forall₂_map_right_iff.2 (List.forall₂_same.2 hf)

theorem switchAgrees_modifyTap {taps : List TapRec} {a : Nat} {f : TapRec → TapRec}
    (hf : ∀ r ∈ taps, r.address = a → switchAgrees r (f r)) : List.Forall₂ switchAgrees taps (modifyTap a f taps) :=
  switchAgrees_map fun r hr => by
    split
    · exact hf r hr ‹_›
    · exact switchAgrees_refl r

/-- A tap on record and not in REMOVING. -/
def liveTap (a : Nat) (taps : List TapRec) : Prop := ∃ t ∈ taps, t.address = a ∧ t.state ≠ .removing

theorem addresses_of_switchAgrees {xs ys : List TapRec} (h : List.Forall₂ switchAgrees xs ys) :
    ys.map (·.address) = xs.map (·.address) := by
  induction h with
  | nil => rfl
  | cons hxy _ ih => rw [List.map_cons, List.map_cons, ih, hxy.1]

theorem liveTap_of_agrees {xs ys : List TapRec} (h : List.Forall₂ switchAgrees xs ys) {a : Nat} (ha : liveTap a xs) :
    liveTap a ys := by
  obtain ⟨t, ht, rfl, hlive⟩ := ha
  obtain ⟨q, hq, haddress, hremoving, -⟩ := forall₂_exists h.flip ht
  exact ⟨q, hq, haddress, fun hr => hlive (hremoving.1 hr)⟩

/-- The taps agree record by record, and the queue names taps queued before or live ones: the switching stays sound. -/
theorem switchingSound_of_agrees {s t : State} (h : List.Forall₂ switchAgrees s.taps t.taps)
    (hnodup : s.commandQueue.Nodup → t.commandQueue.Nodup)
    (hqueued : ∀ a ∈ t.commandQueue, a ∈ s.commandQueue ∨ liveTap a s.taps) (hs : switchingSound s) :
    switchingSound t := by
  obtain ⟨rising, nodup, live, records⟩ := hs
  refine ⟨(addresses_of_switchAgrees h).symm ▸ rising, hnodup nodup, fun a ha => ?_, fun q hq => ?_⟩
  · exact liveTap_of_agrees h ((hqueued a ha).elim (live a) id)
  · obtain ⟨r, hr, -, -, hsound⟩ := forall₂_exists h hq
    exact hsound (records r hr)

/-- The taps and the queue stand. -/
theorem switchingSound_of_same {s t : State} (htaps : t.taps = s.taps) (hqueue : t.commandQueue = s.commandQueue)
    (hs : switchingSound s) : switchingSound t := by
  unfold switchingSound
  rw [htaps, hqueue]
  exact hs

theorem switchingSound_modifyTap {a : Nat} {f : TapRec → TapRec} {s : State}
    (hf : ∀ r ∈ s.taps, r.address = a → switchAgrees r (f r)) (hs : switchingSound s) :
    switchingSound { s with taps := modifyTap a f s.taps } :=
  switchingSound_of_agrees (s := s) (switchAgrees_modifyTap hf) id (fun _ => .inl) hs

theorem switchingSound_modifySwitch {a : Nat} {f : SwitchRec → SwitchRec} {s : State}
    (hf : ∀ r, switchRecSound r → switchRecSound (f r)) (hs : switchingSound s) : switchingSound (modifySwitch a f s) :=
  switchingSound_modifyTap (fun _ _ _ => ⟨rfl, Iff.rfl, hf _⟩) hs

/-! ### Changes of the queue -/

theorem mem_unqueue {a b : Nat} {queue : List Nat} : b ∈ unqueue a queue ↔ b ∈ queue ∧ b ≠ a := by
  rw [unqueue_eq, List.mem_filter, decide_eq_true_eq]

theorem switchingSound_unqueue (a : Nat) {s : State} (hs : switchingSound s) :
    switchingSound { s with commandQueue := unqueue a s.commandQueue } :=
  switchingSound_of_agrees (s := s) (forall₂_refl switchAgrees_refl _) (fun h => h.filter _)
    (fun _ hb => .inl (mem_unqueue.1 hb).1) hs

theorem switchingSound_toTail {a : Nat} {s : State} (ha : liveTap a s.taps) (hs : switchingSound s) :
    switchingSound { s with commandQueue := toTail a s.commandQueue } := by
  refine switchingSound_of_agrees (s := s) (forall₂_refl switchAgrees_refl _) (fun h => ?_) (fun b hb => ?_) hs
  · refine List.nodup_append'.2 ⟨h.filter _, List.nodup_singleton a, fun b hb hba => ?_⟩
    exact (mem_unqueue.1 hb).2 (List.mem_singleton.1 hba)
  · obtain hb | hb := List.mem_append.1 hb
    · exact .inl (mem_unqueue.1 hb).1
    · exact .inr (List.mem_singleton.1 hb ▸ ha)

/-- A live tap that is not queued joins the tail. -/
theorem switchingSound_join {a : Nat} {s : State} (ha : liveTap a s.taps) (hq : a ∉ s.commandQueue)
    (hs : switchingSound s) : switchingSound { s with commandQueue := s.commandQueue ++ [a] } := by
  have same : s.commandQueue ++ [a] = toTail a s.commandQueue := by
    rw [toTail, unqueue_eq, List.filter_eq_self.2]
    rintro b hb
    rw [decide_eq_true_eq]
    rintro rfl
    exact hq hb
  rw [same]
  exact switchingSound_toTail ha hs

theorem attemptsCleared_sound {r : SwitchRec} (h : switchRecSound r) : switchRecSound { r with attempts := 0 } :=
  ⟨h.1, Nat.zero_le _, h.2.2⟩

/-! ### The Switching Engine's operations -/

theorem liveTap_modifySwitch {a b : Nat} {f : SwitchRec → SwitchRec} {s : State} (h : liveTap b s.taps) :
    liveTap b (modifySwitch a f s).taps := by
  obtain ⟨t, ht, rfl, hlive⟩ := h
  refine ⟨_, List.mem_map_of_mem ht, ?_, ?_⟩ <;> split <;> first | rfl | exact hlive

theorem switchingSound_recompute (a : Nat) {s : State} (hs : switchingSound s) : switchingSound (recompute a s) := by
  unfold recompute
  split
  · exact hs
  rename_i t ht
  obtain ⟨htaps, rfl⟩ := findTap_some ht
  split
  · exact hs
  rename_i hlive
  have live : liveTap t.address s.taps := ⟨t, htaps, rfl, hlive⟩
  have desired (v : TapSetting) : switchingSound (modifySwitch t.address (fun r => { r with desired := v }) s) :=
    switchingSound_modifySwitch (fun _ h => h) hs
  dsimp only
  unfold queueUpdate
  split
  · exact desired _
  · rename_i hq _
    refine switchingSound_modifySwitch (fun _ => attemptsCleared_sound)
      (switchingSound_join (liveTap_modifySwitch live) ?_ (desired _))
    rw [modifySwitch_commandQueue, ← Bool.not_eq_true, List.contains_iff_mem] at hq
    exact hq
  · exact switchingSound_modifySwitch (fun _ => attemptsCleared_sound) (switchingSound_unqueue _ (desired _))
  · exact desired _

theorem switchingSound_evaluateStale (a : Nat) {s : State} (hs : switchingSound s) : switchingSound (evaluateStale a s) := by
  unfold evaluateStale
  split
  · exact hs
  · split
    · exact hs
    · refine switchingSound_recompute a (switchingSound_modifyTap (f := fun r => { r with stale := isStale s r }) ?_ hs)
      exact fun _ _ _ => switchAgrees_refl _

theorem switchingSound_judged (n : Nat) {s : State} (hs : switchingSound s) : switchingSound (judgeSwitchFault n s) :=
  switchingSound_of_same rfl rfl hs

theorem switchingSound_compareStatus (a : Nat) (ports : TapSetting) {s : State} (ha : liveTap a s.taps)
    (hs : switchingSound s) : switchingSound (compareStatus a ports s) := by
  unfold compareStatus
  split
  · exact hs
  rename_i t ht
  obtain ⟨-, rfl⟩ := findTap_some ht
  split
  · refine switchingSound_judged _ (switchingSound_modifySwitch (fun _ h => ?_) (switchingSound_unqueue _ hs))
    exact ⟨h.1, Nat.zero_le _, h.2.2⟩
  · refine switchingSound_modifySwitch (fun _ => attemptsCleared_sound) ?_
    by_cases hq : t.address ∈ s.commandQueue
    · rw [if_pos (List.contains_iff_mem.2 hq)]
      exact hs
    · rw [if_neg (mt List.contains_iff_mem.1 hq)]
      exact switchingSound_join ha hq hs

theorem liveTap_of_sameUnits {a : Nat} {s t : State} (h : List.Forall₂ tapAgrees s.taps t.taps) (ha : liveTap a s.taps) :
    liveTap a t.taps := by
  obtain ⟨r, hr, rfl, hlive⟩ := ha
  obtain ⟨q, hq, haddress, -, -, hremoving, -⟩ := forall₂_exists h.flip hr
  exact ⟨q, hq, haddress, fun h => hlive (hremoving.1 h)⟩

theorem switchingSound_reconcile (a : Nat) (ports : TapSetting) {s : State} (ha : liveTap a s.taps)
    (hs : switchingSound s) : switchingSound (reconcile a ports s) :=
  switchingSound_compareStatus a ports (liveTap_of_sameUnits (sameUnits_evaluateStale a s).1 ha)
    (switchingSound_evaluateStale a hs)

/-- A tap of the queue is live, the one with its address being on record once. -/
theorem live_of_queued {s : State} (hs : switchingSound s) {t : TapRec} (ht : t ∈ s.taps)
    (hq : t.address ∈ s.commandQueue) : t.state ≠ .removing := by
  obtain ⟨rising, -, live, -⟩ := hs
  obtain ⟨r, hr, haddress, hlive⟩ := live _ hq
  exact eq_of_address rising ht hr haddress ▸ hlive

theorem switchingSound_judgeDelivery (a : Nat) (result : WindowResult) {s : State} (hs : switchingSound s) :
    switchingSound (judgeDelivery a result s) := by
  unfold judgeDelivery
  split
  · exact hs
  rename_i t ht
  obtain ⟨htaps, rfl⟩ := findTap_some ht
  have closed : switchingSound (modifySwitch t.address (fun r => { r with sent := none, inFlight := false }) s) :=
    switchingSound_modifySwitch (fun _ h => ⟨h.1, h.2.1, rfl⟩) hs
  split
  · unfold deliveryDone
    refine switchingSound_judged _ ?_
    have done : switchingSound (modifySwitch t.address
        (fun r => { r with confirmed := r.sent, attempts := 0, fault := false, sent := none, inFlight := false }) s) :=
      switchingSound_modifySwitch (fun _ h => ⟨h.1, Nat.zero_le _, rfl⟩) hs
    split
    · exact switchingSound_unqueue _ done
    · split
      · exact done
      · rename_i hlive
        exact switchingSound_toTail (liveTap_modifySwitch ⟨t, htaps, rfl, hlive⟩) done
  · unfold deliveryFailed
    dsimp only
    split
    · rename_i hq
      have live : liveTap t.address s.taps := ⟨t, htaps, rfl, live_of_queued hs htaps (List.contains_iff_mem.1 hq)⟩
      split
      · rename_i hcount
        refine switchingSound_of_agrees (s := s) ?_ (fun h => ?_) (fun b hb => ?_) hs
        · change List.Forall₂ switchAgrees s.taps (modifyTap t.address _ (modifyTap t.address _ s.taps))
          rw [modifyTap_modifyTap _ _ _ (by exact fun _ => rfl)]
          refine switchAgrees_modifyTap fun r hr ha => ⟨rfl, Iff.rfl, fun h => ⟨h.1, ?_, rfl⟩⟩
          obtain rfl := eq_of_address hs.1 htaps hr ha
          exact Nat.le_of_lt hcount
        · exact (switchingSound_toTail live hs).2.1
        · obtain hb | hb := List.mem_append.1 hb
          · exact .inl (mem_unqueue.1 hb).1
          · exact .inr (List.mem_singleton.1 hb ▸ live)
      · refine switchingSound_judged _ (switchingSound_modifySwitch (fun _ h => ?_) (switchingSound_unqueue _ closed))
        exact ⟨h.1, le_rfl, h.2.2⟩
    · exact closed

/-! ### Landing, passes and removal -/

/-- A landing on a tap on record, the only one with its address. -/
theorem switchAgrees_landed {s : State} {t : TapRec} (hs : switchingSound s) (ht : t ∈ s.taps) {f : TapRec → TapRec}
    (hf : tapLands t f) : ∀ r ∈ s.taps, r.address = t.address → switchAgrees r (f r) := fun r hr ha => by
  obtain rfl := eq_of_address hs.1 ht hr ha
  obtain ⟨hfields, hremoving, hlive⟩ := hf
  obtain ⟨haddress, -, -, -, hswitching, -⟩ := hfields r
  refine ⟨haddress, ⟨fun h => ?_, fun h => (hremoving h r).trans h⟩, fun h => hswitching ▸ h⟩
  by_contra hne
  exact hlive hne r h

theorem switchingSound_of_nodes {s t : State} (h : Changes nodeBlocks s t) (hs : switchingSound s) : switchingSound t :=
  switchingSound_of_same (h.same .taps) (h.same .commandQueue) hs

theorem switchingSound_probeAnswer (n probe : Nat) {s : State} (hs : switchingSound s) :
    switchingSound (probeAnswer n probe s) := by
  refine probeAnswer_keeps (p := switchingSound) (fun h => ?_)
    (fun _ _ _ _ h => switchingSound_of_nodes (changes_setNodeState _ _ _ _) h) hs
  refine switchingSound_of_agrees (s := s) (switchAgrees_map fun r _ => ?_) id (fun _ => .inl) h
  split
  · rename_i hr
    exact ⟨rfl, by simp [hr.2.1], id⟩
  · exact switchAgrees_refl r

theorem tapLands_of_removing {t : TapRec} (hr : t.state = .removing) {f : TapRec → TapRec}
    (hf : ∀ r, (f r).address = r.address ∧ (f r).node = r.node ∧ (f r).ports = r.ports ∧ (f r).stale = r.stale ∧
      (f r).switching = r.switching ∧ (r.miss ≤ 15 → (f r).miss ≤ 15)) (hs : ∀ r, (f r).state = r.state) : tapLands t f :=
  ⟨hf, fun _ => hs, fun hn => absurd hr hn⟩

/-- A landing on a tap in REMOVING changes its record alone. -/
theorem landTap_removing_cases {t : TapRec} (hr : t.state = .removing) (probe : Bool) (result : WindowResult) (s : State) :
    landTap t probe result s = s ∨
      ∃ f, tapLands t f ∧ landTap t probe result s = { s with taps := modifyTap t.address f s.taps } := by
  obtain ⟨hgood, hgarbled, hnone⟩ := landTap_removing (s := s) (probe := probe) hr
  match result with
  | .good (.tapStatus status) =>
    refine .inr ⟨_, ?_, hgood status⟩
    exact tapLands_of_removing hr (fun _ => ⟨rfl, rfl, rfl, rfl, rfl, id⟩) fun _ => rfl
  | .good (.transponderStatus _ _) => exact .inl rfl
  | .good (.ack _ _ _) => exact .inl rfl
  | .good (.purchase _) => exact .inl rfl
  | .garbled =>
    refine .inr ⟨_, ?_, hgarbled⟩
    exact tapLands_of_removing hr (fun _ => ⟨rfl, rfl, rfl, rfl, rfl, id⟩) fun _ => rfl
  | .none =>
    refine .inr ⟨_, ?_, hnone⟩
    exact tapLands_of_removing hr (fun _ => ⟨rfl, rfl, rfl, rfl, rfl, id⟩) fun _ => rfl

theorem switchingSound_landTap {t : TapRec} (probe : Bool) (result : WindowResult) {s : State}
    (ht : findTap t.address s.taps = some t) (hs : switchingSound s) : switchingSound (landTap t probe result s) := by
  have htaps := (findTap_some ht).1
  have landed {f : TapRec → TapRec} (hf : tapLands t f) :
      switchingSound { s with taps := modifyTap t.address f s.taps } :=
    switchingSound_modifyTap (switchAgrees_landed hs htaps hf) hs
  by_cases hr : t.state = .removing
  · obtain h | ⟨f, hf, h⟩ := landTap_removing_cases hr probe result s <;> rw [h]
    · exact hs
    · exact landed hf
  · refine (landTap_keeps (p := fun u => switchingSound u ∧ liveTap t.address u.taps) (fun f hf _ => ⟨landed hf, ?_⟩)
      (fun u h => ⟨switchingSound_of_nodes (changes_reevaluate _ _) h.1, ?_⟩)
      (fun ports u h => ⟨switchingSound_reconcile _ ports h.2 h.1,
        liveTap_of_sameUnits (sameUnits_reconcile _ ports u).1 h.2⟩)
      (fun u h => ⟨switchingSound_probeAnswer _ _ h.1, liveTap_of_sameUnits (sameUnits_probeAnswer _ _ u).1 h.2⟩)
      ⟨hs, t, htaps, rfl, hr⟩).1
    · exact liveTap_of_agrees (switchAgrees_modifyTap (switchAgrees_landed hs htaps hf)) ⟨t, htaps, rfl, hr⟩
    · rw [(changes_reevaluate t.node u).same .taps]
      exact h.2

theorem switchingSound_landReply (a : Nat) (probe : Bool) (result : WindowResult) {s : State} (hs : switchingSound s) :
    switchingSound (landReply a probe result s) :=
  landReply_keeps (p := switchingSound) (fun _ ht => switchingSound_landTap _ _ ht)
    (fun _ _ => landTransponder_keeps (p := switchingSound) (fun _ _ h => switchingSound_of_same rfl rfl h)
      (fun _ _ h => switchingSound_of_nodes (changes_takeReading _ _ _) h) fun _ => switchingSound_probeAnswer _ _) hs

/-- The taps in REMOVING leave. -/
theorem switchingSound_passTurn {s : State} (hs : switchingSound s) : switchingSound (passTurn s) := by
  obtain ⟨rising, nodup, live, records⟩ := hs
  refine ⟨rising.sublist (List.filter_sublist.map _), nodup, fun a ha => ?_,
    fun t ht => records t (List.mem_of_mem_filter ht)⟩
  obtain ⟨t, ht, rfl, hlive⟩ := live a ha
  exact ⟨t, List.mem_filter.2 ⟨ht, bne_iff_ne.2 hlive⟩, rfl, hlive⟩

theorem switchingSound_passEnd {s : State} (hs : switchingSound s) : switchingSound (passEnd s) :=
  passEnd_keeps (p := switchingSound) switchingSound_passTurn
    (fun _ _ _ h => switchingSound_of_same ((changes_loseTransponder _ _).same .taps)
      ((changes_loseTransponder _ _).same .commandQueue) h) hs

theorem sendStep_sound {r : SwitchRec} (h : switchRecSound r) : switchRecSound (sendStep r) := by
  refine ⟨?_, h.2.1, rfl⟩
  have := h.1
  change nextSerial r.serial ≤ 255
  unfold nextSerial
  split <;> omega

theorem switchingSound_slotOpen {s : State} (hs : switchingSound s) : switchingSound (slotOpenStep s) :=
  slotOpenStep_keeps (p := switchingSound) (fun _ _ h => switchingSound_of_same rfl rfl h)
    (fun _ _ h => switchingSound_of_same rfl rfl h)
    (fun _ h => pollOffer_keeps (p := switchingSound) (fun _ _ h => switchingSound_of_same rfl rfl h)
      (fun _ => switchingSound_passEnd) h)
    (fun _ _ _ h => switchingSound_modifySwitch (fun _ => sendStep_sound) h) hs

theorem switchingSound_replyWindow {energy : Bool} {message : Option (List Byte)} {s : State} (hs : switchingSound s) :
    switchingSound (replyWindowCloseStep energy message s) :=
  replyWindowCloseStep_keeps (p := switchingSound) (fun _ _ h => switchingSound_of_same rfl rfl h)
    (fun _ _ h => switchingSound_of_same rfl rfl h)
    (fun _ _ _ h => switchingSound_of_same (s := landReply _ _ _ _) rfl rfl (switchingSound_landReply _ _ _ h))
    (fun _ _ _ => switchingSound_judgeDelivery _ _) hs

theorem switchingSound_tapAdd {address node model : Nat} {s : State} (hs : switchingSound s) :
    switchingSound (tapAddStep address node model s).1 := by
  rw [tapAddStep_eq]
  split
  · exact hs
  split
  · exact hs
  rename_i hfree
  split
  · exact hs
  obtain ⟨rising, nodup, live, records⟩ := hs
  have mem (t : TapRec) : t ∈ insertTap (newTap address node (modelNamed model)) s.taps ↔
      t = newTap address node (modelNamed model) ∨ t ∈ s.taps := insertTap_eq _ _ ▸ mem_insertKeyed
  refine ⟨?_, nodup, fun a ha => ?_, fun t ht => ?_⟩
  · change Machine.rising ((insertTap _ s.taps).map (·.address))
    rw [insertTap_eq]
    exact rising_insertKeyed rising fun t ht ha => hfree (.inl ⟨t, ht, ha⟩)
  · obtain ⟨t, ht, rfl, hlive⟩ := live a ha
    exact ⟨t, (mem t).2 (.inr ht), rfl, hlive⟩
  · obtain rfl | ht := (mem t).1 ht
    · exact ⟨Nat.zero_le _, Nat.zero_le _, rfl⟩
    · exact records t ht

/-- What TAP_REMOVE leaves: the state, or the tap found in REMOVING, its node re-evaluated, and withdrawn. -/
theorem tapRemoveStep_cases (address : Nat) (s : State) :
    (tapRemoveStep address s).1 = s ∨
      ∃ t next, findTap t.address s.taps = some t ∧ t.state ≠ .removing ∧
        (tapRemoveStep address s).1 = withdraw t (reevaluate t.node { s with
          sched := { s.sched with next := next },
          taps := modifyTap t.address (fun r => { r with state := .removing }) s.taps }) := by
  by_cases h : 1 ≤ address ∧ address ≤ 16777214
  swap
  · rw [tapRemoveStep_outOfRange h]
    exact .inl rfl
  rw [tapRemoveStep_inRange h]
  split
  · exact .inl rfl
  rename_i t ht
  obtain ⟨-, rfl⟩ := findTap_some ht
  split
  · exact .inl rfl
  rename_i hfree
  rw [removal_blocked_iff, not_or] at hfree
  refine .inr ⟨t, s.sched.next.filter fun e => !(e.kind = .tap && e.address = t.address), ht, hfree.1, ?_⟩
  rw [setTapState_of_ne hfree.1]
  rfl

theorem switchingSound_tapRemove {address : Nat} {s : State} (hs : switchingSound s) :
    switchingSound (tapRemoveStep address s).1 := by
  obtain h | ⟨t, next, ht, -, h⟩ := tapRemoveStep_cases address s <;> rw [h]
  · exact hs
  have quiet := changes_reevaluate t.node { s with
    sched := { s.sched with next := next },
    taps := modifyTap t.address (fun r => { r with state := .removing }) s.taps }
  generalize reevaluate t.node _ = v at quiet ⊢
  have taps : v.taps = modifyTap t.address (fun r => { r with state := .removing }) s.taps := quiet.same .taps
  have queue : v.commandQueue = s.commandQueue := quiet.same .commandQueue
  rw [withdraw_eq]
  refine switchingSound_of_same (s := { v with
    commandQueue := v.commandQueue.filter fun x => x ≠ t.address,
    taps := modifyTap t.address (fun r => { r with switching := { r.switching with attempts := 0, fault := false } }) v.taps })
    rfl rfl ?_
  rw [taps, queue, modifyTap_modifyTap _ _ _ (by exact fun _ => rfl)]
  obtain ⟨rising, nodup, live, records⟩ := hs
  refine ⟨?_, nodup.filter _, fun a ha => ?_, fun q hq => ?_⟩
  · change Machine.rising ((modifyTap t.address _ s.taps).map (·.address))
    rw [modifyTap_addresses _ _ (by exact fun _ => rfl)]
    exact rising
  · obtain ⟨ha, hne⟩ := List.mem_filter.1 ha
    obtain ⟨r, hr, rfl, hlive⟩ := live a ha
    refine ⟨r, List.mem_map.2 ⟨r, hr, if_neg ?_⟩, rfl, hlive⟩
    simpa using hne
  · obtain ⟨r, hr, rfl⟩ := List.mem_map.1 hq
    split
    · exact attemptsCleared_sound (records r hr)
    · exact records r hr

theorem switchingSound_bindPort {a p : Nat} {b : Option Nat} {accounts : List Account} {s : State}
    (hs : switchingSound s) : switchingSound (bindPort a p b { s with accounts := accounts }) :=
  switchingSound_modifyTap (s := { s with accounts := accounts }) (fun _ _ _ => ⟨rfl, Iff.rfl, id⟩) hs

theorem switchingSound_switchover {s : State} (hs : switchingSound s) : switchingSound (switchoverTakeStep s) := by
  unfold switchoverTakeStep
  split
  · exact hs
  · dsimp only
    split
    · refine takeSwitchover_keeps (p := switchingSound)
        (fun _ _ hc => switchingSound_of_same (hc.same .taps) (hc.same .commandQueue)) (fun named u hu => ?_) hs
      refine foldl_keeps (p := switchingSound) (fun t _ v hv => ?_) hu
      unfold switchoverTap
      split
      · exact hv
      · split_ifs
        · exact hv
        · exact switchingSound_evaluateStale _ hv
        · exact switchingSound_recompute _ hv
        · exact hv
    · exact hs

/-! ### The commands -/

theorem switchingSound_retained (kind : ResetKind) (s : State) (hs : switchingSound s) :
    switchingSound (retainedReset kind s) := by
  have left : rising ((s.taps.filter (·.state != .removing)).map (·.address)) :=
    hs.1.sublist (List.filter_sublist.map _)
  have taps := retainedReset_taps kind s
  have addresses : (retainedReset kind s).taps.map (·.address) =
      (s.taps.filter (·.state != .removing)).map (·.address) := by
    rw [taps, List.map_map]
    rfl
  have queue : (retainedReset kind s).commandQueue = boundTaps ((s.taps.filter (·.state != .removing)).map retainedTap) := rfl
  refine ⟨addresses.symm ▸ left, ?_, fun a ha => ?_, fun t ht => ?_⟩
  · rw [queue, boundTaps]
    refine (List.Nodup.sublist (List.filter_sublist.map _) ?_)
    rw [List.map_map]
    exact left.nodup
  · rw [queue] at ha
    obtain ⟨q, hq, rfl⟩ := List.mem_map.1 ha
    obtain ⟨r, hr, rfl⟩ := List.mem_map.1 (List.mem_of_mem_filter hq)
    rw [taps]
    exact ⟨_, List.mem_map_of_mem hr, rfl, nofun⟩
  · rw [taps] at ht
    obtain ⟨r, -, rfl⟩ := List.mem_map.1 ht
    exact ⟨Nat.zero_le _, Nat.zero_le _, rfl⟩

theorem switchingSound_keptByMoney : KeptByMoney switchingSound where
  account _ _ _ _ h := switchingSound_of_same rfl rfl h
  write _ _ _ h := switchingSound_of_same ((changes_plainWrite _ _ _).same .taps) ((changes_plainWrite _ _ _).same .commandQueue) h
  judge _ h := switchingSound_of_same rfl rfl h

theorem switchingSound_keptByEvents : KeptByEvents switchingSound where
  balance _ _ _ _ := switchingSound_keptByMoney.balanceUpdate
  drop _ _ _ h := switchingSound_of_same rfl rfl h
  tap a _ h := switchingSound_recompute a h
  convert _ _ _ h := switchingSound_of_same ((changes_convertReservation _ _ _).same .taps)
    ((changes_convertReservation _ _ _).same .commandQueue) h
  release _ h := switchingSound_of_same ((changes_releaseReservation _).same .taps)
    ((changes_releaseReservation _).same .commandQueue) h
  table _ _ hc h := switchingSound_of_same (hc.same .taps) (hc.same .commandQueue) h

theorem switchingSound_keptByPurchases : KeptByPurchases switchingSound := by
  intro a e origin counter u _ _ _ _ h
  have charged : switchingSound (balanceUpdate a.number e.price 2 u) := switchingSound_keptByMoney.balanceUpdate h
  unfold acceptPurchase
  dsimp only
  generalize balanceUpdate a.number e.price 2 u = v at charged ⊢
  have written := switchingSound_keptByMoney.write u.clock.time (.purchase a.number e.id e.price origin) v charged
  generalize plainWrite u.clock.time (.purchase a.number e.id e.price origin) v = w at written ⊢
  have taken : switchingSound (takeReservation w) := switchingSound_of_same ((changes_takeReservation w).same .taps)
    ((changes_takeReservation w).same .commandQueue) written
  generalize takeReservation w = x at taken ⊢
  exact switchingSound_recompute _ (switchingSound_of_same (s := x) rfl rfl taken)

theorem switchingSound_accountOpen {k a port : Nat} {tiers : TierSet} {state : Nat} {s : State} (hs : switchingSound s) :
    switchingSound (accountOpenStep k a port tiers state s).1 := by
  obtain h | ⟨t, account, -, -, -, -, -, -, h⟩ := accountOpenStep_cases k a port tiers state s <;> rw [h]
  · exact hs
  · exact switchingSound_recompute _ (switchingSound_bindPort hs)

theorem switchingSound_accountClose {k : Nat} {s : State} (hs : switchingSound s) :
    switchingSound (accountCloseStep k s).1 := by
  obtain h | ⟨account, -, -, freed, rfl, h⟩ := accountCloseStep_cases k s <;> rw [h]
  · exact hs
  have freed : switchingSound (recompute account.address (bindPort account.address account.port none
      { s with accounts := s.accounts.filter (·.number != account.number) })) :=
    switchingSound_recompute _ (switchingSound_bindPort hs)
  split
  · exact switchingSound_keptByMoney.judge _ freed
  · exact freed

theorem switchingSound_accountTiers {k : Nat} {tiers : TierSet} {s : State} (hs : switchingSound s) :
    switchingSound (accountTiersStep k tiers s).1 :=
  withAccount_keeps (p := switchingSound) (own := fun u a =>
    (recompute a.address (changeAccount k (fun r => { r with tiers := tiers }) u), replyOk (tierSet2 tiers)))
    (fun u _ hu => switchingSound_recompute _
      (switchingSound_of_same (s := u) (t := changeAccount k (fun r => { r with tiers := tiers }) u) rfl rfl hu)) hs

theorem switchingSound_accountMove {takenIn : List AccountState} {target : AccountState} {k : Nat} {s : State}
    (hs : switchingSound s) : switchingSound (accountMove takenIn target k s).1 := by
  refine withAccount_keeps (p := switchingSound) (own := fun u a =>
    if takenIn.contains a.state then
      (recompute a.address (changeAccount k (fun r => { r with state := target }) u),
        replyOk (byte1 (accountStateCode target)))
    else (u, refusal .wrongState)) (fun u a hu => ?_) hs
  split
  · exact switchingSound_recompute _
      (switchingSound_of_same (s := u) (t := changeAccount k (fun r => { r with state := target }) u) rfl rfl hu)
  · exact hu

theorem commandStep_switchingSound (c : Instr) {s : State} (h : switchingSound s) : switchingSound (commandStep c s) := by
  have request {owner : State → State × Reply} (ho : ∀ u, switchingSound u → switchingSound (owner u).1) :
      switchingSound (serve c owner s) := serve_keeps (p := switchingSound) (fun _ _ h => switchingSound_of_same rfl rfl h) h ho
  have cold : switchingSound (coldReset s) := switchingSound_of_empty rfl rfl
  have stop (u : State) (hu : switchingSound u) : switchingSound (stopClock u) :=
    switchingSound_of_same ((changes_stopClock u).same .taps) ((changes_stopClock u).same .commandQueue) hu
  cases c
  case tapAdd => exact request fun _ => switchingSound_tapAdd
  case tapRemove => exact request fun _ => switchingSound_tapRemove
  case accountOpen => exact request fun _ => switchingSound_accountOpen
  case accountTiers => exact request fun _ => switchingSound_accountTiers
  case accountHold => exact request fun _ => switchingSound_accountMove
  case accountResume => exact request fun _ => switchingSound_accountMove
  case accountCut => exact request fun _ => switchingSound_accountMove
  case accountRestore => exact request fun _ => switchingSound_accountMove
  case accountClose => exact request fun _ => switchingSound_accountClose
  case eventCancel => exact request fun _ => switchingSound_keptByEvents.eventCancel
  case purchaseEnter => exact request fun _ => purchaseEnter_keeps switchingSound_keptByPurchases
  case firstPower => exact cold
  case mainPowerReturn => exact mainPowerReturn_keeps cold switchingSound_retained h
  case resetPin => exact resetPin_keeps stop switchingSound_retained h
  case outboundFrameDone =>
    exact whenRunning_keeps h (outboundFrameDone_keeps (switchingSound_of_same ((changes_chooseFrame s).same .taps)
      ((changes_chooseFrame s).same .commandQueue)) stop switchingSound_retained)
  case restartEventStep => exact whenRunning_keeps h switchingSound_keptByEvents.events.restartEvent
  case eventMinuteEnd => exact whenRunning_keeps h switchingSound_keptByEvents.events.eventMinuteEnd
  case switchoverTake => exact whenRunning_keeps h switchingSound_switchover
  case slotOpen => exact whenRunning_keeps h switchingSound_slotOpen
  case replyWindowClose => exact whenRunning_keeps h switchingSound_replyWindow
  case purchaseDecide =>
    exact whenRunning_keeps h (purchaseDecide_keeps
      (fun _ _ hc => switchingSound_of_same (hc.same .taps) (hc.same .commandQueue)) switchingSound_keptByPurchases)
  all_goals exact switchingSound_of_same ((commandStep_changes _ s).same .taps) ((commandStep_changes _ s).same .commandQueue) h

end Sys2Proof.Machine
end

section
/-! SUPPORT. The owners' conditions, one for each fixed source, and the operations under which the Alarm Controller's copies
go on agreeing with them. -/

namespace Sys2Proof.Machine

/-! ### The owners' conditions -/

/-- The conditions of which the Alarm Controller holds a copy. -/
inductive Copy
  | outage (n : Nat)
  | degraded (n : Nat)
  | power (n : Nat)
  | levelStep (n : Nat)
  | fault (n : Nat)
  | lost (i : Nat)
  | high
  | overflow

/-- The source that holds the copy. -/
def Copy.source : Copy → Nat
  | .outage n => nodeOutageSource n
  | .degraded n => nodeDegradedSource n
  | .power n => nodePowerSource n
  | .levelStep n => nodeLevelStepSource n
  | .fault n => switchFaultSource n
  | .lost i => sourceLostSource i
  | .high => journalHighSource
  | .overflow => balanceOverflowSource

/-- The condition is one of a node 1..32, of an input 1..64 or of the part. -/
def Copy.onRecord : Copy → Prop
  | .outage n => 1 ≤ n ∧ n ≤ 32
  | .degraded n => 1 ≤ n ∧ n ≤ 32
  | .power n => 1 ≤ n ∧ n ≤ 32
  | .levelStep n => 1 ≤ n ∧ n ≤ 32
  | .fault n => 1 ≤ n ∧ n ≤ 32
  | .lost i => 1 ≤ i ∧ i ≤ 64
  | .high => True
  | .overflow => True

/-- The condition as its owner has it. -/
def Copy.owner (s : State) : Copy → Bool
  | .outage n => nodeOutage (nodeOf s n)
  | .degraded n => nodeDegraded (nodeOf s n)
  | .power n => (nodeOf s n).power
  | .levelStep n => (nodeOf s n).levelStep
  | .fault n => switchFault s n
  | .lost i => (inputOf s i).lost
  | .high => s.journal.high
  | .overflow => s.meter.balanceOverflow

/-- Where the sources of a condition's kind begin, and its place among them. -/
def Copy.place : Copy → Nat × Nat
  | .outage n => (0, n)
  | .degraded n => (1, n)
  | .power n => (2, n)
  | .levelStep n => (3, n)
  | .fault n => (4, n)
  | .lost i => (5, i)
  | .high => (7, 1)
  | .overflow => (7, 2)

theorem Copy.source_eq {x : Copy} (h : x.onRecord) :
    x.source + 1 = 32 * x.place.1 + x.place.2 ∧ 1 ≤ x.place.2 ∧ x.place.2 ≤ if x.place.1 = 5 then 64 else 32 := by
  cases x <;> simp only [source, onRecord, place, nodeOutageSource, nodeDegradedSource, nodePowerSource,
    nodeLevelStepSource, switchFaultSource, sourceLostSource, journalHighSource, balanceOverflowSource] at h ⊢ <;> simp <;>
    omega

theorem Copy.source_lt {x : Copy} (h : x.onRecord) : x.source < 226 := by
  cases x <;> simp only [source, onRecord, nodeOutageSource, nodeDegradedSource, nodePowerSource, nodeLevelStepSource,
    switchFaultSource, sourceLostSource, journalHighSource, balanceOverflowSource] at h ⊢ <;> omega

/-- The condition of a kind at a place. -/
def Copy.ofPlace : Nat × Nat → Copy
  | (0, n) => .outage n
  | (1, n) => .degraded n
  | (2, n) => .power n
  | (3, n) => .levelStep n
  | (4, n) => .fault n
  | (5, i) => .lost i
  | (_, 1) => .high
  | (_, _) => .overflow

theorem Copy.ofPlace_place (x : Copy) : ofPlace x.place = x := by
  cases x <;> rfl

theorem Copy.place_injective {x y : Copy} (h : x.place = y.place) : x = y := by
  rw [← ofPlace_place x, h, ofPlace_place]

theorem Copy.kind_ne {x : Copy} : x.place.1 ≤ 7 ∧ x.place.1 ≠ 6 ∧ (x.place.1 = 7 → x.place.2 ≤ 2) := by
  cases x <;> simp [place]

/-- No two conditions share a source. -/
theorem Copy.source_injective {x y : Copy} (hx : x.onRecord) (hy : y.onRecord) (h : x.source = y.source) : x = y := by
  obtain ⟨hxs, hxlow, hxhigh⟩ := source_eq hx
  obtain ⟨hys, hylow, hyhigh⟩ := source_eq hy
  obtain ⟨hxkind, hxsix, -⟩ := x.kind_ne
  obtain ⟨hykind, hysix, -⟩ := y.kind_ne
  refine place_injective (Prod.ext ?_ ?_) <;> split at hxhigh <;> split at hyhigh <;> omega

/-! ### Agreement -/

/-- Every copy but those in `out` agrees with its owner. -/
def agreesBut (out : Copy → Prop) (s : State) : Prop :=
  ∀ x : Copy, x.onRecord → ¬out x → (alarmOf s.alarms x.source).condition = x.owner s

/-- Every copy agrees with its owner. -/
abbrev agrees (s : State) : Prop := agreesBut (fun _ => False) s

theorem agreesBut.widen {out wider : Copy → Prop} {s : State} (h : agreesBut out s) (hw : ∀ x, out x → wider x) :
    agreesBut wider s := fun x hx hout => h x hx fun ho => hout (hw x ho)

/-- Owners' conditions that stand, with the alarms standing. -/
theorem agreesBut.of_owners {out : Copy → Prop} {s t : State} (h : agreesBut out s) (halarms : t.alarms = s.alarms)
    (howner : ∀ x : Copy, x.onRecord → ¬out x → x.owner t = x.owner s) : agreesBut out t := fun x hx hout => by
  rw [halarms, howner x hx hout]
  exact h x hx hout

theorem owner_giveCondition (x : Copy) (i : Nat) (b : Bool) (s : State) : x.owner (giveCondition i b s) = x.owner s := by
  cases x <;> rfl

/-- A condition given as its owner has it agrees, and the others go on as they did. -/
theorem agreesBut.give {out : Copy → Prop} {s : State} (h : agreesBut out s) (x : Copy) (hx : x.onRecord) {b : Bool}
    (hb : b = x.owner s) : agreesBut (fun y => out y ∧ y ≠ x) (giveCondition x.source b s) := fun y hy hout => by
  rw [owner_giveCondition, giveCondition, condition_alarmsGive _ _ _ _ _ (Copy.source_lt hy)]
  split
  · rename_i hxy
    obtain rfl := Copy.source_injective hx hy hxy
    exact hb
  · rename_i hxy
    refine h y hy fun ho => hout ⟨ho, ?_⟩
    rintro rfl
    exact hxy rfl

/-- Given the one condition that did not agree, all do. -/
theorem agreesBut.give_last {s : State} {x : Copy} (h : agreesBut (· = x) s) (hx : x.onRecord) {b : Bool}
    (hb : b = x.owner s) : agrees (giveCondition x.source b s) :=
  (h.give x hx hb).widen fun _ hy => hy.2 hy.1

/-! ### The nodes' operations -/

theorem owner_of_nodes {s t : State} (hnodes : ∀ n, 1 ≤ n ∧ n ≤ 32 → nodeOutage (nodeOf t n) = nodeOutage (nodeOf s n) ∧
      nodeDegraded (nodeOf t n) = nodeDegraded (nodeOf s n) ∧ (nodeOf t n).power = (nodeOf s n).power ∧
      (nodeOf t n).levelStep = (nodeOf s n).levelStep)
    (hrest : { t with nodes := s.nodes } = s) (x : Copy) (hx : x.onRecord) : x.owner t = x.owner s := by
  have rest (y : Copy) (hy : y.owner { t with nodes := s.nodes } = y.owner t) : y.owner t = y.owner s := by
    rw [← hy, hrest]
  cases x with
  | outage n => exact (hnodes n hx).1
  | degraded n => exact (hnodes n hx).2.1
  | power n => exact (hnodes n hx).2.2.1
  | levelStep n => exact (hnodes n hx).2.2.2
  | fault n => exact rest _ rfl
  | lost i => exact rest _ rfl
  | high => exact rest _ rfl
  | overflow => exact rest _ rfl

/-- A change of a node's record leaves the conditions that it keeps and those of other nodes. -/
theorem owner_modifyNode {n : Nat} (hn : 1 ≤ n ∧ n ≤ 32) {f : NodeRec → NodeRec} {s : State} {x : Copy} (hx : x.onRecord)
    (houtage : x = .outage n → nodeOutage (f (nodeOf s n)) = nodeOutage (nodeOf s n))
    (hdegraded : x = .degraded n → nodeDegraded (f (nodeOf s n)) = nodeDegraded (nodeOf s n))
    (hpower : x = .power n → (f (nodeOf s n)).power = (nodeOf s n).power)
    (hstep : x = .levelStep n → (f (nodeOf s n)).levelStep = (nodeOf s n).levelStep) :
    x.owner (modifyNode n f s) = x.owner s := by
  have node (m : Nat) (hm : 1 ≤ m ∧ m ≤ 32) : nodeOf (modifyNode n f s) m = if n = m then f (nodeOf s m) else nodeOf s m :=
    nodeOf_modifyNode n m f s hn.1 hm.1 hm.2
  cases x with
  | outage m =>
    rw [Copy.owner, Copy.owner, node m hx]
    split
    · rename_i h
      subst h
      exact houtage rfl
    · rfl
  | degraded m =>
    rw [Copy.owner, Copy.owner, node m hx]
    split
    · rename_i h
      subst h
      exact hdegraded rfl
    · rfl
  | power m =>
    rw [Copy.owner, Copy.owner, node m hx]
    split
    · rename_i h
      subst h
      exact hpower rfl
    · rfl
  | levelStep m =>
    rw [Copy.owner, Copy.owner, node m hx]
    split
    · rename_i h
      subst h
      exact hstep rfl
    · rfl
  | fault m => rfl
  | lost i => rfl
  | high => rfl
  | overflow => rfl

/-- A change of a node's record that keeps its conditions. -/
theorem agreesBut.modifyNode {out : Copy → Prop} {s : State} (h : agreesBut out s) {n : Nat} (hn : 1 ≤ n ∧ n ≤ 32)
    {f : NodeRec → NodeRec} (hf : ∀ r, (f r).state = r.state ∧ (f r).power = r.power ∧ (f r).levelStep = r.levelStep) :
    agreesBut out (modifyNode n f s) :=
  h.of_owners rfl fun x hx _ => owner_modifyNode hn hx
    (fun _ => by unfold nodeOutage; rw [(hf _).1]) (fun _ => by unfold nodeDegraded; rw [(hf _).1])
    (fun _ => (hf _).2.1) fun _ => (hf _).2.2

theorem agrees_setNodeState {n : Nat} (hn : 1 ≤ n ∧ n ≤ 32) (state : NodeState) (timer : Option Nat) {s : State}
    (h : agrees s) : agrees (setNodeState n state timer s) := by
  have moved : agreesBut (fun x => x = .outage n ∨ x = .degraded n)
      (modifyNode n (fun r => { r with state := state, restoreTimer := timer }) s) := by
    refine (h.widen fun _ => False.elim).of_owners rfl fun x hx hout => owner_modifyNode hn hx
      (fun hxn => absurd (.inl hxn) hout) (fun hxn => absurd (.inr hxn) hout) (fun _ => rfl) fun _ => rfl
  unfold setNodeState
  generalize Machine.modifyNode n _ s = u at moved ⊢
  unfold giveNodeConditions
  dsimp only
  split
  · rename_i houtage
    have degraded : false = Copy.owner u (.degraded n) := by
      rw [Copy.owner, nodeDegraded]
      unfold nodeOutage at houtage
      cases hstate : (nodeOf u n).state <;> simp_all
    refine agreesBut.give_last (x := .outage n) ?_ hn ?_
    · refine (moved.give (.degraded n) hn degraded).widen ?_
      rintro x ⟨rfl | rfl, hne⟩
      · rfl
      · exact absurd rfl hne
    · rw [owner_giveCondition]
      exact houtage.symm
  · rename_i houtage
    refine agreesBut.give_last (x := .degraded n) ?_ hn ?_
    · refine (moved.give (.outage n) hn (Bool.eq_false_iff.2 houtage).symm).widen ?_
      rintro x ⟨rfl | rfl, hne⟩
      · exact absurd rfl hne
      · rfl
    · rw [owner_giveCondition]
      rfl

theorem agrees_judgePower {n : Nat} (hn : 1 ≤ n ∧ n ≤ 32) {s : State} (h : agrees s) : agrees (judgePower n s) := by
  have moved : agreesBut (· = .power n) (modifyNode n (fun r => { r with power := judgedPower r }) s) :=
    (h.widen fun _ => False.elim).of_owners rfl fun x hx hout => owner_modifyNode hn hx (fun _ => rfl) (fun _ => rfl)
      (fun hxn => absurd hxn hout) fun _ => rfl
  refine moved.give_last hn ?_
  rw [Copy.owner, nodeOf_modifyNode_same hn]

theorem agrees_judgeLevelStep {n : Nat} (hn : 1 ≤ n ∧ n ≤ 32) {s : State} (h : agrees s) : agrees (judgeLevelStep n s) := by
  have moved : agreesBut (· = .levelStep n) (modifyNode n (fun r => { r with levelStep := judgedStep r }) s) :=
    (h.widen fun _ => False.elim).of_owners rfl fun x hx hout => owner_modifyNode hn hx (fun _ => rfl) (fun _ => rfl)
      (fun _ => rfl) fun hxn => absurd hxn hout
  refine moved.give_last hn ?_
  rw [Copy.owner, nodeOf_modifyNode_same hn]

theorem agrees_takeReading {n : Nat} (hn : 1 ≤ n ∧ n ≤ 32) (reading : Reading) {s : State} (h : agrees s) :
    agrees (takeReading n reading s) :=
  agrees_judgeLevelStep hn (agrees_judgePower hn (h.modifyNode hn fun _ => ⟨rfl, rfl, rfl⟩))

theorem agrees_loseTransponder {n : Nat} (hn : 1 ≤ n ∧ n ≤ 32) {s : State} (h : agrees s) :
    agrees (loseTransponder n s) := by
  have moved : agreesBut (fun x => x = .power n ∨ x = .levelStep n) (modifyNode n
      (fun r => { r with current := none, previous := none, power := false, levelStep := false }) s) :=
    (h.widen fun _ => False.elim).of_owners rfl fun x hx hout => owner_modifyNode hn hx (fun _ => rfl) (fun _ => rfl)
      (fun hxn => absurd (.inl hxn) hout) fun hxn => absurd (.inr hxn) hout
  refine agreesBut.give_last (x := .levelStep n) ?_ hn ?_
  · refine (moved.give (.power n) hn ?_).widen ?_
    · rw [Copy.owner, nodeOf_modifyNode_same hn]
    · rintro x ⟨rfl | rfl, hne⟩
      · exact absurd rfl hne
      · rfl
  · rw [owner_giveCondition, Copy.owner, nodeOf_modifyNode_same hn]

theorem agrees_reevaluate {n : Nat} (hn : 1 ≤ n ∧ n ≤ 32) {s : State} (h : agrees s) : agrees (reevaluate n s) :=
  reevaluate_keeps (p := agrees) (fun _ _ _ h => agrees_setNodeState hn _ _ h) h

/-! ### The journal's and the Meter's operations -/

theorem agrees_putJournal (j : Journal) {s : State} (h : agrees s) : agrees (putJournal j s) := by
  have moved : agreesBut (· = .high) { s with journal := { j with high := journalHigh j } } := by
    refine (h.widen fun _ => False.elim).of_owners rfl fun x _ hout => ?_
    cases x
    case high => exact absurd rfl hout
    all_goals rfl
  exact moved.give_last (b := journalHigh j) trivial rfl

theorem agrees_plainWrite (time : Nat) (body : RecordBody) {s : State} (h : agrees s) : agrees (plainWrite time body s) := by
  obtain ⟨-, h'⟩ | ⟨-, h'⟩ := plainWrite_cases time body s <;> rw [h']
  · exact agrees_putJournal _ h
  · exact h

theorem agrees_takeReservation {s : State} (h : agrees s) : agrees (takeReservation s) := by
  obtain ⟨-, h'⟩ | ⟨-, h'⟩ := takeReservation_cases s <;> rw [h']
  · exact agrees_putJournal _ h
  · exact h

theorem agrees_releaseReservation {s : State} (h : agrees s) : agrees (releaseReservation s) := by
  obtain ⟨-, h'⟩ | ⟨-, h'⟩ := releaseReservation_cases s <;> rw [h']
  · exact agrees_putJournal _ h
  · exact h

theorem agrees_convertReservation (time : Nat) (body : RecordBody) {s : State} (h : agrees s) :
    agrees (convertReservation time body s) := by
  obtain ⟨-, h'⟩ | ⟨-, h'⟩ := convertReservation_cases time body s <;> rw [h']
  · exact agrees_putJournal _ h
  · exact h

theorem agrees_judgeOverflow {s : State} (h : agrees s) : agrees (judgeOverflow s) := by
  have moved : agreesBut (· = .overflow) { s with meter := { s.meter with balanceOverflow := anyOverflow s.accounts } } := by
    refine (h.widen fun _ => False.elim).of_owners rfl fun x _ hout => ?_
    cases x
    case overflow => exact absurd rfl hout
    all_goals rfl
  exact moved.give_last (b := anyOverflow s.accounts) trivial rfl

/-! ### The inputs' operations -/

/-- A change of an input's record that keeps what the source's condition reads. -/
theorem owner_modifyInput {i : Nat} (hi : 1 ≤ i ∧ i ≤ 64) {f : InputRec → InputRec} {s : State} {x : Copy} (hx : x.onRecord)
    (hlost : x = .lost i → (f (inputOf s i)).lost = (inputOf s i).lost) : x.owner (modifyInput i f s) = x.owner s := by
  cases x
  case lost j =>
    rw [Copy.owner, Copy.owner, inputOf_modifyInput i j f s hi.1 hx.1 hx.2]
    split
    · rename_i h
      subst h
      exact hlost rfl
    · rfl
  all_goals rfl

theorem agrees_judgeSourceLost {i : Nat} (hi : 1 ≤ i ∧ i ≤ 64) {s : State} (h : agrees s) : agrees (judgeSourceLost i s) := by
  unfold judgeSourceLost
  dsimp only
  generalize (decide ((inputOf s i).debounced = .lost) && s.lineup.sourcesInUse.contains i) = lost
  have moved : agreesBut (· = .lost i) (modifyInput i (fun r => { r with lost := lost }) s) :=
    (h.widen fun _ => False.elim).of_owners rfl fun x hx hout => owner_modifyInput hi hx fun hxi => absurd hxi hout
  refine moved.give_last hi ?_
  rw [Copy.owner, inputOf_modifyInput i i _ s hi.1 hi.1 hi.2, if_pos rfl]

/-- LOST of input `i` is as its rule says. -/
def lostBy (s : State) (i : Nat) : Prop :=
  (inputOf s i).lost = (decide ((inputOf s i).debounced = .lost) && s.lineup.sourcesInUse.contains i)

theorem lostBy_judgeSourceLost {i : Nat} (hi : 1 ≤ i ∧ i ≤ 64) (s : State) : lostBy (judgeSourceLost i s) i := by
  have input : inputOf (judgeSourceLost i s) i =
      { inputOf s i with lost := decide ((inputOf s i).debounced = .lost) && s.lineup.sourcesInUse.contains i } :=
    (inputOf_modifyInput i i _ s hi.1 hi.1 hi.2).trans (if_pos rfl)
  unfold lostBy
  rw [input]
  rfl

theorem lostBy_judgeSourceLost_other {i j : Nat} (hi : 1 ≤ i) (hj : 1 ≤ j ∧ j ≤ 64) (hne : i ≠ j) {s : State}
    (h : lostBy s j) : lostBy (judgeSourceLost i s) j := by
  have input : inputOf (judgeSourceLost i s) j = inputOf s j :=
    (inputOf_modifyInput i j _ s hi hj.1 hj.2).trans (if_neg hne)
  unfold lostBy
  rw [input]
  exact h

/-- Every input's LOST is as its rule says. -/
def lostSound (s : State) : Prop := ∀ i, 1 ≤ i ∧ i ≤ 64 → lostBy s i

theorem lostSound_of_inputs {s t : State} (hinputs : ∀ i, 1 ≤ i ∧ i ≤ 64 →
      (inputOf t i).lost = (inputOf s i).lost ∧ (inputOf t i).debounced = (inputOf s i).debounced)
    (huse : t.lineup.sourcesInUse = s.lineup.sourcesInUse) (h : lostSound s) : lostSound t := fun i hi => by
  obtain ⟨hlost, hdebounced⟩ := hinputs i hi
  unfold lostBy
  rw [hlost, hdebounced, huse]
  exact h i hi

theorem lostSound_of_same {s t : State} (hinputs : t.inputs = s.inputs)
    (huse : t.lineup.sourcesInUse = s.lineup.sourcesInUse) (h : lostSound s) : lostSound t := by
  refine lostSound_of_inputs (fun i _ => ?_) huse h
  rw [inputOf, hinputs]
  exact ⟨rfl, rfl⟩

theorem lostSound_judgeSourceLost {i : Nat} (hi : 1 ≤ i ∧ i ≤ 64) {s : State}
    (h : ∀ j, 1 ≤ j ∧ j ≤ 64 → j ≠ i → lostBy s j) : lostSound (judgeSourceLost i s) := fun j hj => by
  by_cases hij : j = i
  · subst hij
    exact lostBy_judgeSourceLost hi s
  · exact lostBy_judgeSourceLost_other hi.1 hj (fun h => hij h.symm) (h j hj hij)

/-- SOURCE_LOST judged of every input. -/
theorem lostSound_judgeAllSources (s : State) : lostSound (judgeAllSources s) := by
  have each (is : List Nat) (his : ∀ i ∈ is, 1 ≤ i ∧ i ≤ 64) (u : State) (done : Nat → Prop)
      (hdone : ∀ j, 1 ≤ j ∧ j ≤ 64 → done j → lostBy u j) :
      ∀ j, 1 ≤ j ∧ j ≤ 64 → done j ∨ j ∈ is → lostBy (is.foldl (fun u i => judgeSourceLost i u) u) j := by
    induction is generalizing u done with
    | nil => exact fun j hj h => hdone j hj (h.resolve_right List.not_mem_nil)
    | cons i is ih =>
      refine fun j hj h => ih (fun k hk => his k (.tail _ hk)) _ (fun k => done k ∨ k = i) (fun k hk hor => ?_) j hj ?_
      · by_cases hki : k = i
        · subst hki
          exact lostBy_judgeSourceLost hk u
        · exact lostBy_judgeSourceLost_other (his i (.head _)).1 hk (fun h => hki h.symm) (hdone k hk (hor.resolve_right hki))
      · obtain h | h := h
        · exact .inl (.inl h)
        · obtain rfl | h := List.mem_cons.1 h
          · exact .inl (.inr rfl)
          · exact .inr h
  exact fun j hj => each (upTo 64) (fun i hi => mem_upTo.1 hi) s (fun _ => False) (fun _ _ => False.elim) j hj
    (.inr (mem_upTo.2 hj))

theorem agrees_judgeAllSources {s : State} (h : agrees s) : agrees (judgeAllSources s) :=
  foldl_keeps (p := agrees) (fun _ hi _ => agrees_judgeSourceLost (mem_upTo.1 hi)) h

/-! ### The taps' operations -/

/-- A record of a tap as a change leaves it: node, fault flag and removal stand. -/
def faultAgrees (r q : TapRec) : Prop :=
  q.address = r.address ∧ q.node = r.node ∧ q.switching.fault = r.switching.fault ∧ (q.state = .removing ↔ r.state = .removing)

theorem faultAgrees_refl (r : TapRec) : faultAgrees r r := ⟨rfl, rfl, rfl, Iff.rfl⟩

theorem faultAgrees_trans {r q x : TapRec} (h : faultAgrees r q) (k : faultAgrees q x) : faultAgrees r x :=
  ⟨k.1.trans h.1, k.2.1.trans h.2.1, k.2.2.1.trans h.2.2.1, k.2.2.2.trans h.2.2.2⟩

theorem faultAgrees_modifyTap {taps : List TapRec} {a : Nat} {f : TapRec → TapRec}
    (hf : ∀ r ∈ taps, r.address = a → faultAgrees r (f r)) : List.Forall₂ faultAgrees taps (modifyTap a f taps) :=
  List.forall₂_map_right_iff.2 (List.forall₂_same.2 fun r hr => by
    split
    · exact hf r hr ‹_›
    · exact faultAgrees_refl r)

theorem any_fault_of_agrees {xs ys : List TapRec}
    (h : List.Forall₂ (fun r q => q.node = r.node ∧ q.switching.fault = r.switching.fault) xs ys) (n : Nat) :
    (ys.any fun t => t.node = n && t.switching.fault) = xs.any fun t => t.node = n && t.switching.fault := by
  induction h with
  | nil => rfl
  | cons hxy _ ih =>
    obtain ⟨hnode, hfault⟩ := hxy
    rw [List.any_cons, List.any_cons, ih, hnode, hfault]

/-- The taps agree and all else that the owners' conditions read stands. -/
theorem owner_of_taps {s t : State} (htaps : ∀ n, switchFault t n = switchFault s n) (hnodes : t.nodes = s.nodes)
    (hinputs : t.inputs = s.inputs) (hjournal : t.journal = s.journal) (hmeter : t.meter = s.meter) (x : Copy) :
    x.owner t = x.owner s := by
  cases x with
  | outage n => rw [Copy.owner, Copy.owner, nodeOf, nodeOf, hnodes]
  | degraded n => rw [Copy.owner, Copy.owner, nodeOf, nodeOf, hnodes]
  | power n => rw [Copy.owner, Copy.owner, nodeOf, nodeOf, hnodes]
  | levelStep n => rw [Copy.owner, Copy.owner, nodeOf, nodeOf, hnodes]
  | fault n => exact htaps n
  | lost i => rw [Copy.owner, Copy.owner, inputOf, inputOf, hinputs]
  | high => rw [Copy.owner, Copy.owner, hjournal]
  | overflow => rw [Copy.owner, Copy.owner, hmeter]

/-- No tap in REMOVING has its fault flag set (R102). -/
def removalsClear (s : State) : Prop := ∀ t ∈ s.taps, t.state = .removing → t.switching.fault = false

theorem removalsClear_of_agrees {s t : State} (h : List.Forall₂ faultAgrees s.taps t.taps) (hs : removalsClear s) :
    removalsClear t := fun q hq hr => by
  obtain ⟨r, hmem, -, -, hfault, hremoving⟩ := forall₂_exists h hq
  rw [hfault]
  exact hs r hmem (hremoving.1 hr)

end Sys2Proof.Machine
end

section
/-! SUPPORT. Every command keeps the copies of the conditions agreeing with their owners. -/

namespace Sys2Proof.Machine

/-- The taps, the owners' conditions and their copies agree. -/
structure Copied (s : State) : Prop where
  fits : tapsFit (fun n => 1 ≤ n ∧ n ≤ 32) s
  switching : switchingSound s
  clear : removalsClear s
  agrees : agrees s
  lost : lostSound s

/-! ### What leaves all that the agreement reads -/

theorem owner_of_same {s t : State} (htaps : t.taps = s.taps) (hnodes : t.nodes = s.nodes) (hinputs : t.inputs = s.inputs)
    (hjournal : t.journal.high = s.journal.high) (hmeter : t.meter.balanceOverflow = s.meter.balanceOverflow) (x : Copy) :
    x.owner t = x.owner s := by
  cases x with
  | outage n => rw [Copy.owner, Copy.owner, nodeOf, nodeOf, hnodes]
  | degraded n => rw [Copy.owner, Copy.owner, nodeOf, nodeOf, hnodes]
  | power n => rw [Copy.owner, Copy.owner, nodeOf, nodeOf, hnodes]
  | levelStep n => rw [Copy.owner, Copy.owner, nodeOf, nodeOf, hnodes]
  | fault n => rw [Copy.owner, Copy.owner, switchFault, switchFault, htaps]
  | lost i => rw [Copy.owner, Copy.owner, inputOf, inputOf, hinputs]
  | high => exact hjournal
  | overflow => exact hmeter

/-- The blocks that neither the owners' conditions nor their copies read. -/
abbrev unreadBlocks : List Block :=
  [.phase, .storeValid, .backupLow, .lastReset, .clock, .carrier, .transponders, .sched, .accounts, .sample, .events,
    .link, .minuteEnds, .purchases, .deliveries, .freeCount, .pending]

section
variable {s t : State}

/-- With the taps and the inputs standing it is the agreement of the copies that counts. -/
theorem Copied.of_agrees (h : Copied s) (htaps : t.taps = s.taps) (hqueue : t.commandQueue = s.commandQueue)
    (hinputs : t.inputs = s.inputs) (huse : t.lineup.sourcesInUse = s.lineup.sourcesInUse) (hagrees : Machine.agrees t) :
    Copied t where
  fits q hq := h.fits q (htaps ▸ hq)
  switching := switchingSound_of_same htaps hqueue h.switching
  clear q hq := h.clear q (htaps ▸ hq)
  agrees := hagrees
  lost := lostSound_of_same hinputs huse h.lost

theorem Copied.of_unread (h : Copied s) (hc : Changes unreadBlocks s t) : Copied t := by
  refine h.of_agrees (hc.same .taps) (hc.same .commandQueue) (hc.same .inputs) ?_ (h.agrees.of_owners (hc.same .alarms)
    fun x _ _ => owner_of_same (hc.same .taps) (hc.same .nodes) (hc.same .inputs) ?_ ?_ x)
  · rw [hc.same .lineup]
  · rw [hc.same .journal]
  · rw [hc.same .meter]

/-- A change of the lineup that leaves the sources in use. -/
theorem Copied.of_lineup (h : Copied s) (hc : Changes [.lineup] s t)
    (huse : t.lineup.sourcesInUse = s.lineup.sourcesInUse) : Copied t := by
  refine h.of_agrees (hc.same .taps) (hc.same .commandQueue) (hc.same .inputs) huse (h.agrees.of_owners (hc.same .alarms)
    fun x _ _ => owner_of_same (hc.same .taps) (hc.same .nodes) (hc.same .inputs) ?_ ?_ x)
  · rw [hc.same .journal]
  · rw [hc.same .meter]

/-- A change of the alarms that leaves the conditions of the fixed sources. -/
theorem Copied.of_alarms (h : Copied s) (hc : Changes [.alarms, .link] s t)
    (hcondition : ∀ i, i < 226 → (alarmOf t.alarms i).condition = (alarmOf s.alarms i).condition) : Copied t := by
  refine h.of_agrees (hc.same .taps) (hc.same .commandQueue) (hc.same .inputs) (by rw [hc.same .lineup]) fun x hx hout => ?_
  rw [hcondition _ (Copy.source_lt hx), owner_of_same (hc.same .taps) (hc.same .nodes) (hc.same .inputs) (by rw [hc.same .journal])
    (by rw [hc.same .meter]) x]
  exact h.agrees x hx hout

/-- A change of the taps and the queue that keeps the switching sound and leaves nodes, fault flags and removals. -/
theorem Copied.of_taps (h : Copied s) (hc : Changes (.accounts :: tapBlocks) s t)
    (htaps : List.Forall₂ faultAgrees s.taps t.taps) (hswitching : switchingSound t) : Copied t where
  fits q hq := by
    obtain ⟨r, hr, -, hnode, -⟩ := forall₂_exists htaps hq
    exact hnode ▸ h.fits r hr
  switching := hswitching
  clear := removalsClear_of_agrees htaps h.clear
  agrees := h.agrees.of_owners (hc.same .alarms) fun x _ _ =>
    owner_of_taps (any_fault_of_agrees (htaps.imp fun _ _ hrq => ⟨hrq.2.1, hrq.2.2.1⟩)) (hc.same .nodes) (hc.same .inputs) (hc.same .journal) (hc.same .meter) x
  lost := lostSound_of_same (hc.same .inputs) (by rw [hc.same .lineup]) h.lost

/-- A change of the nodes and the alarms. -/
theorem Copied.of_nodes (h : Copied s) (hc : Changes nodeBlocks s t) (hagrees : Machine.agrees t) : Copied t :=
  h.of_agrees (hc.same .taps) (hc.same .commandQueue) (hc.same .inputs) (by rw [hc.same .lineup]) hagrees

end

/-! ### Money -/

theorem copied_putJournal (j : Journal) {s : State} (h : Copied s) : Copied (putJournal j s) :=
  h.of_agrees rfl rfl rfl rfl (agrees_putJournal j h.agrees)

theorem copied_plainWrite (time : Nat) (body : RecordBody) {s : State} (h : Copied s) : Copied (plainWrite time body s) := by
  obtain ⟨-, h'⟩ | ⟨-, h'⟩ := plainWrite_cases time body s <;> rw [h']
  · exact copied_putJournal _ h
  · exact h

theorem copied_takeReservation {s : State} (h : Copied s) : Copied (takeReservation s) := by
  obtain ⟨-, h'⟩ | ⟨-, h'⟩ := takeReservation_cases s <;> rw [h']
  · exact copied_putJournal _ h
  · exact h

theorem copied_releaseReservation {s : State} (h : Copied s) : Copied (releaseReservation s) := by
  obtain ⟨-, h'⟩ | ⟨-, h'⟩ := releaseReservation_cases s <;> rw [h']
  · exact copied_putJournal _ h
  · exact h

theorem copied_convertReservation (time : Nat) (body : RecordBody) {s : State} (h : Copied s) :
    Copied (convertReservation time body s) := by
  obtain ⟨-, h'⟩ | ⟨-, h'⟩ := convertReservation_cases time body s <;> rw [h']
  · exact copied_putJournal _ h
  · exact h

theorem copied_judgeOverflow {s : State} (h : Copied s) : Copied (judgeOverflow s) :=
  h.of_agrees rfl rfl rfl rfl (agrees_judgeOverflow h.agrees)

theorem copied_changeAccount (k : Nat) (f : Account → Account) {s : State} (h : Copied s) :
    Copied (changeAccount k f s) := h.of_unread (changes_changeAccount k f s).mono

theorem copied_keptByMoney : KeptByMoney Copied where
  account k f _ _ h := copied_changeAccount k f h
  write time body _ h := copied_plainWrite time body h
  judge _ h := copied_judgeOverflow h

/-! ### The Switching Engine -/

theorem faultAgrees_modifySwitch {a : Nat} {f : SwitchRec → SwitchRec} {s : State} {taps : List TapRec}
    (hs : s.taps = taps) (hf : ∀ r, (f r).fault = r.fault) : List.Forall₂ faultAgrees taps (modifySwitch a f s).taps :=
  hs ▸ faultAgrees_modifyTap fun _ _ _ => ⟨rfl, rfl, hf _, Iff.rfl⟩

theorem faultAgrees_same (s : State) : List.Forall₂ faultAgrees s.taps s.taps := forall₂_refl faultAgrees_refl _

theorem faultAgrees_recompute (a : Nat) (s : State) : List.Forall₂ faultAgrees s.taps (recompute a s).taps := by
  unfold recompute
  split
  · exact faultAgrees_same s
  split
  · exact faultAgrees_same s
  dsimp only
  have desired (v : TapSetting) : List.Forall₂ faultAgrees s.taps (modifySwitch a (fun r => { r with desired := v }) s).taps :=
    faultAgrees_modifySwitch rfl (by exact fun _ => rfl)
  have cleared (v : TapSetting) (queue : List Nat) : List.Forall₂ faultAgrees s.taps
      (modifySwitch a (fun r => { r with attempts := 0 })
        { modifySwitch a (fun r => { r with desired := v }) s with commandQueue := queue }).taps :=
    forall₂_trans (r := faultAgrees) (fun _ _ _ => faultAgrees_trans) (desired v) (faultAgrees_modifySwitch rfl (by exact fun _ => rfl))
  unfold queueUpdate
  split
  · exact desired _
  · exact cleared _ _
  · exact cleared _ _
  · exact desired _

theorem copied_recompute (a : Nat) {s : State} (h : Copied s) : Copied (recompute a s) :=
  h.of_taps (changes_recompute a s).mono (faultAgrees_recompute a s) (switchingSound_recompute a h.switching)

theorem faultAgrees_evaluateStale (a : Nat) (s : State) : List.Forall₂ faultAgrees s.taps (evaluateStale a s).taps := by
  unfold evaluateStale
  split
  · exact faultAgrees_same s
  split
  · exact faultAgrees_same s
  · refine forall₂_trans (r := faultAgrees) (fun _ _ _ => faultAgrees_trans) ?_ (faultAgrees_recompute a _)
    exact faultAgrees_modifyTap fun _ _ _ => ⟨rfl, rfl, rfl, Iff.rfl⟩

theorem copied_evaluateStale (a : Nat) {s : State} (h : Copied s) : Copied (evaluateStale a s) :=
  h.of_taps (changes_evaluateStale a s).mono (faultAgrees_evaluateStale a s) (switchingSound_evaluateStale a h.switching)

theorem any_congr_of_mem {α : Type} {p q : α → Bool} {xs : List α} (h : ∀ x ∈ xs, p x = q x) : xs.any p = xs.any q := by
  induction xs with
  | nil => rfl
  | cons x xs ih => rw [List.any_cons, List.any_cons, h x (.head _), ih fun y hy => h y (.tail _ hy)]

/-- A change of one tap's switching record leaves the fault conditions of other nodes. -/
theorem switchFault_modifySwitch_other {s : State} (hrising : rising (s.taps.map (·.address))) {t : TapRec} (ht : t ∈ s.taps)
    {f : SwitchRec → SwitchRec} {n : Nat} (hn : t.node ≠ n) :
    switchFault (modifySwitch t.address f s) n = switchFault s n := by
  unfold switchFault
  rw [modifySwitch_taps, modifyTap, List.any_map]
  refine any_congr_of_mem fun x hx => ?_
  rw [Function.comp_apply]
  split
  · rename_i ha
    obtain rfl := eq_of_address hrising ht hx ha
    simp [hn]
  · rfl

/-- A tap's fault flag changed and SWITCH_FAULT of its node given. -/
theorem agrees_faultJudged {s : State} (h : agrees s) (hrising : rising (s.taps.map (·.address))) {t : TapRec}
    (ht : t ∈ s.taps) (hnode : 1 ≤ t.node ∧ t.node ≤ 32) (f : SwitchRec → SwitchRec) (queue : List Nat) :
    agrees (judgeSwitchFault t.node { modifySwitch t.address f s with commandQueue := queue }) := by
  have moved : agreesBut (· = .fault t.node) { modifySwitch t.address f s with commandQueue := queue } := by
    refine (h.widen fun _ => False.elim).of_owners rfl fun x _ hout => ?_
    cases x
    case fault n =>
      refine switchFault_modifySwitch_other hrising ht fun hn => hout ?_
      rw [hn]
    all_goals rfl
  exact moved.give_last hnode rfl

/-- A fault flag is cleared, or set of a tap that is not in REMOVING. -/
theorem removalsClear_modifySwitch {s : State} (h : removalsClear s) {a : Nat} {f : SwitchRec → SwitchRec}
    (hf : (∀ r, r.fault = false → (f r).fault = false) ∨ ∀ t ∈ s.taps, t.address = a → t.state ≠ .removing) :
    removalsClear (modifySwitch a f s) := fun q hq hr => by
  obtain ⟨r, hmem, rfl⟩ := List.mem_map.1 hq
  split at hr
  · rename_i ha
    rw [if_pos ha]
    obtain hf | hlive := hf
    · exact hf _ (h r hmem hr)
    · exact absurd hr (hlive r hmem ha)
  · rename_i ha
    rw [if_neg ha]
    exact h r hmem hr

theorem tapsFit_modifySwitch {fit : Nat → Prop} {a : Nat} {f : SwitchRec → SwitchRec} {s : State} (h : tapsFit fit s) :
    tapsFit fit (modifySwitch a f s) :=
  tapsFit_of_agrees (sameUnits_modifySwitch a f s).1 h

/-- A tap's fault flag changed and judged, with the switching sound. -/
theorem copied_faultJudged {s : State} (h : Copied s) {t : TapRec} (ht : t ∈ s.taps) (f : SwitchRec → SwitchRec)
    (queue : List Nat)
    (hf : (∀ r, r.fault = false → (f r).fault = false) ∨ ∀ x ∈ s.taps, x.address = t.address → x.state ≠ .removing)
    (hswitching : switchingSound { modifySwitch t.address f s with commandQueue := queue }) :
    Copied (judgeSwitchFault t.node { modifySwitch t.address f s with commandQueue := queue }) where
  fits := tapsFit_modifySwitch (s := s) h.fits
  switching := switchingSound_judged _ hswitching
  clear := removalsClear_modifySwitch (s := s) h.clear hf
  agrees := agrees_faultJudged h.agrees h.switching.1 ht (h.fits t ht) f queue
  lost := lostSound_of_same (s := s) rfl rfl h.lost

theorem copied_compareStatus (a : Nat) (ports : TapSetting) {s : State} (ha : liveTap a s.taps) (h : Copied s) :
    Copied (compareStatus a ports s) := by
  have sound := switchingSound_compareStatus a ports ha h.switching
  unfold compareStatus at sound ⊢
  split
  · exact h
  rename_i t ht
  obtain ⟨hmem, rfl⟩ := findTap_some ht
  rw [ht] at sound
  dsimp only at sound
  split
  · rename_i hsame
    rw [if_pos hsame] at sound
    exact copied_faultJudged h hmem (fun r => { r with confirmed := some r.desired, fault := false, attempts := 0 })
      (unqueue t.address s.commandQueue) (.inl fun _ _ => rfl) (switchingSound_of_same rfl rfl sound)
  · rename_i hsame
    rw [if_neg hsame] at sound
    refine h.of_taps ?_ ?_ sound
    · exact .of_put rfl
    · exact faultAgrees_modifySwitch rfl (by exact fun _ => rfl)

theorem copied_reconcile (a : Nat) (ports : TapSetting) {s : State} (ha : liveTap a s.taps) (h : Copied s) :
    Copied (reconcile a ports s) :=
  copied_compareStatus a ports (liveTap_of_sameUnits (sameUnits_evaluateStale a s).1 ha) (copied_evaluateStale a h)

theorem copied_judgeDelivery (a : Nat) (result : WindowResult) {s : State} (h : Copied s) :
    Copied (judgeDelivery a result s) := by
  have sound := switchingSound_judgeDelivery a result h.switching
  unfold judgeDelivery at sound ⊢
  split
  · exact h
  rename_i t ht
  obtain ⟨hmem, rfl⟩ := findTap_some ht
  rw [ht] at sound
  dsimp only at sound
  split
  · rename_i hdone
    rw [if_pos hdone] at sound
    exact copied_faultJudged h hmem
      (fun r => { r with confirmed := r.sent, attempts := 0, fault := false, sent := none, inFlight := false }) _
      (.inl fun _ _ => rfl) (switchingSound_of_same rfl rfl sound)
  · rename_i hfailed
    rw [if_neg hfailed] at sound
    unfold deliveryFailed at sound ⊢
    dsimp only at sound ⊢
    have closed : Copied (modifySwitch t.address (fun r => { r with sent := none, inFlight := false }) s) := by
      refine h.of_taps (.of_put rfl) (faultAgrees_modifySwitch rfl (by exact fun _ => rfl))
        (switchingSound_modifySwitch (fun _ hr => ⟨hr.1, hr.2.1, rfl⟩) h.switching)
    split
    · rename_i hq
      rw [if_pos hq] at sound
      split
      · rename_i hcount
        rw [if_pos hcount] at sound
        refine closed.of_taps (.of_put rfl) ?_ sound
        exact faultAgrees_modifySwitch rfl (by exact fun _ => rfl)
      · rename_i hcount
        rw [if_neg hcount] at sound
        have live : t.state ≠ .removing := live_of_queued h.switching hmem (List.contains_iff_mem.1 hq)
        have closedTap : { t with switching := { t.switching with sent := none, inFlight := false } } ∈
            (modifySwitch t.address (fun r => { r with sent := none, inFlight := false }) s).taps :=
          List.mem_map.2 ⟨t, hmem, if_pos rfl⟩
        refine copied_faultJudged closed closedTap (fun r => { r with attempts := 4, fault := true, confirmed := none })
          (unqueue t.address s.commandQueue) (.inr fun x hx ha => ?_) (switchingSound_of_same rfl rfl sound)
        rw [eq_of_address closed.switching.1 closedTap hx ha]
        exact live
    · exact closed

/-! ### Nodes, landing and passes -/

theorem copied_setNodeState {n : Nat} (hn : 1 ≤ n ∧ n ≤ 32) (state : NodeState) (timer : Option Nat) {s : State}
    (h : Copied s) : Copied (setNodeState n state timer s) :=
  h.of_nodes (changes_setNodeState n state timer s) (agrees_setNodeState hn state timer h.agrees)

theorem copied_reevaluate {n : Nat} (hn : 1 ≤ n ∧ n ≤ 32) {s : State} (h : Copied s) : Copied (reevaluate n s) :=
  h.of_nodes (changes_reevaluate n s) (agrees_reevaluate hn h.agrees)

theorem copied_probeAnswer {n : Nat} (hn : 1 ≤ n ∧ n ≤ 32) (probe : Nat) {s : State} (h : Copied s) :
    Copied (probeAnswer n probe s) := by
  refine probeAnswer_keeps (p := Copied) (fun h => ?_) (fun _ _ _ _ h => copied_setNodeState hn _ _ h) h
  have agree : ∀ r ∈ s.taps, faultAgrees r
      (if r.node = n ∧ r.state = .silent ∧ r.address ≠ probe then { r with state := .unknown, miss := 0 } else r) := fun r _ => by
    split
    · rename_i hr
      exact ⟨rfl, rfl, rfl, by simp [hr.2.1]⟩
    · exact faultAgrees_refl r
  refine h.of_taps (.of_put rfl) (List.forall₂_map_right_iff.2 (List.forall₂_same.2 agree)) ?_
  refine switchingSound_of_agrees (s := s) (switchAgrees_map fun r hr => ?_) id (fun _ => .inl) h.switching
  obtain ⟨haddress, -, -, hremoving⟩ := agree r hr
  refine ⟨haddress, hremoving, ?_⟩
  split <;> exact id

theorem copied_takeReading {n : Nat} (hn : 1 ≤ n ∧ n ≤ 32) (reading : Reading) {s : State} (h : Copied s) :
    Copied (takeReading n reading s) :=
  h.of_nodes (changes_takeReading n reading s) (agrees_takeReading hn reading h.agrees)

theorem copied_loseTransponder {n : Nat} (hn : 1 ≤ n ∧ n ≤ 32) {s : State} (h : Copied s) : Copied (loseTransponder n s) :=
  h.of_nodes (changes_loseTransponder n s) (agrees_loseTransponder hn h.agrees)

theorem copied_landTap {t : TapRec} (probe : Bool) (result : WindowResult) {s : State}
    (ht : findTap t.address s.taps = some t) (h : Copied s) : Copied (landTap t probe result s) := by
  have hmem := (findTap_some ht).1
  have hnode := h.fits t hmem
  have landed {f : TapRec → TapRec} (hf : tapLands t f) : Copied { s with taps := modifyTap t.address f s.taps } := by
    have agree := switchAgrees_landed h.switching hmem hf
    refine h.of_taps (.of_put rfl) (faultAgrees_modifyTap fun r hr ha => ?_) (switchingSound_modifyTap agree h.switching)
    obtain ⟨haddress, hremoving, -⟩ := agree r hr ha
    obtain ⟨-, hnode, -, -, hswitching, -⟩ := hf.1 r
    exact ⟨haddress, hnode, congrArg SwitchRec.fault hswitching, hremoving⟩
  by_cases hr : t.state = .removing
  · obtain h' | ⟨f, hf, h'⟩ := landTap_removing_cases hr probe result s <;> rw [h']
    · exact h
    · exact landed hf
  · refine (landTap_keeps (p := fun u => Copied u ∧ liveTap t.address u.taps) (fun f hf _ => ⟨landed hf, ?_⟩)
      (fun u hu => ⟨copied_reevaluate hnode hu.1, ?_⟩)
      (fun ports u hu => ⟨copied_reconcile _ ports hu.2 hu.1,
        liveTap_of_sameUnits (sameUnits_reconcile _ ports u).1 hu.2⟩)
      (fun u hu => ⟨copied_probeAnswer hnode _ hu.1, liveTap_of_sameUnits (sameUnits_probeAnswer _ _ u).1 hu.2⟩)
      ⟨h, t, hmem, rfl, hr⟩).1
    · exact liveTap_of_agrees (switchAgrees_modifyTap (switchAgrees_landed h.switching hmem hf)) ⟨t, hmem, rfl, hr⟩
    · rw [(changes_reevaluate t.node u).same .taps]
      exact hu.2

theorem copied_landReply (a : Nat) (probe : Bool) (result : WindowResult) {s : State} (h : Copied s) :
    Copied (landReply a probe result s) :=
  landReply_keeps (p := Copied) (fun _ ht => copied_landTap _ _ ht)
    (fun _ hn => landTransponder_keeps (p := Copied) (fun _ _ h => h.of_unread (.of_put rfl))
      (fun _ _ => copied_takeReading hn _) fun _ => copied_probeAnswer hn _) h

/-- The taps that leave had no fault flag set. -/
theorem copied_passTurn {s : State} (h : Copied s) : Copied (passTurn s) where
  fits q hq := h.fits q (List.mem_of_mem_filter hq)
  switching := switchingSound_passTurn h.switching
  clear q hq := h.clear q (List.mem_of_mem_filter hq)
  agrees := by
    refine h.agrees.of_owners rfl fun x _ _ => owner_of_taps (fun n => ?_) (by rfl) (by rfl) (by rfl) (by rfl) x
    unfold switchFault passTurn
    dsimp only
    rw [List.any_filter]
    refine any_congr_of_mem fun r hr => ?_
    by_cases hremoving : r.state = .removing
    · simp [h.clear r hr hremoving]
    · simp [hremoving]
  lost := lostSound_of_same (s := s) rfl rfl h.lost

theorem copied_slotOpen {s : State} (h : Copied s) : Copied (slotOpenStep s) :=
  slotOpenStep_keeps (p := Copied) (fun _ _ h => h.of_unread (.of_put rfl)) (fun _ _ h => h.of_unread (.of_put rfl))
    (fun _ h => pollOffer_keeps (p := Copied) (fun _ _ h => h.of_unread (.of_put rfl))
      (fun _ h => passEnd_keeps (p := Copied) copied_passTurn (fun _ hn _ => copied_loseTransponder hn) h) h)
    (fun _ _ _ h => h.of_taps (.of_put rfl) (faultAgrees_modifySwitch rfl (by exact fun _ => rfl))
      (switchingSound_modifySwitch (fun _ => sendStep_sound) h.switching)) h

theorem copied_replyWindow {energy : Bool} {message : Option (List Byte)} {s : State} (h : Copied s) :
    Copied (replyWindowCloseStep energy message s) :=
  replyWindowCloseStep_keeps (p := Copied) (fun _ _ h => h.of_unread (.of_put rfl)) (fun _ _ h => h.of_unread (.of_put rfl))
    (fun _ _ _ h => (copied_landReply _ _ _ h).of_unread (.of_put rfl)) (fun _ _ _ => copied_judgeDelivery _ _) h

theorem copied_tapAdd {address node model : Nat} {s : State} (h : Copied s) : Copied (tapAddStep address node model s).1 := by
  have sound := switchingSound_tapAdd (address := address) (node := node) (model := model) h.switching
  rw [tapAddStep_eq] at sound ⊢
  split
  · exact h
  rename_i hrange
  rw [if_neg hrange] at sound
  split
  · exact h
  rename_i hfree
  rw [if_neg hfree] at sound
  split
  · exact h
  rename_i hroom
  rw [if_neg hroom] at sound
  have mem (t : TapRec) : t ∈ insertTap (newTap address node (modelNamed model)) s.taps ↔
      t = newTap address node (modelNamed model) ∨ t ∈ s.taps := insertTap_eq _ _ ▸ mem_insertKeyed
  obtain ⟨-, hnode, -⟩ := not_not.1 hrange
  refine ⟨fun t ht => ?_, sound, fun t ht hr => ?_, ?_, lostSound_of_same (s := s) rfl rfl h.lost⟩
  · obtain rfl | ht := (mem t).1 ht
    · exact hnode
    · exact h.fits t ht
  · obtain rfl | ht := (mem t).1 ht
    · cases hr
    · exact h.clear t ht hr
  · refine h.agrees.of_owners rfl fun x _ _ => owner_of_taps (fun n => ?_) (by rfl) (by rfl) (by rfl) (by rfl) x
    refine Bool.eq_iff_iff.2 (List.any_eq_true.trans ?_)
    refine Iff.trans ⟨fun ⟨t, ht, hf⟩ => ?_, fun ⟨t, ht, hf⟩ => ⟨t, (mem t).2 (.inr ht), hf⟩⟩ List.any_eq_true.symm
    obtain rfl | ht := (mem t).1 ht
    · simp [newTap, freshSwitch] at hf
    · exact ⟨t, ht, hf⟩

theorem copied_tapRemove {address : Nat} {s : State} (h : Copied s) : Copied (tapRemoveStep address s).1 := by
  have sound := switchingSound_tapRemove (address := address) h.switching
  obtain h' | ⟨t, next, ht, -, h'⟩ := tapRemoveStep_cases address s <;> rw [h'] at sound ⊢
  · exact h
  have hmem := (findTap_some ht).1
  have hnode := h.fits t hmem
  have marked : agrees { s with
      sched := { s.sched with next := next },
      taps := modifyTap t.address (fun r => { r with state := .removing }) s.taps } := by
    refine h.agrees.of_owners rfl fun x _ _ => owner_of_taps (any_fault_of_agrees ?_) (by rfl) (by rfl) (by rfl) (by rfl) x
    refine List.forall₂_map_right_iff.2 (List.forall₂_same.2 fun r _ => ?_)
    split <;> exact ⟨rfl, rfl⟩
  have judged := agrees_reevaluate hnode marked
  have quiet := changes_reevaluate t.node { s with
    sched := { s.sched with next := next },
    taps := modifyTap t.address (fun r => { r with state := .removing }) s.taps }
  generalize reevaluate t.node _ = v at judged quiet sound ⊢
  have taps : v.taps = modifyTap t.address (fun r => { r with state := .removing }) s.taps := quiet.same .taps
  have marker : { t with state := .removing } ∈ v.taps := taps ▸ List.mem_map.2 ⟨t, hmem, if_pos rfl⟩
  have rising : rising (v.taps.map (·.address)) := by
    rw [taps, modifyTap_addresses _ _ (by exact fun _ => rfl)]
    exact h.switching.1
  have fits : tapsFit (fun n => 1 ≤ n ∧ n ≤ 32) v := fun q hq => by
    rw [taps] at hq
    obtain ⟨r, hr, rfl⟩ := List.mem_map.1 hq
    split <;> exact h.fits r hr
  refine ⟨?_, sound, fun q hq hr => ?_, ?_, ?_⟩
  · exact tapsFit_modifySwitch (s := v) (a := t.address) (f := fun r => { r with attempts := 0, fault := false }) fits
  · change q ∈ modifyTap t.address _ v.taps at hq
    obtain ⟨r, hr', rfl⟩ := List.mem_map.1 hq
    split at hr
    · rename_i ha
      rw [if_pos ha]
    · rename_i ha
      rw [if_neg ha]
      rw [taps] at hr'
      obtain ⟨y, hy, rfl⟩ := List.mem_map.1 hr'
      split at ha
      · exact absurd ‹y.address = t.address› ha
      · rename_i hne
        rw [if_neg hne] at hr ⊢
        exact h.clear y hy hr
  · exact agrees_faultJudged judged rising marker hnode (fun r => { r with attempts := 0, fault := false })
      (unqueue t.address v.commandQueue)
  · exact lostSound_of_same (s := s) (quiet.same .inputs) (congrArg Lineup.sourcesInUse (quiet.same .lineup)) h.lost

end Sys2Proof.Machine
end

section
/-! SUPPORT. The commands of money, purchases, the monitor and the resets, and the copies of the conditions. -/

namespace Sys2Proof.Machine

/-! ### Purchases -/

/-- What the ending of purchases keeps, purchases taken keep, if writes, reservations and new open purchases do. -/
theorem KeptByEvents.purchases {p : State → Prop} (hp : KeptByEvents p)
    (write : ∀ time body u, p u → p (plainWrite time body u)) (take : ∀ u, p u → p (takeReservation u))
    (buy : ∀ k x u, p u → p (changeAccount k (fun r => { r with purchases := r.purchases ++ [x] }) u)) :
    KeptByPurchases p := by
  intro a e origin counter u _ _ _ _ h
  have charged := hp.balance a.number e.price 2 u h
  unfold acceptPurchase
  dsimp only
  generalize balanceUpdate a.number e.price 2 u = v at charged ⊢
  have written := write u.clock.time (.purchase a.number e.id e.price origin) v charged
  generalize plainWrite u.clock.time (.purchase a.number e.id e.price origin) v = w at written ⊢
  have taken := take w written
  generalize takeReservation w = x at taken ⊢
  have bought := buy a.number
    { event := e.id, price := e.price, time := u.clock.time, origin := origin, counter := counter } x taken
  generalize changeAccount a.number _ x = y at bought ⊢
  exact hp.tap _ _ (hp.table _ _ (changes_changeEvent _ _ _).mono bought)

theorem copied_keptByEvents : KeptByEvents Copied where
  balance _ _ _ _ := copied_keptByMoney.balanceUpdate
  drop k _ _ h := copied_changeAccount k _ h
  tap a _ h := copied_recompute a h
  convert time body _ h := copied_convertReservation time body h
  release _ h := copied_releaseReservation h
  table _ _ hc h := h.of_unread hc.mono

theorem copied_keptByPurchases : KeptByPurchases Copied :=
  copied_keptByEvents.purchases (fun time body _ h => copied_plainWrite time body h) (fun _ => copied_takeReservation)
    fun k _ _ h => copied_changeAccount k _ h

/-! ### Accounts -/

theorem copied_bindPort {a p : Nat} {b : Option Nat} {accounts : List Account} {s : State} (h : Copied s) :
    Copied (bindPort a p b { s with accounts := accounts }) := by
  refine h.of_taps (.of_put rfl) ?_ (switchingSound_bindPort h.switching)
  exact faultAgrees_modifyTap fun _ _ _ => ⟨rfl, rfl, rfl, Iff.rfl⟩

theorem copied_accountOpen {k a port : Nat} {tiers : TierSet} {state : Nat} {s : State} (h : Copied s) :
    Copied (accountOpenStep k a port tiers state s).1 := by
  obtain h' | ⟨t, account, -, -, -, -, -, -, h'⟩ := accountOpenStep_cases k a port tiers state s <;> rw [h']
  · exact h
  · exact copied_recompute _ (copied_bindPort h)

theorem copied_accountClose {k : Nat} {s : State} (h : Copied s) : Copied (accountCloseStep k s).1 := by
  obtain h' | ⟨account, -, -, freed, rfl, h'⟩ := accountCloseStep_cases k s <;> rw [h']
  · exact h
  have freed : Copied (recompute account.address (bindPort account.address account.port none
      { s with accounts := s.accounts.filter (·.number != account.number) })) := copied_recompute _ (copied_bindPort h)
  split
  · exact copied_judgeOverflow freed
  · exact freed

/-- The requests that change one account and recompute its tap. -/
theorem accountTiers_keeps {p : State → Prop} {k : Nat} {tiers : TierSet} {s : State}
    (change : ∀ u, p u → p (changeAccount k (fun r => { r with tiers := tiers }) u)) (tap : ∀ a u, p u → p (recompute a u))
    (h : p s) : p (accountTiersStep k tiers s).1 :=
  withAccount_keeps (own := fun u a =>
    (recompute a.address (changeAccount k (fun r => { r with tiers := tiers }) u), replyOk (tierSet2 tiers)))
    (fun u _ hu => tap _ _ (change u hu)) h

theorem accountMove_keeps {p : State → Prop} {takenIn : List AccountState} {target : AccountState} {k : Nat} {s : State}
    (change : ∀ u, p u → p (changeAccount k (fun r => { r with state := target }) u)) (tap : ∀ a u, p u → p (recompute a u))
    (h : p s) : p (accountMove takenIn target k s).1 := by
  refine withAccount_keeps (own := fun u a =>
    if takenIn.contains a.state then
      (recompute a.address (changeAccount k (fun r => { r with state := target }) u),
        replyOk (byte1 (accountStateCode target)))
    else (u, refusal .wrongState)) (fun u a hu => ?_) h
  split
  · exact tap _ _ (change u hu)
  · exact hu

/-! ### Line-up and journal -/

theorem copied_lineupPut {channel slot source kind : Nat} {tier : Option Nat} {label : List Byte} {s : State}
    (h : Copied s) : Copied (lineupPutStep channel slot source kind tier label s).1 := by
  refine h.of_lineup (changes_lineupPutStep channel slot source kind tier label s) ?_
  unfold lineupPutStep
  dsimp only
  repeat' split
  all_goals rfl

theorem copied_lineupDrop {channel : Nat} {s : State} (h : Copied s) : Copied (lineupDropStep channel s).1 := by
  refine h.of_lineup (changes_lineupDropStep channel s) ?_
  unfold lineupDropStep
  dsimp only
  repeat' split
  all_goals rfl

theorem copied_tierRateSet {target rate : Nat} {s : State} (h : Copied s) : Copied (tierRateSetStep target rate s).1 := by
  refine h.of_lineup (changes_tierRateSetStep target rate s) ?_
  unfold tierRateSetStep
  repeat' split
  all_goals rfl

theorem copied_schedule {time : Nat} {s : State} (h : Copied s) : Copied (switchoverScheduleStep time s).1 := by
  unfold switchoverScheduleStep
  split
  · exact h
  split
  · exact h
  split
  · exact h
  split
  · exact h
  split
  · exact h
  · refine copied_takeReservation (h.of_lineup ?_ ?_)
    · exact .of_put rfl
    · rfl

theorem copied_cancel {s : State} (h : Copied s) : Copied (switchoverCancelStep s).1 := by
  unfold switchoverCancelStep
  split
  · refine copied_releaseReservation (h.of_lineup ?_ ?_)
    · exact .of_put rfl
    · rfl
  · exact h

theorem copied_journalRelease {q : Nat} {s : State} (h : Copied s) : Copied (journalReleaseStep q s).1 := by
  unfold journalReleaseStep
  split
  · exact h
  split
  · exact h
  · exact copied_putJournal _ h

theorem copied_gapRecord {s : State} (h : Copied s) : Copied (gapRecordStep s) := by
  unfold gapRecordStep
  split
  · have taken : Copied { s with due := { s.due with gapRecord := false } } := h.of_unread (.of_put rfl)
    dsimp only
    split
    · exact copied_plainWrite _ _ taken
    · exact taken
  · exact h

theorem copied_restartUp {s : State} (h : Copied s) : Copied (restartUpStep s) := by
  unfold restartUpStep
  split
  · have up : Copied { s with
        phase := .running,
        clock := restartClock s.clock,
        link := { s.link with notice := some (noticeOf s.lastReset (restartClock s.clock)) },
        due := { s.due with
          restartStep := (restartClock s.clock).state = .set, gapRecord := (restartClock s.clock).state = .set },
        freeCount := s.freeCount + 1 } := h.of_unread (.of_put rfl)
    unfold rejudge
    dsimp only
    split
    · exact copied_judgeOverflow (copied_putJournal _ up)
    · exact copied_putJournal _ (copied_judgeOverflow up)
  · exact h

/-! ### The Outage Monitor -/

/-- A node's record read after a change of one is its own record, changed or not. -/
theorem nodeOf_modifyNode_or (n : Nat) (f : NodeRec → NodeRec) (s : State) (m : Nat) :
    nodeOf (modifyNode n f s) m = f (nodeOf s m) ∨ nodeOf (modifyNode n f s) m = nodeOf s m := by
  unfold nodeOf
  rw [modifyNode_nodes, vecGet_vecModify]
  split
  · exact .inl rfl
  · exact .inr rfl

/-- A change of records of nodes that leaves their conditions. -/
theorem Copied.of_nodeRecords {s t : State} (h : Copied s) (hc : Changes [.nodes, .sample, .deliveries, .minuteEnds] s t)
    (hnodes : ∀ m, 1 ≤ m ∧ m ≤ 32 → (nodeOf t m).state = (nodeOf s m).state ∧
      (nodeOf t m).power = (nodeOf s m).power ∧ (nodeOf t m).levelStep = (nodeOf s m).levelStep) : Copied t := by
  refine h.of_agrees (hc.same .taps) (hc.same .commandQueue) (hc.same .inputs) (by rw [hc.same .lineup])
    (h.agrees.of_owners (hc.same .alarms) fun x hx _ => ?_)
  cases x with
  | outage n => rw [Copy.owner, Copy.owner, nodeOutage, nodeOutage, (hnodes n hx).1]
  | degraded n => rw [Copy.owner, Copy.owner, nodeDegraded, nodeDegraded, (hnodes n hx).1]
  | power n => exact (hnodes n hx).2.1
  | levelStep n => exact (hnodes n hx).2.2
  | fault n => rw [Copy.owner, Copy.owner, switchFault, switchFault, hc.same .taps]
  | lost i => rw [Copy.owner, Copy.owner, inputOf, inputOf, hc.same .inputs]
  | high => rw [Copy.owner, Copy.owner, hc.same .journal]
  | overflow => rw [Copy.owner, Copy.owner, hc.same .meter]

theorem copied_countTallies {s : State} (h : Copied s) : Copied (countTallies s) := by
  refine foldl_keeps (p := Copied) (fun n _ u hu => hu.of_nodeRecords ?_ fun m _ => ?_) h
  · exact .of_put rfl
  · obtain hsame | hsame := nodeOf_modifyNode_or n (fun r => { r with tally := min 15 (r.tally + 1) }) u m
    all_goals
      rw [hsame]
      exact ⟨rfl, rfl, rfl⟩

theorem copied_monitorMinuteEnd {s : State} (h : Copied s) : Copied (monitorMinuteEndStep s) := by
  unfold monitorMinuteEndStep
  split
  · exact h
  rename_i m rest _
  have counted : Copied (countTallies (fixSample m.time { s with due := { s.due with monitorEnds := rest } })) := by
    refine copied_countTallies (h.of_unread ?_)
    exact .of_put rfl
  dsimp only
  generalize countTallies _ = u at counted ⊢
  split
  · refine counted.of_nodeRecords (.of_put rfl) fun n hn => ?_
    have zeroed : nodeOf (handTallies m.time u) n = { nodeOf u n with tally := 0 } :=
      vecGet_vecMap _ _ _ _ _ (by omega)
    rw [zeroed]
    exact ⟨rfl, rfl, rfl⟩
  · exact counted

theorem tickNode_conditions (r : NodeRec) :
    (tickNode r).state = r.state ∧ (tickNode r).power = r.power ∧ (tickNode r).levelStep = r.levelStep := by
  unfold tickNode
  split <;> exact ⟨rfl, rfl, rfl⟩

theorem tickInput_conditions (r : InputRec) : (tickInput r).lost = r.lost ∧ (tickInput r).debounced = r.debounced := by
  unfold tickInput
  split_ifs <;> exact ⟨rfl, rfl⟩

/-- A change of inputs' records that leaves their debounced states and conditions. -/
theorem Copied.of_inputRecords {s t : State} (h : Copied s) (hc : Changes [.inputs] s t)
    (hinputs : ∀ i, 1 ≤ i ∧ i ≤ 64 → (inputOf t i).lost = (inputOf s i).lost ∧
      (inputOf t i).debounced = (inputOf s i).debounced) : Copied t where
  fits q hq := h.fits q ((hc.same .taps) ▸ hq)
  switching := switchingSound_of_same (hc.same .taps) (hc.same .commandQueue) h.switching
  clear q hq := h.clear q ((hc.same .taps) ▸ hq)
  agrees := h.agrees.of_owners (hc.same .alarms) fun x hx _ => by
    cases x with
    | outage n => rw [Copy.owner, Copy.owner, nodeOf, nodeOf, hc.same .nodes]
    | degraded n => rw [Copy.owner, Copy.owner, nodeOf, nodeOf, hc.same .nodes]
    | power n => rw [Copy.owner, Copy.owner, nodeOf, nodeOf, hc.same .nodes]
    | levelStep n => rw [Copy.owner, Copy.owner, nodeOf, nodeOf, hc.same .nodes]
    | fault n => rw [Copy.owner, Copy.owner, switchFault, switchFault, hc.same .taps]
    | lost i => exact (hinputs i hx).1
    | high => rw [Copy.owner, Copy.owner, hc.same .journal]
    | overflow => rw [Copy.owner, Copy.owner, hc.same .meter]
  lost := lostSound_of_inputs hinputs (by rw [hc.same .lineup]) h.lost

theorem copied_secondTick {s : State} (h : Copied s) : Copied (secondTickStep s) := by
  have ticked {u : State} (hu : Copied u) : Copied (secondTick u) := by
    have inputs : Copied { u with inputs := vecMap tickInput u.inputs } := by
      refine hu.of_inputRecords (.of_put rfl) fun i hi => ?_
      have tick : inputOf { u with inputs := vecMap tickInput u.inputs } i = tickInput (inputOf u i) :=
        vecGet_vecMap _ _ _ _ _ (by omega)
      rw [tick]
      exact tickInput_conditions _
    refine inputs.of_nodeRecords (.of_put rfl) fun n hn => ?_
    have tick : nodeOf (secondTick u) n = tickNode (nodeOf u n) := vecGet_vecMap _ _ _ _ _ (by omega)
    rw [tick]
    exact tickNode_conditions _
  have counted : Copied { s with clock := countSecond s.clock } := h.of_unread (.of_put rfl)
  unfold secondTickStep
  split
  · unfold runningSecond
    dsimp only
    split
    · exact ticked counted
    · exact ticked (counted.of_unread (changes_reach _ _).mono)
  · split
    · exact counted
    · exact h

theorem copied_modifyInput {i : Nat} (hi : 1 ≤ i ∧ i ≤ 64) {f : InputRec → InputRec}
    (hf : ∀ r, (f r).lost = r.lost ∧ (f r).debounced = r.debounced) {s : State} (h : Copied s) :
    Copied (modifyInput i f s) := by
  refine h.of_inputRecords (.of_put rfl) fun j hj => ?_
  rw [inputOf_modifyInput i j f s hi.1 hj.1 hj.2]
  split
  · exact hf _
  · exact ⟨rfl, rfl⟩

theorem levelChange_conditions (high : Bool) (r : InputRec) :
    (levelChange high r).lost = r.lost ∧ (levelChange high r).debounced = r.debounced := by
  unfold levelChange
  split <;> exact ⟨rfl, rfl⟩

theorem copied_sourceLevelChange {i : Nat} (hi : 1 ≤ i ∧ i ≤ 64) (high : Bool) {s : State} (h : Copied s) :
    Copied (sourceLevelChangeStep i high s) := by
  unfold sourceLevelChangeStep
  split
  · exact copied_modifyInput hi (levelChange_conditions high) h
  · exact copied_modifyInput hi (by exact fun _ => ⟨rfl, rfl⟩) h

theorem copied_sourceDebounceVerdict {i : Nat} (hi : 1 ≤ i ∧ i ≤ 64) {s : State} (h : Copied s) :
    Copied (sourceDebounceVerdictStep i s) := by
  unfold sourceDebounceVerdictStep
  split
  · exact h
  rename_i high _
  have judged : agrees (modifyInput i (fun r => { r with debounced := verdictOf high, verdictDue := none }) s) :=
    h.agrees.of_owners rfl fun x hx _ => owner_modifyInput hi hx fun _ => rfl
  refine ⟨h.fits, switchingSound_of_same (s := s) rfl rfl h.switching, h.clear, agrees_judgeSourceLost hi judged,
    lostSound_judgeSourceLost hi fun j hj hne => ?_⟩
  have input : inputOf (modifyInput i (fun r => { r with debounced := verdictOf high, verdictDue := none }) s) j =
      inputOf s j := (inputOf_modifyInput i j _ s hi.1 hj.1 hj.2).trans (if_neg fun h => hne h.symm)
  unfold lostBy
  rw [input]
  exact h.lost j hj

theorem copied_restoreHoldExpiry {n : Nat} (hn : 1 ≤ n ∧ n ≤ 32) {s : State} (h : Copied s) :
    Copied (restoreHoldExpiryStep n s) := by
  unfold restoreHoldExpiryStep
  split
  · exact copied_setNodeState hn _ _ h
  · exact h

theorem copied_nodeConfig {n : Nat} {given : Thresholds} {s : State} (h : Copied s) :
    Copied (nodeConfigStep n given s).1 := by
  unfold nodeConfigStep
  split
  · exact h
  rename_i hrange
  have hn : 1 ≤ n ∧ n ≤ 32 := within_iff.1 (by simpa using hrange)
  have configured : Copied (modifyNode n (fun r => { r with thresholds := clampThresholds given }) s) :=
    h.of_nodes (.of_put rfl) (h.agrees.modifyNode hn fun _ => ⟨rfl, rfl, rfl⟩)
  have judged := copied_reevaluate hn configured
  exact judged.of_nodes (changes_judgePower n _) (agrees_judgePower hn judged.agrees)

/-! ### The switchover -/

/-- All but the rule of SOURCE_LOST. -/
structure CopiedButLost (s : State) : Prop where
  fits : tapsFit (fun n => 1 ≤ n ∧ n ≤ 32) s
  switching : switchingSound s
  clear : removalsClear s
  agrees : agrees s

/-- The rule may be that of other sources in use. -/
theorem Copied.of_butLost {s : State} (h : CopiedButLost s) (hlost : lostSound s) : Copied s :=
  ⟨h.fits, h.switching, h.clear, h.agrees, hlost⟩

theorem Copied.butLost {s : State} (h : Copied s) : CopiedButLost s := ⟨h.fits, h.switching, h.clear, h.agrees⟩

theorem CopiedButLost.switchoverTaps {s : State} (h : CopiedButLost s) (named : List Nat) :
    CopiedButLost (switchoverTaps named s) := by
  have kept {u v : State} (hu : CopiedButLost u) (hc : Changes tapBlocks u v)
      (htaps : List.Forall₂ faultAgrees u.taps v.taps) (hswitching : switchingSound v) : CopiedButLost v := by
    refine ⟨fun q hq => ?_, hswitching, removalsClear_of_agrees htaps hu.clear,
      hu.agrees.of_owners (hc.same .alarms) fun x _ _ => ?_⟩
    · obtain ⟨r, hr, -, hnode, -⟩ := forall₂_exists htaps hq
      exact hnode ▸ hu.fits r hr
    · exact owner_of_taps (any_fault_of_agrees (htaps.imp fun _ _ hrq => ⟨hrq.2.1, hrq.2.2.1⟩)) (hc.same .nodes)
        (hc.same .inputs) (hc.same .journal) (hc.same .meter) x
  refine foldl_keeps (p := CopiedButLost) (fun t _ u hu => ?_) h
  unfold switchoverTap
  split
  · exact hu
  split_ifs
  · exact hu
  · exact kept hu (changes_evaluateStale _ u) (faultAgrees_evaluateStale _ u) (switchingSound_evaluateStale _ hu.switching)
  · exact kept hu (changes_recompute _ u) (faultAgrees_recompute _ u) (switchingSound_recompute _ hu.switching)
  · exact hu

theorem copied_takeSwitchover (b : Nat) {s : State} (h : Copied s) : Copied (takeSwitchover b s) := by
  have switched : CopiedButLost { s with lineup := switchLineup b s.lineup } := by
    refine ⟨h.fits, switchingSound_of_same (s := s) rfl rfl h.switching, h.clear, h.agrees.of_owners rfl fun x _ _ => ?_⟩
    exact owner_of_same (s := s) (by rfl) (by rfl) (by rfl) (by rfl) (by rfl) x
  have recorded : CopiedButLost (convertReservation b (.switchover (switchLineup b s.lineup).active.version)
      { s with lineup := switchLineup b s.lineup }) := by
    have quiet := changes_convertReservation b (.switchover (switchLineup b s.lineup).active.version)
      { s with lineup := switchLineup b s.lineup }
    refine ⟨fun q hq => switched.fits q (quiet.same .taps ▸ hq), switchingSound_of_same (quiet.same .taps)
      (quiet.same .commandQueue) switched.switching, fun q hq => switched.clear q (quiet.same .taps ▸ hq),
      agrees_convertReservation _ _ switched.agrees⟩
  unfold takeSwitchover
  dsimp only
  generalize convertReservation _ _ _ = u at recorded ⊢
  have restarted : CopiedButLost { u with carrier := { u.carrier with cursor := 0 } } := by
    refine ⟨recorded.fits, switchingSound_of_same (s := u) rfl rfl recorded.switching, recorded.clear,
      recorded.agrees.of_owners rfl fun x _ _ => ?_⟩
    exact owner_of_same (s := u) (by rfl) (by rfl) (by rfl) (by rfl) (by rfl) x
  have handed := restarted.switchoverTaps (movedEvents s.lineup.active (switchLineup b s.lineup).active s.events)
  generalize switchoverTaps _ _ = v at handed ⊢
  have quiet : Changes [.inputs, .alarms] v (judgeAllSources v) := .foldl (fun _ _ => changes_judgeSourceLost _ _) _ _
  exact ⟨fun q hq => handed.fits q (quiet.same .taps ▸ hq), switchingSound_of_same (quiet.same .taps)
    (quiet.same .commandQueue) handed.switching, fun q hq => handed.clear q (quiet.same .taps ▸ hq),
    agrees_judgeAllSources handed.agrees, lostSound_judgeAllSources v⟩

theorem copied_switchoverTake {s : State} (h : Copied s) : Copied (switchoverTakeStep s) := by
  unfold switchoverTakeStep
  split
  · exact h
  rename_i b rest _
  have taken : Copied { s with due := { s.due with boundaries := rest } } := h.of_unread (.of_put rfl)
  dsimp only
  split
  · exact copied_takeSwitchover b taken
  · exact taken

/-! ### The resets -/

/-- With every copy and every owner's condition absent the copies agree. -/
theorem agrees_of_absent {s : State} (hsources : ∀ i, i < 226 → (alarmOf s.alarms i).condition = false)
    (hnodes : ∀ n, 1 ≤ n ∧ n ≤ 32 → ∃ t, nodeOf s n = resetNode t) (htaps : ∀ t ∈ s.taps, t.switching.fault = false)
    (hinputs : ∀ i, 1 ≤ i ∧ i ≤ 64 → ∃ high, inputOf s i = resetInput high) (hhigh : s.journal.high = false)
    (hoverflow : s.meter.balanceOverflow = false) : agrees s := fun x hx _ => by
  rw [hsources _ (Copy.source_lt hx)]
  cases x with
  | outage n =>
    obtain ⟨t, ht⟩ := hnodes n hx
    rw [Copy.owner, ht]
    rfl
  | degraded n =>
    obtain ⟨t, ht⟩ := hnodes n hx
    rw [Copy.owner, ht]
    rfl
  | power n =>
    obtain ⟨t, ht⟩ := hnodes n hx
    rw [Copy.owner, ht]
    rfl
  | levelStep n =>
    obtain ⟨t, ht⟩ := hnodes n hx
    rw [Copy.owner, ht]
    rfl
  | fault n =>
    refine (Bool.eq_false_iff.2 fun h => ?_).symm
    obtain ⟨t, ht, hf⟩ := List.any_eq_true.1 h
    rw [htaps t ht, Bool.and_false] at hf
    exact Bool.false_ne_true hf
  | lost i =>
    obtain ⟨high, hi⟩ := hinputs i hx
    rw [Copy.owner, hi]
    rfl
  | high => exact hhigh.symm
  | overflow => exact hoverflow.symm

theorem lostSound_of_reset {s : State} (hinputs : ∀ i, 1 ≤ i ∧ i ≤ 64 → ∃ high, inputOf s i = resetInput high) :
    lostSound s := fun i hi => by
  obtain ⟨high, h⟩ := hinputs i hi
  unfold lostBy
  rw [h]
  rfl

theorem copied_coldReset (s : State) : Copied (coldReset s) := by
  have inputs (i : Nat) (hi : 1 ≤ i ∧ i ≤ 64) : ∃ high, inputOf (coldReset s) i = resetInput high :=
    ⟨_, inputOf_reset (s := s) (t := coldReset s) rfl (mem_upTo.2 hi)⟩
  refine ⟨List.forall_mem_nil _, switchingSound_of_empty rfl rfl, List.forall_mem_nil _, agrees_of_absent (fun i _ => ?_)
    (fun n _ => ⟨defaultThresholds, vecGet_replicate 32 (n - 1) _⟩) (List.forall_mem_nil _) inputs rfl rfl,
    lostSound_of_reset inputs⟩
  rw [show (coldReset s).alarms = coldAlarms from rfl, alarmOf_coldAlarms]
  rfl

theorem copied_retainedReset (kind : ResetKind) {s : State} (hfits : tapsFit (fun n => 1 ≤ n ∧ n ≤ 32) s)
    (hswitching : switchingSound s) : Copied (retainedReset kind s) := by
  have taps := retainedReset_taps kind s
  have fresh : ∀ t ∈ (retainedReset kind s).taps, t.switching.fault = false := fun t ht => by
    rw [taps] at ht
    obtain ⟨r, -, rfl⟩ := List.mem_map.1 ht
    rfl
  have inputs (i : Nat) (hi : 1 ≤ i ∧ i ≤ 64) : ∃ high, inputOf (retainedReset kind s) i = resetInput high :=
    ⟨_, inputOf_reset (s := s) (t := retainedReset kind s) rfl (mem_upTo.2 hi)⟩
  refine ⟨fun t ht => ?_, switchingSound_retained kind s hswitching, fun t ht _ => fresh t ht,
    agrees_of_absent (fun i hi => ?_) (fun n hn => ⟨(nodeOf s n).thresholds, ?_⟩) fresh inputs rfl rfl,
    lostSound_of_reset inputs⟩
  · rw [taps] at ht
    obtain ⟨r, hr, rfl⟩ := List.mem_map.1 ht
    exact hfits r (List.mem_of_mem_filter hr)
  · rw [show (retainedReset kind s).alarms = retainedAlarms s.alarms from rfl, alarmOf_retained _ (by omega)]
    rfl
  · exact vecGet_vecMap (fun r : NodeRec => resetNode r.thresholds) _ _ _ _ (by omega)

/-! ### The Alarm Controller's own requests -/

theorem condition_compositeStep (now k : Nat) (a : Alarms) {i : Nat} (hi : i < 226) :
    (alarmOf (compositeStep now k a) i).condition = (alarmOf a i).condition := by
  have recomputed : (alarmOf (recomputeComposite now k a) i).condition = (alarmOf a i).condition :=
    condition_recomputeComposite _ _ _ _ (by omega) (by unfold compositeSource; omega)
  unfold compositeStep
  dsimp only
  split
  · exact recomputed
  · rw [condition_cascade _ _ hi, recomputed]

/-- The conditions of the fixed sources are those of `a`. -/
abbrev conditionsOf (a b : Alarms) : Prop := ∀ i < 226, (alarmOf b i).condition = (alarmOf a i).condition

theorem conditionsOf_keptBySettings (a : Alarms) : KeptBySettings (conditionsOf a) where
  fill now b h i hi := ((fill_reportsOnly now b).condition i).trans (h i hi)
  drained _ _ _ _ h := h
  given low high level kind b _ _ h i hi := by
    rw [← h i hi, alarmOf, vecGet_sourcesGiven low high level kind b (by omega)]
    split
    · exact setAlarmRec_condition
    · rfl
  slotted _ _ _ _ _ _ _ h := h
  acknowledged i b _ h j hj := (condition_modifyAlarm i j _ acknowledge_condition b).trans (h j hj)
  deferred i b _ h j hj :=
    (condition_modifyAlarm i j (fun r => { r with state := .deferred }) (fun _ => rfl) b).trans (h j hj)
  defined now k _ _ _ _ h i hi := (condition_compositeStep now k _ hi).trans (h i hi)
  released now k _ _ _ h i hi := (condition_compositeStep now k _ hi).trans (h i hi)

end Sys2Proof.Machine
end

section
/-! SUPPORT. Every step keeps the copies of the conditions and the owners' rules. -/

namespace Sys2Proof.Machine

/-! ### JOURNAL_HIGH and BALANCE_OVERFLOW by their rules -/

/-- JOURNAL_HIGH and BALANCE_OVERFLOW are as their rules define them (R134, R170). -/
def judged (s : State) : Prop := s.journal.high = journalHigh s.journal ∧ s.meter.balanceOverflow = anyOverflow s.accounts

theorem judged_of_same {s t : State} (hjournal : t.journal = s.journal) (hmeter : t.meter.balanceOverflow = s.meter.balanceOverflow)
    (haccounts : anyOverflow t.accounts = anyOverflow s.accounts) (h : judged s) : judged t := by
  unfold judged
  rw [hjournal, hmeter, haccounts]
  exact h

/-- The journal changed and judged. -/
theorem judged_putJournal (j : Journal) {s : State} (h : judged s) : judged (putJournal j s) := ⟨rfl, h.2⟩

theorem judged_plainWrite (time : Nat) (body : RecordBody) {s : State} (h : judged s) : judged (plainWrite time body s) := by
  obtain ⟨-, h'⟩ | ⟨-, h'⟩ := plainWrite_cases time body s <;> rw [h']
  · exact judged_putJournal _ h
  · exact h

theorem judged_takeReservation {s : State} (h : judged s) : judged (takeReservation s) := by
  obtain ⟨-, h'⟩ | ⟨-, h'⟩ := takeReservation_cases s <;> rw [h']
  · exact judged_putJournal _ h
  · exact h

theorem judged_releaseReservation {s : State} (h : judged s) : judged (releaseReservation s) := by
  obtain ⟨-, h'⟩ | ⟨-, h'⟩ := releaseReservation_cases s <;> rw [h']
  · exact judged_putJournal _ h
  · exact h

theorem judged_convertReservation (time : Nat) (body : RecordBody) {s : State} (h : judged s) :
    judged (convertReservation time body s) := by
  obtain ⟨-, h'⟩ | ⟨-, h'⟩ := convertReservation_cases time body s <;> rw [h']
  · exact judged_putJournal _ h
  · exact h

/-- The journal's part of the rules. -/
def highJudged (s : State) : Prop := s.journal.high = journalHigh s.journal

theorem highJudged_keptByMoney : KeptByMoney highJudged where
  account _ _ _ _ h := h
  write time body u h := by
    obtain ⟨-, h'⟩ | ⟨-, h'⟩ := plainWrite_cases time body u <;> rw [h']
    · rfl
    · exact h
  judge _ h := h

/-- With the journal judged, a judgement of BALANCE_OVERFLOW makes both as their rules define them. -/
theorem judged_judgeOverflow {s : State} (h : highJudged s) : judged (judgeOverflow s) := ⟨h, rfl⟩

theorem anyOverflow_changeAccount {k : Nat} {f : Account → Account} (hf : ∀ a, (f a).overflow = a.overflow) (s : State) :
    anyOverflow (changeAccount k f s).accounts = anyOverflow s.accounts := by
  unfold anyOverflow
  rw [changeAccount_accounts, modifyAccount, List.any_map]
  refine List.any_congr rfl fun a => ?_
  rw [Function.comp_apply]
  split
  · exact hf a
  · rfl

theorem judged_changeAccount {k : Nat} {f : Account → Account} (hf : ∀ a, (f a).overflow = a.overflow) {s : State}
    (h : judged s) : judged (changeAccount k f s) :=
  judged_of_same (s := s) rfl rfl (anyOverflow_changeAccount hf s) h

theorem judged_balanceUpdate {k : Nat} {amount : Int} {needed : Nat} {s : State} (h : judged s) :
    judged (balanceUpdate k amount needed s) := by
  unfold balanceUpdate
  split
  · exact h
  rename_i a _
  have charged : judged (changeAccount k (fun r => { r with balance := saturate (a.balance + amount) }) s) :=
    judged_changeAccount (by exact fun _ => rfl) h
  dsimp only
  split
  · exact charged
  · refine judged_judgeOverflow ?_
    split
    · exact highJudged_keptByMoney.write _ _ _ charged.1
    · exact charged.1

theorem judged_cycleClose {low high : Nat} {s : State} (h : judged s) : judged (cycleCloseStep low high s).1 := by
  unfold cycleCloseStep
  split
  · exact h
  dsimp only
  split
  · exact h
  refine judged_judgeOverflow (foldl_keeps (p := highJudged) (fun k _ u hu => ?_) h.1)
  unfold closeAccount
  split
  · exact hu
  · exact highJudged_keptByMoney.write _ _ _ hu

theorem judged_keptByMeter : KeptByMeter judged where
  balance _ _ _ _ := judged_balanceUpdate
  credit _ _ _ _ hoverflow := judged_changeAccount hoverflow
  tariff _ u h := by
    refine judged_of_same (s := u) rfl ?_ rfl h
    unfold fixBoundaryTariff
    dsimp only
  taken _ _ h := h

theorem judged_recompute (a : Nat) {s : State} (h : judged s) : judged (recompute a s) := by
  have quiet := changes_recompute a s
  refine judged_of_same (quiet.same .journal) ?_ ?_ h
  · rw [quiet.same .meter]
  · rw [quiet.same .accounts]

theorem judged_keptByEvents : KeptByEvents judged where
  balance _ _ _ _ := judged_balanceUpdate
  drop _ _ _ := judged_changeAccount (by exact fun _ => rfl)
  tap a _ := judged_recompute a
  convert time body _ := judged_convertReservation time body
  release _ := judged_releaseReservation
  table u v hc h := judged_of_same (s := u) (t := v) (hc.same .journal) (by rw [hc.same .meter]) (by rw [hc.same .accounts]) h

theorem judged_keptByPurchases : KeptByPurchases judged :=
  judged_keptByEvents.purchases (fun time body _ => judged_plainWrite time body) (fun _ => judged_takeReservation)
    fun _ _ _ => judged_changeAccount (by exact fun _ => rfl)

theorem judged_accountOpen {k a port : Nat} {tiers : TierSet} {state : Nat} {s : State} (h : judged s) :
    judged (accountOpenStep k a port tiers state s).1 := by
  obtain h' | ⟨t, account, -, ⟨initial, hmade⟩, -, -, -, -, h'⟩ := accountOpenStep_cases k a port tiers state s <;> rw [h']
  · exact h
  refine judged_recompute _ (judged_of_same (s := s) rfl rfl (Bool.eq_iff_iff.2 ?_) h)
  change (insertAccount account s.accounts).any (·.overflow) = true ↔ s.accounts.any (·.overflow) = true
  rw [List.any_eq_true, List.any_eq_true, insertAccount_eq]
  refine ⟨fun ⟨b, hb, hf⟩ => ?_, fun ⟨b, hb, hf⟩ => ⟨b, mem_insertKeyed.2 (.inr hb), hf⟩⟩
  obtain rfl | hb := mem_insertKeyed.1 hb
  · rw [hmade] at hf
    cases hf
  · exact ⟨b, hb, hf⟩

/-- An account that leaves with its flag clear leaves the rule, and with its flag set it is judged anew. -/
theorem judged_accountClose {k : Nat} {s : State} (hrising : rising (s.accounts.map (·.number))) (h : judged s) :
    judged (accountCloseStep k s).1 := by
  obtain h' | ⟨account, hmem, -, freed, rfl, h'⟩ := accountCloseStep_cases k s <;> rw [h']
  · exact h
  split
  · refine judged_judgeOverflow ?_
    have quiet := changes_recompute account.address (bindPort account.address account.port none
      { s with accounts := s.accounts.filter (·.number != account.number) })
    unfold highJudged
    rw [quiet.same .journal]
    exact h.1
  · rename_i hclear
    refine judged_recompute _ (judged_of_same (s := s) rfl rfl (Bool.eq_iff_iff.2 ?_) h)
    change (s.accounts.filter (·.number != account.number)).any (·.overflow) = true ↔ s.accounts.any (·.overflow) = true
    rw [List.any_eq_true, List.any_eq_true]
    refine ⟨fun ⟨b, hb, hf⟩ => ⟨b, List.mem_of_mem_filter hb, hf⟩, fun ⟨b, hb, hf⟩ => ⟨b, List.mem_filter.2 ⟨hb, ?_⟩, hf⟩⟩
    rw [bne_iff_ne]
    intro hn
    rw [eq_of_number hrising hmem hb hn] at hf
    exact hclear hf

theorem judged_switchover {s : State} (h : judged s) : judged (switchoverTakeStep s) := by
  unfold switchoverTakeStep
  split
  · exact h
  dsimp only
  split
  swap
  · exact h
  unfold takeSwitchover
  dsimp only
  have recorded (b : Nat) (body : RecordBody) (l : Lineup) (d : Deliveries) :
      judged (convertReservation b body { s with lineup := l, due := d }) := judged_convertReservation b body h
  rename_i b rest _ _
  have handed := recorded b (.switchover (switchLineup b s.lineup).active.version) (switchLineup b s.lineup)
    { s.due with boundaries := rest }
  generalize convertReservation _ _ _ = u at handed ⊢
  have quiet (named : List Nat) : Changes (.carrier :: tapBlocks) u
      (switchoverTaps named { u with carrier := { u.carrier with cursor := 0 } }) :=
    .after_put (changes_switchoverTaps _ _).mono
  unfold judgeAllSources
  refine foldl_keeps (p := judged) (f := fun v i => judgeSourceLost i v)
    (fun i _ v hv => judged_of_same (s := v) rfl rfl rfl hv) ?_
  exact judged_of_same ((quiet _).same .journal) (by rw [(quiet _).same .meter]) (by rw [(quiet _).same .accounts]) handed

/-- A restart judges both. -/
theorem judged_restartUp {s : State} (h : s.phase = .comingUp) : judged (restartUpStep s) := by
  unfold restartUpStep rejudge
  rw [if_pos h]
  dsimp only
  split
  · exact ⟨rfl, rfl⟩
  · exact ⟨rfl, rfl⟩

theorem judged_cold (s : State) : judged (coldReset s) := ⟨rfl, rfl⟩

/-! ### The commands -/

/-- The rules hold in a running part after every command. -/
theorem commandStep_judged (c : Instr) {s : State} (hrising : rising (s.accounts.map (·.number)))
    (h : s.phase = .running → judged s) : (commandStep c s).phase = .running → judged (commandStep c s) := by
  by_cases hp : s.phase = .running
  · have hs := h hp
    have quiet (hjournal : (commandStep c s).journal = s.journal) (hmeter : (commandStep c s).meter = s.meter)
        (haccounts : (commandStep c s).accounts = s.accounts) : judged (commandStep c s) :=
      judged_of_same hjournal (by rw [hmeter]) (by rw [haccounts]) hs
    have request {owner : State → State × Reply}
        (ho : ∀ u, rising (u.accounts.map (·.number)) → judged u → judged (owner u).1) : judged (serve c owner s) := by
      unfold serve
      split
      · rename_i u hu
        obtain ⟨-, -, ⟨-, rfl⟩ | ⟨rest, -, rfl⟩⟩ := claimRequest_cases hu
        · exact ho _ hrising hs
        · exact ho { s with link := { s.link with inbound := rest } } hrising hs
      · exact whenRunning_keeps (p := judged) hs id
    have retained (kind : ResetKind) (u : State) : (retainedReset kind u).phase = .running → judged (retainedReset kind u) :=
      fun hr => nomatch hr
    cases c
    case switchoverSchedule =>
      refine fun _ => request fun u _ hu => ?_
      unfold switchoverScheduleStep
      repeat' split
      all_goals first
        | exact hu
        | exact judged_takeReservation hu
    case switchoverCancel =>
      refine fun _ => request fun u _ hu => ?_
      unfold switchoverCancelStep
      split
      · exact judged_releaseReservation hu
      · exact hu
    case accountOpen => exact fun _ => request fun _ _ => judged_accountOpen
    case accountTiers =>
      exact fun _ => request fun _ _ => accountTiers_keeps (p := judged) (fun _ => judged_changeAccount (by exact fun _ => rfl))
        fun _ _ => judged_recompute _
    case accountHold =>
      exact fun _ => request fun _ _ => accountMove_keeps (p := judged) (fun _ => judged_changeAccount (by exact fun _ => rfl))
        fun _ _ => judged_recompute _
    case accountResume =>
      exact fun _ => request fun _ _ => accountMove_keeps (p := judged) (fun _ => judged_changeAccount (by exact fun _ => rfl))
        fun _ _ => judged_recompute _
    case accountCut =>
      exact fun _ => request fun _ _ => accountMove_keeps (p := judged) (fun _ => judged_changeAccount (by exact fun _ => rfl))
        fun _ _ => judged_recompute _
    case accountRestore =>
      exact fun _ => request fun _ _ => accountMove_keeps (p := judged) (fun _ => judged_changeAccount (by exact fun _ => rfl))
        fun _ _ => judged_recompute _
    case accountClose => exact fun _ => request fun _ hr => judged_accountClose hr
    case cycleClose => exact fun _ => request fun _ _ => judged_cycleClose
    case eventCancel => exact fun _ => request fun _ _ => judged_keptByEvents.eventCancel
    case purchaseEnter => exact fun _ => request fun _ _ => purchaseEnter_keeps judged_keptByPurchases
    case journalRelease =>
      refine fun _ => request fun u _ hu => ?_
      unfold journalReleaseStep
      split
      · exact hu
      split
      · exact hu
      · exact judged_putJournal _ hu
    case firstPower => exact fun _ => judged_cold s
    case mainPowerReturn =>
      exact mainPowerReturn_keeps (p := fun u => u.phase = .running → judged u) (fun _ => judged_cold s)
        (fun _ _ _ => retained _ _) fun _ => hs
    case resetPin =>
      exact resetPin_keeps (p := fun u => u.phase = .running → judged u) (fun u hu hr => by
        have quiet := changes_stopClock u
        rw [quiet.same .phase] at hr
        exact judged_of_same (quiet.same .journal) (by rw [quiet.same .meter]) (by rw [quiet.same .accounts]) (hu hr))
        (fun _ _ _ => retained _ _) fun _ => hs
    case outboundFrameDone =>
      refine whenRunning_keeps (p := fun u => u.phase = .running → judged u) (fun _ => hs) fun _ => ?_
      obtain hr | hr := outboundFrameDoneStep_cases s <;> rw [hr]
      · have quiet := changes_chooseFrame s
        exact fun _ => judged_of_same (quiet.same .journal) (by rw [quiet.same .meter]) (by rw [quiet.same .accounts]) hs
      · exact retained _ _
    case restartUp =>
      refine fun _ => ?_
      change judged (restartUpStep s)
      rw [restartUpStep, if_neg (by rw [hp]; decide)]
      exact hs
    case restartEventStep => exact fun _ => whenRunning_keeps hs judged_keptByEvents.events.restartEvent
    case gapRecord =>
      refine fun _ => whenRunning_keeps hs fun hs => ?_
      unfold gapRecordStep
      split
      · dsimp only
        split
        · exact judged_plainWrite (s := { s with due := { s.due with gapRecord := false } }) _ _ hs
        · exact hs
      · exact hs
    case meterTallyTake => exact fun _ => whenRunning_keeps hs judged_keptByMeter.meterTallyTake
    case eventMinuteEnd => exact fun _ => whenRunning_keeps hs judged_keptByEvents.events.eventMinuteEnd
    case switchoverTake => exact fun _ => whenRunning_keeps hs judged_switchover
    case purchaseDecide =>
      exact fun _ => whenRunning_keeps hs (purchaseDecide_keeps
        (fun u v hc h => judged_of_same (s := u) (t := v) (hc.same .journal) (by rw [hc.same .meter]) (by rw [hc.same .accounts]) h)
        judged_keptByPurchases)
    all_goals
      exact fun _ => quiet ((commandStep_changes _ s).same .journal) ((commandStep_changes _ s).same .meter)
        ((commandStep_changes _ s).same .accounts)
  · cases c
    case firstPower => exact fun _ => judged_cold s
    case mainPowerReturn =>
      exact mainPowerReturn_keeps (p := fun u => u.phase = .running → judged u) (fun _ => judged_cold s)
        (fun _ _ _ hr => nomatch hr) fun hr => absurd hr hp
    case resetPin =>
      intro hr
      change (resetPinStep s).phase = .running at hr
      obtain hreset | ⟨-, hreset⟩ := resetPinStep_cases s <;> rw [hreset] at hr
      · exact absurd hr hp
      · cases hr
    case mainPowerLoss =>
      intro hr
      change (mainPowerLossStep s).phase = .running at hr
      unfold mainPowerLossStep at hr
      split at hr
      · exact absurd hr hp
      · unfold judgeRetention at hr
        split at hr <;> cases hr
    case outboundFrameDone =>
      intro hr
      refine absurd (show s.phase = .running from ?_) hp
      change (whenRunning outboundFrameDoneStep s).phase = .running at hr
      rw [whenRunning, if_neg hp] at hr
      exact hr
    case restartUp =>
      intro hr
      change (restartUpStep s).phase = .running at hr
      by_cases hup : s.phase = .comingUp
      · exact judged_restartUp hup
      · rw [restartUpStep, if_neg hup] at hr
        exact absurd hr hp
    all_goals exact fun hr => absurd (((commandStep_changes _ s).same .phase).symm.trans hr) hp

/-- Every command that a part on main power takes keeps the copies. -/
theorem commandStep_copied {c : Instr} (hunit : namesUnit c) {s : State} (h : Copied s) : Copied (commandStep c s) := by
  have link (u : State) (l : Link) (hu : Copied u) : Copied { u with link := l } := hu.of_unread (.of_put rfl)
  have request {owner : State → State × Reply} (ho : ∀ u, Copied u → Copied (owner u).1) : Copied (serve c owner s) :=
    serve_keeps (p := Copied) link h ho
  have settings {f : State → State × Reply} (hc : ∀ u, Changes [.alarms] u (f u).1)
      (hf : ∀ u, conditionsOf u.alarms (f u).1.alarms) : Copied (serve c f s) :=
    request fun u hu => hu.of_alarms (hc u).mono fun i hi => hf u i hi
  have stop (u : State) (hu : Copied u) : Copied (stopClock u) := hu.of_unread (changes_stopClock u).mono
  have retained (kind : ResetKind) (u : State) (hu : Copied u) : Copied (retainedReset kind u) :=
    copied_retainedReset kind hu.fits hu.switching
  have account {f : Account → Account} {k : Nat} (u : State) (hu : Copied u) : Copied (changeAccount k f u) :=
    copied_changeAccount k f hu
  have tap (a : Nat) (u : State) (hu : Copied u) : Copied (recompute a u) := copied_recompute a hu
  cases c
  case lineupPut => exact request fun _ => copied_lineupPut
  case lineupDrop => exact request fun _ => copied_lineupDrop
  case tierRateSet => exact request fun _ => copied_tierRateSet
  case switchoverSchedule => exact request fun _ => copied_schedule
  case switchoverCancel => exact request fun _ => copied_cancel
  case tapAdd => exact request fun _ => copied_tapAdd
  case tapRemove => exact request fun _ => copied_tapRemove
  case nodeConfig => exact request fun _ => copied_nodeConfig
  case accountOpen => exact request fun _ => copied_accountOpen
  case accountTiers => exact request fun _ => accountTiers_keeps account tap
  case accountHold => exact request fun _ => accountMove_keeps account tap
  case accountResume => exact request fun _ => accountMove_keeps account tap
  case accountCut => exact request fun _ => accountMove_keeps account tap
  case accountRestore => exact request fun _ => accountMove_keeps account tap
  case accountClose => exact request fun _ => copied_accountClose
  case cycleClose => exact request fun _ => copied_keptByMoney.cycleClose
  case eventCancel => exact request fun _ => copied_keptByEvents.eventCancel
  case purchaseEnter => exact request fun _ => purchaseEnter_keeps copied_keptByPurchases
  case journalRelease => exact request fun _ => copied_journalRelease
  case alarmSet => exact settings (changes_alarmSetStep _ _ _ _) fun u => (conditionsOf_keptBySettings u.alarms).alarmSet fun _ _ => rfl
  case compositeDefine =>
    exact settings (changes_compositeDefineStep _ _ _ _ _) fun u => (conditionsOf_keptBySettings u.alarms).compositeDefine fun _ _ => rfl
  case compositeRelease =>
    exact settings (changes_compositeReleaseStep _) fun u => (conditionsOf_keptBySettings u.alarms).compositeRelease fun _ _ => rfl
  case alarmExpress =>
    exact settings (changes_alarmExpressStep _ _) fun u => (conditionsOf_keptBySettings u.alarms).alarmExpress fun _ _ => rfl
  case alarmAck => exact settings (changes_alarmAckStep _) fun u => (conditionsOf_keptBySettings u.alarms).alarmAck fun _ _ => rfl
  case alarmDefer => exact settings (changes_alarmDeferStep _) fun u => (conditionsOf_keptBySettings u.alarms).alarmDefer fun _ _ => rfl
  case firstPower => exact copied_coldReset s
  case mainPowerReturn => exact mainPowerReturn_keeps (copied_coldReset s) retained h
  case resetPin => exact resetPin_keeps stop retained h
  case outboundFrameDone =>
    refine whenRunning_keeps h (outboundFrameDone_keeps (fun hs => ?_) stop retained)
    exact hs.of_alarms (changes_chooseFrame s).mono ((conditionsOf_keptBySettings s.alarms).chooseFrame fun _ _ => rfl)
  case restartUp => exact copied_restartUp h
  case restartEventStep => exact whenRunning_keeps h copied_keptByEvents.events.restartEvent
  case gapRecord => exact whenRunning_keeps h copied_gapRecord
  case secondTick => exact copied_secondTick h
  case monitorMinuteEnd => exact whenRunning_keeps h copied_monitorMinuteEnd
  case meterTallyTake =>
    refine whenRunning_keeps h (copied_keptByMoney.meter (fun b u hu => ?_) fun _ u hu => hu.of_unread (.of_put rfl)).meterTallyTake
    have quiet : Changes [.meter] u (fixBoundaryTariff b u) := .of_put rfl
    exact hu.of_agrees (quiet.same .taps) (quiet.same .commandQueue) (quiet.same .inputs) rfl
      (hu.agrees.of_owners (quiet.same .alarms) fun x _ _ => by cases x <;> rfl)
  case eventMinuteEnd => exact whenRunning_keeps h copied_keptByEvents.events.eventMinuteEnd
  case switchoverTake => exact whenRunning_keeps h copied_switchoverTake
  case sourceLevelChange i high => exact copied_sourceLevelChange hunit high h
  case sourceDebounceVerdict => exact whenRunning_keeps h (copied_sourceDebounceVerdict hunit)
  case restoreHoldExpiry => exact whenRunning_keeps h (copied_restoreHoldExpiry hunit)
  case slotOpen => exact whenRunning_keeps h copied_slotOpen
  case replyWindowClose => exact whenRunning_keeps h copied_replyWindow
  case purchaseDecide =>
    exact whenRunning_keeps h (purchaseDecide_keeps (fun _ _ hc hu => hu.of_unread hc.mono) copied_keptByPurchases)
  all_goals exact h.of_unread (commandStep_changes _ s).mono

/-! ### A part without main power -/

/-- Without main power no tap changes but at a reset, and no other command restores the power. -/
theorem commandStep_dark (c : Instr) {s : State} (h : s.phase = .mainLost) :
    ((commandStep c s).taps = s.taps ∧ (commandStep c s).phase = .mainLost) ∨ commandStep c s = coldReset s ∨
      commandStep c s = retainedReset .power s := by
  have hp : s.phase ≠ .running := by
    rw [h]
    decide
  have stands (u : State) (hu : u = s) :
      (u.taps = s.taps ∧ u.phase = .mainLost) ∨ u = coldReset s ∨ u = retainedReset .power s := by
    rw [hu]
    exact .inl ⟨rfl, h⟩
  have idle (f : State → State) : whenRunning f s = s := if_neg hp
  have request (owner : State → State × Reply) : serve c owner s = s := by
    unfold serve
    split
    · rename_i u hu
      obtain ⟨hmay, -⟩ := claimRequest_cases hu
      simp [mayExecute, hp] at hmay
    · exact idle _
  cases c
  case firstPower => exact .inr (.inl rfl)
  case mainPowerReturn =>
    obtain hr | hr | ⟨-, -, hr⟩ := mainPowerReturnStep_cases s
    · exact stands _ hr
    · exact .inr (.inl hr)
    · exact .inr (.inr hr)
  case resetPin =>
    obtain hr | ⟨hlive, -⟩ := resetPinStep_cases s
    · exact stands _ hr
    · exact absurd h hlive
  case mainPowerLoss => exact stands _ (if_pos h)
  case restartUp => exact stands _ (if_neg (by rw [h]; decide))
  case tapAdd => exact stands _ (request _)
  case tapRemove => exact stands _ (request _)
  case accountOpen => exact stands _ (request _)
  case accountTiers => exact stands _ (request _)
  case accountHold => exact stands _ (request _)
  case accountResume => exact stands _ (request _)
  case accountCut => exact stands _ (request _)
  case accountRestore => exact stands _ (request _)
  case accountClose => exact stands _ (request _)
  case eventCancel => exact stands _ (request _)
  case purchaseEnter => exact stands _ (request _)
  case outboundFrameDone => exact stands _ (idle _)
  case restartEventStep => exact stands _ (idle _)
  case eventMinuteEnd => exact stands _ (idle _)
  case switchoverTake => exact stands _ (idle _)
  case slotOpen => exact stands _ (idle _)
  case replyWindowClose => exact stands _ (idle _)
  case purchaseDecide => exact stands _ (idle _)
  all_goals exact .inl ⟨(commandStep_changes _ s).same .taps, ((commandStep_changes _ s).same .phase).trans h⟩

/-! ### The conditions of a state -/

/-- The rules of the conditions, by the copies and the owners. -/
theorem conditionsSound_iff {s : State} :
    conditionsSound s ↔ rising (s.accounts.map (·.number)) ∧ removalsClear s ∧
      (s.phase ≠ .mainLost → agrees s ∧ lostSound s) ∧ (s.phase = .running → judged s) := by
  have copies : copiesAgree s ↔ agrees s ∧ lostSound s := by
    constructor
    · rintro ⟨nodes, inputs, high, overflow⟩
      refine ⟨fun x hx _ => ?_, fun i hi => (inputs i (mem_upTo.2 hi)).2⟩
      cases x with
      | outage n => exact (nodes n (mem_upTo.2 hx)).1
      | degraded n => exact (nodes n (mem_upTo.2 hx)).2.1
      | power n => exact (nodes n (mem_upTo.2 hx)).2.2.1
      | levelStep n => exact (nodes n (mem_upTo.2 hx)).2.2.2.1
      | fault n => exact (nodes n (mem_upTo.2 hx)).2.2.2.2
      | lost i => exact (inputs i (mem_upTo.2 hx)).1
      | high => exact high
      | overflow => exact overflow
    · rintro ⟨agree, lost⟩
      refine ⟨fun n hn => ?_, fun i hi => ⟨agree (.lost i) (mem_upTo.1 hi) id, lost i (mem_upTo.1 hi)⟩,
        agree .high trivial id, agree .overflow trivial id⟩
      have hn' := mem_upTo.1 hn
      exact ⟨agree (.outage n) hn' id, agree (.degraded n) hn' id, agree (.power n) hn' id, agree (.levelStep n) hn' id,
        agree (.fault n) hn' id⟩
  exact and_congr Iff.rfl (and_congr Iff.rfl (and_congr (imp_congr Iff.rfl copies) Iff.rfl))

/-- Account numbers rise in every state with a sound directory. -/
theorem unitsRising_kept : KeptByUnits fun s => unitsSound s ∧ rising (s.accounts.map (·.number)) where
  same s t h hs := by
    refine ⟨unitsSound_kept.same s t h hs.1, ?_⟩
    have numbers := congrArg (List.map fun key : Nat × Nat × Nat => key.1) h.2.2.2
    rw [List.map_map, List.map_map] at numbers
    exact (show t.accounts.map (·.number) = s.accounts.map (·.number) from numbers) ▸ hs.2
  rising s h := unitsSound_kept.rising s h.1
  turn s h := ⟨unitsSound_kept.turn s h.1, h.2⟩
  cold s := ⟨unitsSound_kept.cold s, .nil⟩
  tapAdd address node model s h := by
    refine ⟨unitsSound_kept.tapAdd address node model s h.1, ?_⟩
    rw [(changes_tapAddStep address node model s).same .accounts]
    exact h.2
  tapRemove address s h := by
    refine ⟨unitsSound_kept.tapRemove address s h.1, ?_⟩
    rw [(changes_tapRemoveStep address s).same .accounts]
    exact h.2
  transponderSet n address s h := by
    refine ⟨unitsSound_kept.transponderSet n address s h.1, ?_⟩
    rw [(changes_transponderSetStep n address s).same .accounts]
    exact h.2
  accountOpen k a port tiers state s h := by
    refine ⟨unitsSound_kept.accountOpen k a port tiers state s h.1, ?_⟩
    obtain h' | ⟨t, account, -, -, hfree, -, -, -, h'⟩ := accountOpenStep_cases k a port tiers state s <;> rw [h']
    · exact h.2
    rw [(changes_recompute _ _).same .accounts]
    change rising ((insertAccount account s.accounts).map (·.number))
    rw [insertAccount_eq]
    exact rising_insertKeyed h.2 hfree
  accountClose k s h := by
    refine ⟨unitsSound_kept.accountClose k s h.1, ?_⟩
    obtain h' | ⟨account, -, -, freed, rfl, h'⟩ := accountCloseStep_cases k s <;> rw [h']
    · exact h.2
    have left : rising ((s.accounts.filter (·.number != account.number)).map (·.number)) :=
      h.2.sublist (List.filter_sublist.map _)
    have freed : rising ((recompute account.address (bindPort account.address account.port none
        { s with accounts := s.accounts.filter (·.number != account.number) })).accounts.map (·.number)) := by
      rw [(changes_recompute _ _).same .accounts]
      exact left
    split
    · exact freed
    · exact freed

/-- The copies and removals after any command. -/
theorem commandStep_copies {c : Instr} (hunit : namesUnit c) {s : State} (hfits : tapsFit (fun n => 1 ≤ n ∧ n ≤ 32) s)
    (hswitching : switchingSound s) (hclear : removalsClear s) (hcopies : s.phase ≠ .mainLost → agrees s ∧ lostSound s) :
    removalsClear (commandStep c s) ∧
      ((commandStep c s).phase ≠ .mainLost → agrees (commandStep c s) ∧ lostSound (commandStep c s)) := by
  have whole {t : State} (h : Copied t) : removalsClear t ∧ (t.phase ≠ .mainLost → agrees t ∧ lostSound t) :=
    ⟨h.clear, fun _ => ⟨h.agrees, h.lost⟩⟩
  by_cases hp : s.phase = .mainLost
  · obtain ⟨htaps, hphase⟩ | h | h := commandStep_dark c hp
    · exact ⟨fun t ht => hclear t (htaps ▸ ht), fun hne => absurd hphase hne⟩
    · rw [h]
      exact whole (copied_coldReset s)
    · rw [h]
      exact whole (copied_retainedReset .power hfits hswitching)
  · obtain ⟨hagrees, hlost⟩ := hcopies hp
    exact whole (commandStep_copied hunit ⟨hfits, hswitching, hclear, hagrees, hlost⟩)

/-- Settles O59: the switching records by themselves; the copies by the owner's condition given behind every change of it,
and the owners' rules by their judgement behind every change of what they read. -/
theorem conditionCopiesAgree : Obligations.ConditionCopiesAgree := by
  intro s t h switching
  refine ⟨step_keeps (p := switchingSound) (fun _ _ h => h) (fun c _ _ => commandStep_switchingSound c) h switching,
    fun directory conditions => ?_⟩
  refine conditionsSound_iff.2 (step_keeps (p := fun u => (unitsSound u ∧ rising (u.accounts.map (·.number))) ∧
    switchingSound u ∧ removalsClear u ∧ (u.phase ≠ .mainLost → agrees u ∧ lostSound u) ∧ (u.phase = .running → judged u))
    (fun u cs hu => ?_) (fun c u hunit hu => ?_) h ?_ |> fun ht => ⟨ht.1.2, ht.2.2⟩)
  · exact hu
  · obtain ⟨units, hswitching, hclear, hcopies, hjudged⟩ := hu
    have fits := tapsFit_of_directorySound (directorySound_iff.2 units.1)
    obtain ⟨clear, copies⟩ := commandStep_copies hunit fits hswitching hclear hcopies
    exact ⟨unitsRising_kept.command c units, commandStep_switchingSound c hswitching, clear, copies,
      commandStep_judged c units.2 hjudged⟩
  · obtain ⟨hrising, hclear, hcopies, hjudged⟩ := conditionsSound_iff.1 conditions
    exact ⟨⟨directorySound_iff.1 directory, hrising⟩, switching, hclear, hcopies, hjudged⟩

end Sys2Proof.Machine
end

section
/-! SUPPORT. A switchover taken at its boundary (R23, R24, R101): what becomes of each tap, and of SOURCE_LOST. -/

namespace Sys2Proof.Machine

/-! ### One recomputation as a change of the tap and of the queue (R93, R94) -/

/-- A change of the tap found puts what it makes of that tap in its place. -/
theorem modifyTap_eq_put {taps : List TapRec} (h : rising (taps.map (·.address))) {t : TapRec}
    (ht : findTap t.address taps = some t) (f : TapRec → TapRec) :
    modifyTap t.address f taps = modifyTap t.address (fun _ => f t) taps :=
  modifyTap_congr h ht rfl

theorem modifyTap_put_self {taps : List TapRec} (h : rising (taps.map (·.address))) {t : TapRec}
    (ht : findTap t.address taps = some t) : modifyTap t.address (fun _ => t) taps = taps :=
  (modifyTap_eq_put h ht id).symm.trans
    ((List.map_congr_left fun r _ => ite_self r).trans (List.map_id _))

/-- The command queue after the recomputation of a tap. -/
def requeue (a : Nat) (agrees : Bool) (queue : List Nat) : List Nat :=
  if agrees then queue.filter fun x => x ≠ a else if a ∈ queue then queue else queue ++ [a]

/-- A tap's record after its recomputation. -/
def recomputedTap (s : State) (t : TapRec) (queued : Bool) : TapRec := { t with switching := { t.switching with
  desired := deriveSetting s t,
  attempts := if confirms t.switching.confirmed (deriveSetting s t) = queued then 0 else t.switching.attempts } }

theorem requeued_eq {s : State} {t : TapRec} (ht : findTap t.address s.taps = some t)
    (hrising : rising (s.taps.map (·.address))) (attempts : Nat) (queue : List Nat) :
    requeued t attempts queue s = { s with
      commandQueue := queue
      taps := modifyTap t.address
        (fun _ => { t with switching := { t.switching with desired := deriveSetting s t, attempts := attempts } })
        s.taps } := by
  rw [requeued]
  exact congrArg (fun taps => { s with commandQueue := queue, taps := taps }) (modifyTap_eq_put hrising ht _)

theorem recompute_eq_requeue {s : State} {t : TapRec} (ht : findTap t.address s.taps = some t)
    (hlive : t.state ≠ .removing) (hrising : rising (s.taps.map (·.address))) :
    recompute t.address s = { s with
      commandQueue := requeue t.address (confirms t.switching.confirmed (deriveSetting s t)) s.commandQueue
      taps := modifyTap t.address (fun _ => recomputedTap s t (s.commandQueue.contains t.address)) s.taps } := by
  rw [recompute_eq ht hlive hrising]
  simp only [requeued_eq ht hrising, recomputedTap, requeue]
  by_cases hq : t.address ∈ s.commandQueue <;> cases hc : confirms t.switching.confirmed (deriveSetting s t)
  · simp [hq]
  · simp [hq]
  · simp [hq]
  · have hsame : (s.commandQueue.filter fun x => x ≠ t.address) = s.commandQueue :=
      List.filter_eq_self.2 fun x hx => decide_eq_true fun h => hq (h ▸ hx)
    simp only [hq, if_false, if_true, hsame, List.contains_iff_mem, Bool.true_eq]

/-! ### What becomes of a tap (R101) -/

section
variable (s : State) (named : List Nat)

/-- The stale mark that is due. -/
def markDue (t : TapRec) : Bool := if t.state = .removing then t.stale else isStale s t

/-- The tap is recomputed. -/
def isRemade (t : TapRec) : Bool :=
  t.state != .removing && (markDue s t != t.stale ||
    (grantsAny named t.switching.desired || t.switching.confirmed.any (grantsAny named)))

/-- The desired setting that is due. -/
def settingDue (t : TapRec) : TapSetting :=
  if isRemade s named t then deriveSetting s { t with stale := markDue s t } else t.switching.desired

/-- The confirmed setting agrees with the desired setting that is due. -/
def isSettled (t : TapRec) : Bool := confirms t.switching.confirmed (settingDue s named t)

/-- The tap's record once the switchover is taken. -/
def tapTaken (queued : Bool) (t : TapRec) : TapRec := { t with
  stale := markDue s t
  switching := { t.switching with
    desired := settingDue s named t
    attempts := if isRemade s named t ∧ isSettled s named t = queued then 0 else t.switching.attempts } }

/-- The command queue once one tap is taken. -/
def queueTaken (t : TapRec) (queue : List Nat) : List Nat :=
  if isRemade s named t then requeue t.address (isSettled s named t) queue else queue

end

section
variable {s : State} {named : List Nat} {t : TapRec}

theorem isRemade_removing (h : t.state = .removing) : isRemade s named t = false := by
  rw [isRemade, h]
  rfl

theorem tapTaken_of_not_remade (h : isRemade s named t = false) (queued : Bool) :
    tapTaken s named queued t = t := by
  have mark : markDue s t = t.stale := by
    by_cases hr : t.state = .removing
    · exact if_pos hr
    · simp only [isRemade, bne_iff_ne.2 hr, Bool.true_and, Bool.or_eq_false_iff, bne_eq_false_iff_eq] at h
      exact h.1
  simp only [tapTaken, settingDue, mark, h, Bool.false_eq_true, if_false, false_and]

/-- A tap not in REMOVING that the taking of a switchover leaves alone. -/
theorem isRemade_live (h : t.state ≠ .removing) :
    isRemade s named t = (isStale s t != t.stale ||
      (grantsAny named t.switching.desired || t.switching.confirmed.any (grantsAny named))) := by
  rw [isRemade, markDue, if_neg h, bne_iff_ne.2 h, Bool.true_and]

theorem tapTaken_remade (h : isRemade s named t = true) (queued : Bool) :
    tapTaken s named queued t = recomputedTap s { t with stale := markDue s t } queued := by
  simp only [tapTaken, recomputedTap, isSettled, settingDue, h, if_true, true_and]

/-- The tap's record and the queue are all that the switchover's step on one tap changes. -/
theorem switchoverTap_eq (ht : findTap t.address s.taps = some t) (hrising : rising (s.taps.map (·.address))) :
    switchoverTap named t.address s = { s with
      commandQueue := queueTaken s named t s.commandQueue
      taps := modifyTap t.address (fun _ => tapTaken s named (s.commandQueue.contains t.address) t) s.taps } := by
  have untouched (h : isRemade s named t = false) : s = { s with
      commandQueue := queueTaken s named t s.commandQueue
      taps := modifyTap t.address (fun _ => tapTaken s named (s.commandQueue.contains t.address) t) s.taps } := by
    rw [tapTaken_of_not_remade h, modifyTap_put_self hrising ht, queueTaken, h]
    rfl
  unfold switchoverTap
  rw [ht]
  dsimp only
  by_cases hremoving : t.state = .removing
  · rw [if_pos hremoving]
    exact untouched (isRemade_removing hremoving)
  have mark : markDue s t = isStale s t := if_neg hremoving
  have remade := isRemade_live (s := s) (named := named) hremoving
  rw [if_neg hremoving]
  by_cases hstale : (isStale s t != t.stale) = true
  · rw [if_pos (bne_comm.trans hstale)]
    rw [hstale, Bool.true_or] at remade
    rw [tapTaken_remade remade, queueTaken, if_pos remade, isSettled, settingDue, if_pos remade, mark,
      evaluateStale_eq ht hrising, if_neg (bne_iff_ne.1 hstale).symm]
    have hkeep (r : TapRec) : { r with stale := isStale s t }.address = r.address := rfl
    generalize hu : ({ s with taps := modifyTap t.address (fun r => { r with stale := isStale s t }) s.taps } : State) = u
    have hfind : findTap t.address u.taps = some { t with stale := isStale s t } := by
      rw [← hu]
      exact (findTap_modifyTap _ _ _ hkeep _).trans (by rw [ht]; exact congrArg some (if_pos rfl))
    have hu' : rising (u.taps.map (·.address)) := by
      rw [← hu]
      exact (modifyTap_addresses _ _ hkeep _).symm ▸ hrising
    have hrec := recompute_eq_requeue (t := { t with stale := isStale s t }) hfind hremoving hu'
    refine hrec.trans ?_
    rw [← hu]
    dsimp only
    rw [modifyTap_modifyTap _ _ _ hkeep]
    rfl
  · rw [if_neg (bne_comm (a := t.stale) ▸ hstale)]
    rw [Bool.not_eq_true] at hstale
    have same : ({ t with stale := markDue s t } : TapRec) = t := by
      rw [mark, bne_eq_false_iff_eq.1 hstale]
    rw [hstale, Bool.false_or] at remade
    by_cases hgrants : (grantsAny named t.switching.desired || t.switching.confirmed.any (grantsAny named)) = true
    · rw [if_pos hgrants]
      rw [hgrants] at remade
      rw [tapTaken_remade remade, queueTaken, if_pos remade, isSettled, settingDue, if_pos remade, same]
      exact recompute_eq_requeue ht hremoving hrising
    · rw [if_neg hgrants]
      exact untouched (remade.trans (Bool.not_eq_true _ ▸ hgrants))

end

/-! ### All taps, in ascending order of address -/

section
variable (s : State) (named : List Nat)

/-- The switchover has been taken by the taps of one list, and by those of the other not yet. -/
def tapsTaken (done rest : List TapRec) : State := { s with
  taps := done.map (fun t => tapTaken s named (s.commandQueue.contains t.address) t) ++ rest
  commandQueue :=
    (s.commandQueue.filter fun a => ∀ t ∈ done, t.address = a → ¬(isRemade s named t ∧ isSettled s named t)) ++
      (done.filter fun t => isRemade s named t ∧ ¬isSettled s named t ∧ t.address ∉ s.commandQueue).map (·.address) }

variable {s named}

theorem tapsTaken_addresses (done rest : List TapRec) :
    (tapsTaken s named done rest).taps.map (·.address) = (done ++ rest).map (·.address) := by
  simp only [tapsTaken, List.map_append, List.map_map]
  rfl

theorem contains_tapsTaken {done rest : List TapRec} {t : TapRec} (hfresh : ∀ r ∈ done, r.address ≠ t.address) :
    (tapsTaken s named done rest).commandQueue.contains t.address = s.commandQueue.contains t.address := by
  refine Bool.eq_iff_iff.2 ?_
  simp only [List.contains_iff_mem, tapsTaken, List.mem_append, List.mem_filter, List.mem_map, decide_eq_true_eq]
  refine ⟨?_, fun h => .inl ⟨h, fun r hr ha => absurd ha (hfresh r hr)⟩⟩
  rintro (⟨h, -⟩ | ⟨r, ⟨hr, -⟩, ha⟩)
  · exact h
  · exact absurd ha (hfresh r hr)

theorem queueTaken_tapsTaken {done rest : List TapRec} {t : TapRec} (hfresh : ∀ r ∈ done, r.address ≠ t.address) :
    queueTaken s named t (tapsTaken s named done rest).commandQueue =
      (tapsTaken s named (done ++ [t]) rest).commandQueue := by
  have hmem := contains_tapsTaken (s := s) (named := named) (rest := rest) hfresh
  rw [Bool.eq_iff_iff, List.contains_iff_mem, List.contains_iff_mem] at hmem
  have others : ∀ x ∈ (done.filter fun r => isRemade s named r ∧ ¬isSettled s named r ∧ r.address ∉ s.commandQueue).map
      (·.address), x ≠ t.address := by
    intro x hx
    obtain ⟨r, hr, rfl⟩ := List.mem_map.1 hx
    exact hfresh r (List.mem_of_mem_filter hr)
  unfold queueTaken requeue
  simp only [hmem]
  simp only [tapsTaken, List.filter_append, List.map_append, List.forall_mem_append, List.forall_mem_singleton]
  cases hr : isRemade s named t <;> cases hs : isSettled s named t
  · simp [hr]
  · simp [hr]
  · by_cases hq : t.address ∈ s.commandQueue
    · simp [hr, hs, hq]
    · simp [hr, hs, hq]
  · simp only [if_true, List.filter_filter, hr, hs, List.filter_singleton]
    rw [List.filter_eq_self.2 fun x hx => decide_eq_true (others x hx)]
    simp [Bool.and_comm, eq_comm (a := t.address)]

theorem foldl_switchoverTap (done rest : List TapRec) (hrising : rising ((done ++ rest).map (·.address))) :
    rest.foldl (fun u t => switchoverTap named t.address u) (tapsTaken s named done rest) =
      tapsTaken s named (done ++ rest) [] := by
  induction rest generalizing done with
  | nil => rw [List.foldl_nil, List.append_nil]
  | cons t rest ih =>
    have haddresses := tapsTaken_addresses (s := s) (named := named) done (t :: rest)
    have hu : rising ((tapsTaken s named done (t :: rest)).taps.map (·.address)) := haddresses ▸ hrising
    have ht : findTap t.address (tapsTaken s named done (t :: rest)).taps = some t :=
      findTap_of_mem hu (List.mem_append_right _ (.head _))
    have hnodup := hrising.nodup
    have fresh : ∀ r ∈ done, r.address ≠ t.address := by
      rw [List.map_append, List.nodup_append] at hnodup
      exact fun r hr => hnodup.2.2 _ (List.mem_map_of_mem hr) _ (.head _)
    have later : ∀ r ∈ rest, r.address ≠ t.address := by
      rw [List.map_append, List.map_cons] at hnodup
      have := (List.nodup_cons.1 hnodup.of_append_right).1
      exact fun r hr ha => this (ha ▸ List.mem_map_of_mem hr)
    have hstep : switchoverTap named t.address (tapsTaken s named done (t :: rest)) =
        tapsTaken s named (done ++ [t]) rest := by
      rw [switchoverTap_eq ht hu, contains_tapsTaken fresh]
      have hqueue := queueTaken_tapsTaken (s := s) (named := named) (rest := rest) fresh
      have htaps : modifyTap t.address (fun _ => tapTaken s named (s.commandQueue.contains t.address) t)
          (tapsTaken s named done (t :: rest)).taps = (tapsTaken s named (done ++ [t]) rest).taps := by
        simp only [tapsTaken, modifyTap, List.map_append, List.map_cons, List.map_nil, if_true, List.append_assoc,
          List.cons_append, List.nil_append]
        refine congrArg₂ (· ++ ·) ?_ (congrArg _ ?_)
        · rw [List.map_map]
          exact List.map_congr_left fun r hr => if_neg (fresh r hr)
        · exact (List.map_congr_left fun r hr => if_neg (later r hr)).trans (List.map_id' _)
      exact congrArg₂ (fun taps queue => { s with taps := taps, commandQueue := queue }) htaps hqueue
    rw [List.foldl_cons, hstep, ih (done ++ [t]) (by rwa [List.append_assoc]), List.append_assoc]
    rfl

/-- The taps and the queue once every tap is taken. -/
theorem switchoverTaps_eq (hrising : rising (s.taps.map (·.address))) :
    switchoverTaps named s = tapsTaken s named s.taps [] := by
  have start : s = tapsTaken s named [] s.taps := by
    simp only [tapsTaken, List.map_nil, List.nil_append, List.filter_nil, List.append_nil, List.not_mem_nil,
      false_implies, implies_true, decide_true, List.filter_true]
  have taken := foldl_switchoverTap (s := s) (named := named) [] s.taps hrising
  rw [← start] at taken
  exact taken

end

/-! ### SOURCE_LOST of every input (R124) -/

/-- SOURCE_LOST as it is due from the input's state and the sources in use. -/
def lostDue (s : State) (i : Nat) : Bool := decide ((inputOf s i).debounced = .lost) && s.lineup.sourcesInUse.contains i

/-- The inputs listed with SOURCE_LOST as it is due. -/
def lostSet (s : State) (is : List Nat) (v : Vector InputRec 64) : Vector InputRec 64 :=
  is.foldl (fun v i => vecModify v (i - 1) fun r => { r with lost := lostDue s i }) v

theorem lostDue_judgeSourceLost (i j : Nat) (s : State) : lostDue (judgeSourceLost i s) j = lostDue s j := by
  have input : (inputOf (judgeSourceLost i s) j).debounced = (inputOf s j).debounced := by
    refine (congrArg InputRec.debounced (vecGet_vecModify _ _ _ _ _)).trans ?_
    split
    · rfl
    · rfl
  unfold lostDue
  rw [input]
  rfl

theorem foldl_judgeSourceLost (is : List Nat) (s : State) :
    is.foldl (fun u i => judgeSourceLost i u) s = { s with
      inputs := lostSet s is s.inputs
      alarms := alarmsAfter s.clock.time (is.map fun i => (sourceLostSource i, lostDue s i)) s.alarms } := by
  induction is generalizing s with
  | nil => rfl
  | cons i is ih =>
    have due : lostDue (judgeSourceLost i s) = lostDue s := funext fun j => lostDue_judgeSourceLost i j s
    rw [List.foldl_cons, ih]
    simp only [lostSet, due]
    rfl

theorem vecGet_lostSet {s : State} {is : List Nat} (his : ∀ i ∈ is, 1 ≤ i) (v : Vector InputRec 64) {k : Nat}
    (hk : k < 64) (d : InputRec) : vecGet (lostSet s is v) k d =
      if k + 1 ∈ is then { vecGet v k d with lost := lostDue s (k + 1) } else vecGet v k d := by
  induction is generalizing v with
  | nil => rfl
  | cons i is ih =>
    have first := his i (.head _)
    rw [lostSet, List.foldl_cons]
    refine (ih (fun j hj => his j (.tail _ hj)) _).trans ?_
    rw [vecGet_vecModify]
    by_cases hik : i = k + 1
    · subst hik
      simp [hk]
    · have hne : ¬(i - 1 = k ∧ k < 64) := by omega
      rw [if_neg hne]
      simp [List.mem_cons, Ne.symm hik]

theorem judgeAllSources_eq (s : State) {lost : Nat → Bool} (h : ∀ i, 1 ≤ i ∧ i ≤ 64 → lostDue s i = lost i) :
    judgeAllSources s = { s with
      inputs := vecMapIdx (fun k r => { r with lost := lost (k + 1) }) s.inputs
      alarms := alarmsAfter s.clock.time ((upTo 64).map fun i => (sourceLostSource i, lost i)) s.alarms } := by
  have inputs : lostSet s (upTo 64) s.inputs = vecMapIdx (fun k r => { r with lost := lost (k + 1) }) s.inputs := by
    refine Vector.ext fun k hk => ?_
    rw [← vecGet_of_lt _ k (resetInput false) hk, ← vecGet_of_lt _ k (resetInput false) hk,
      vecGet_lostSet (fun i hi => (mem_upTo.1 hi).1) _ hk, vecGet_vecMapIdx _ _ _ (resetInput false) _ hk,
      if_pos (mem_upTo.2 ⟨by omega, by omega⟩), h (k + 1) ⟨by omega, by omega⟩]
  have given : (upTo 64).map (fun i => (sourceLostSource i, lostDue s i)) =
      (upTo 64).map fun i => (sourceLostSource i, lost i) :=
    List.map_congr_left fun i hi => by rw [h i (mem_upTo.1 hi)]
  rw [judgeAllSources, foldl_judgeSourceLost, inputs, given]

theorem contains_sourcesOf {b : Bank} {i : Nat} (hi : 1 ≤ i ∧ i ≤ 64) :
    (sourcesOf b).contains i = b.entries.any fun e => e.source = i := by
  refine Bool.eq_iff_iff.2 ?_
  rw [List.contains_iff_mem, sourcesOf, List.mem_filter]
  exact and_iff_right (mem_upTo.2 hi)

/-! ### The whole switchover -/

theorem grantsAny_iff {named : List Nat} {x : TapSetting} :
    grantsAny named x = true ↔ ∃ p ∈ x.toList, ∃ g ∈ p.grants, g.event ∈ named := by
  simp only [grantsAny, List.any_eq_true, List.contains_iff_mem]

/-- The journal once the SWITCHOVER record is written on its reservation (R167). -/
def switchoverJournal (b : Nat) (version : Nat) (j : Journal) : Journal :=
  appendRecord b (.switchover version) { j with reserved := j.reserved - 1 }

/-- The state in which the switchover comes to the taps: the store and the journal have taken it (R23). -/
def handedOver (b : Nat) (s : State) : State := { s with
  lineup := switchLineup b s.lineup
  journal :=
    { switchoverJournal b s.lineup.staged.version s.journal with
      high := journalHigh (switchoverJournal b s.lineup.staged.version s.journal) }
  alarms := alarmsGive s.clock.time journalHighSource
    (journalHigh (switchoverJournal b s.lineup.staged.version s.journal)) s.alarms
  carrier := { s.carrier with cursor := 0 } }

theorem takeSwitchover_eq (b : Nat) {s : State} (h : 1 ≤ s.journal.reserved) :
    takeSwitchover b s = judgeAllSources
      (switchoverTaps (movedEvents s.lineup.active s.lineup.staged s.events) (handedOver b s)) := by
  unfold takeSwitchover
  dsimp only
  rw [convertReservation, if_pos h]
  rfl

/-- Settles O20: the store and the journal by their equations, the taps one after the other in ascending order of
address, and SOURCE_LOST of the inputs one after the other. -/
theorem switchoverTake : Obligations.SwitchoverTake := by
  intro s b rest hp hb
  refine ⟨exec_switchoverTake_other hp hb, fun hs hreserved hrising => ?_⟩
  intro old new lineup high slot named holds stale rebuilt desired agrees lost
  rw [exec_switchoverTake_scheduled hp hb hs]
  refine congrArg Host.Outcome.next ?_
  have hnamed : movedEvents old new s.events = named := by
    refine congrArg (List.map _) (List.filter_congr fun e _ => Bool.eq_iff_iff.2 ?_)
    rw [Bool.or_eq_true, Option.isNone_iff_eq_none, bne_iff_ne, decide_eq_true_eq]
    exact Iff.rfl
  have hhigh : journalHigh (switchoverJournal b s.lineup.staged.version s.journal) = high := by
    refine Bool.eq_iff_iff.2 ?_
    simp only [journalHigh, journalHeld, switchoverJournal, appendRecord, List.length_append, List.length_singleton, decide_eq_true_eq, high]
    omega
  rw [takeSwitchover_eq b (s := { s with due := { s.due with boundaries := rest } }) hreserved]
  rw [show movedEvents s.lineup.active s.lineup.staged s.events = named from hnamed]
  generalize hv : handedOver b { s with due := { s.due with boundaries := rest } } = v
  have hstale : stale = markDue v := by
    funext r
    rw [← hv]
    exact if_congr Iff.rfl rfl (Bool.eq_iff_iff.2 (decide_eq_true_iff.trans bne_iff_ne.symm))
  have hholds : holds = grantsAny named := funext fun x => by
    rw [Bool.eq_iff_iff, grantsAny_iff]
    exact decide_eq_true_iff
  have hrebuilt : rebuilt = isRemade v named := funext fun r => by
    simp only [rebuilt, isRemade, hstale, hholds, Bool.or_assoc]
  have hdesired : desired = settingDue v named := funext fun r => by
    simp only [desired, settingDue, hrebuilt, hstale]
    rw [← hv]
    rfl
  have hagrees : agrees = isSettled v named := funext fun r => by
    simp only [agrees, isSettled, hdesired]
  have hlost : ∀ i, 1 ≤ i ∧ i ≤ 64 → lostDue (switchoverTaps named v) i = lost i := fun i hi => by
    have quiet := changes_switchoverTaps named v
    rw [lostDue, inputOf, quiet.same .inputs, quiet.same .lineup, ← hv]
    exact congrArg _ (contains_sourcesOf hi)
  rw [judgeAllSources_eq _ hlost, switchoverTaps_eq (by rw [← hv]; exact hrising)]
  clear_value agrees desired rebuilt stale holds lost high
  simp only [tapsTaken, tapTaken, List.append_nil, ← hstale, ← hrebuilt, ← hdesired, ← hagrees]
  clear hstale hrebuilt hdesired hagrees hlost
  rw [← hv]
  unfold handedOver
  simp only [hhigh, alarmsAfter_cons]
  rfl

end Sys2Proof.Machine
end

section
/-! SUPPORT. The saturating balance update as a change of one account and of the journal, and the law of charges and
residues (R130 to R134). -/

namespace Sys2Proof.Machine

/-! ### One account of the store -/

/-- A change of the account found puts what it makes of that account in its place. -/
theorem modifyAccount_eq_put {accounts : List Account} (h : rising (accounts.map (·.number))) {a : Account}
    (ha : findAccount a.number accounts = some a) {f g : Account → Account} (hfg : f a = g a) :
    modifyAccount a.number f accounts = modifyAccount a.number g accounts := by
  refine List.map_congr_left fun x hx => ?_
  by_cases hn : x.number = a.number
  · rw [if_pos hn, if_pos hn, eq_of_number h (findAccount_some ha).1 hx hn, hfg]
  · rw [if_neg hn, if_neg hn]

theorem modifyAccount_modifyAccount {k : Nat} {f : Account → Account} (hf : ∀ a, a.number = k → (f a).number = k)
    (g : Account → Account) (accounts : List Account) :
    modifyAccount k g (modifyAccount k f accounts) = modifyAccount k (fun a => g (f a)) accounts := by
  rw [modifyAccount, modifyAccount, modifyAccount, List.map_map]
  refine List.map_congr_left fun a _ => ?_
  by_cases h : a.number = k
  · simp [h, hf]
  · simp [h]

theorem changeAccount_changeAccount {k : Nat} {f : Account → Account} (hf : ∀ a, a.number = k → (f a).number = k)
    (g : Account → Account) (s : State) :
    changeAccount k g (changeAccount k f s) = changeAccount k (fun a => g (f a)) s :=
  congrArg (fun accounts => { s with accounts := accounts }) (modifyAccount_modifyAccount hf g s.accounts)

section
variable {accounts : List Account} {a b : Account} (hb : b.number = a.number)

include hb in
theorem put_numbers : (modifyAccount a.number (fun _ => b) accounts).map (·.number) = accounts.map (·.number) := by
  rw [modifyAccount, List.map_map]
  refine List.map_congr_left fun r _ => ?_
  by_cases h : r.number = a.number
  · rw [Function.comp_apply, if_pos h, hb, h]
  · rw [Function.comp_apply, if_neg h]

include hb in
theorem findAccount_put (ha : findAccount a.number accounts = some a) :
    findAccount a.number (modifyAccount a.number (fun _ => b) accounts) = some b := by
  unfold findAccount at ha ⊢
  rw [modifyAccount, List.find?_map]
  have same : ((fun r : Account => decide (r.number = a.number)) ∘
      fun r => if r.number = a.number then b else r) = fun r => decide (r.number = a.number) := by
    funext r
    by_cases h : r.number = a.number
    · simp [h, hb]
    · simp [h]
  rw [same, ha]
  exact congrArg some (if_pos rfl)

end

/-! ### The balance update (R133, R134) -/

/-- The update of the balance leaves its range while the account's flag is clear. -/
def clips (amount : Int) (a : Account) : Bool := !decide (saturate (a.balance + amount) = a.balance + amount) && !a.overflow

/-- The account once its balance is updated. -/
def balanced (amount : Int) (a : Account) : Account := { a with
  balance := saturate (a.balance + amount)
  overflow := a.overflow || clips amount a }

/-- An OVERFLOW record is written if the step leaves room for it, and BALANCE_OVERFLOW is given. -/
def overflowTaken (k needed : Nat) (s : State) : State :=
  let written := if needed + 1 ≤ journalFree s.journal then plainWrite s.clock.time (.overflow k) s else s
  giveCondition balanceOverflowSource true { written with meter := { written.meter with balanceOverflow := true } }

theorem judgeOverflow_of_flag {s : State} (h : anyOverflow s.accounts = true) :
    judgeOverflow s = giveCondition balanceOverflowSource true
      { s with meter := { s.meter with balanceOverflow := true } } := by
  unfold judgeOverflow
  rw [h]
  rfl

section
variable {s : State} {a : Account} (ha : findAccount a.number s.accounts = some a)
  (hrising : rising (s.accounts.map (·.number)))

include ha hrising in
theorem changeAccount_eq_put {f g : Account → Account} (h : f a = g a) :
    changeAccount a.number f s = changeAccount a.number g s :=
  congrArg (fun accounts => { s with accounts := accounts }) (modifyAccount_eq_put hrising ha h)

include ha hrising in
theorem balanceUpdate_eq (amount : Int) (needed : Nat) :
    balanceUpdate a.number amount needed s =
      if clips amount a then overflowTaken a.number needed (changeAccount a.number (fun _ => balanced amount a) s)
      else changeAccount a.number (fun _ => balanced amount a) s := by
  unfold balanceUpdate
  rw [ha]
  dsimp only
  by_cases hclips : clips amount a = true
  · have kept := hclips
    rw [clips, Bool.and_eq_true, Bool.not_eq_true', Bool.not_eq_true', decide_eq_false_iff_not] at kept
    have flagged : anyOverflow (changeAccount a.number (fun _ => balanced amount a) s).accounts = true := by
      refine List.any_eq_true.2 ⟨balanced amount a, List.mem_map.2 ⟨a, (findAccount_some ha).1, if_pos rfl⟩, ?_⟩
      rw [balanced, hclips, Bool.or_true]
    rw [if_pos hclips, if_neg (by simp [kept]), changeAccount_changeAccount (by exact fun _ h => h),
      changeAccount_eq_put ha hrising (g := fun _ => balanced amount a) (by simp [balanced, hclips])]
    refine (judgeOverflow_of_flag ?_).trans rfl
    split
    · rw [accounts_of_journalOnly (plainWrite_journalOnly ..)]
      exact flagged
    · exact flagged
  · rw [if_neg hclips, if_pos ?_]
    · exact changeAccount_eq_put ha hrising (by simp [balanced, hclips])
    · rw [clips, Bool.not_eq_true, Bool.and_eq_false_iff, Bool.not_eq_false', Bool.not_eq_false'] at hclips
      rw [Bool.or_eq_true]
      exact hclips

end

/-- The OVERFLOW record takes no notice of an account's record. -/
theorem overflowTaken_changeAccount (k needed j : Nat) (f : Account → Account) (s : State) :
    overflowTaken k needed (changeAccount j f s) = changeAccount j f (overflowTaken k needed s) := by
  unfold overflowTaken
  rw [plainWrite_changeAccount, changeAccount_journal, changeAccount_clock]
  split
  · rfl
  · rfl

theorem overflowTaken_accounts (k needed : Nat) (s : State) : (overflowTaken k needed s).accounts = s.accounts := by
  have written := accounts_of_journalOnly (plainWrite_journalOnly s.clock.time (.overflow k) s)
  unfold overflowTaken
  dsimp only
  split
  · exact written
  · rfl

theorem clips_iff {amount : Int} {a : Account} :
    clips amount a = true ↔
      ¬(-2000000000 ≤ a.balance + amount ∧ a.balance + amount ≤ 2000000000) ∧ a.overflow = false := by
  rw [clips, Bool.and_eq_true, Bool.not_eq_true', Bool.not_eq_true', decide_eq_false_iff_not, saturate_eq_iff]

/-! ### Accrual and re-latching (R129 to R131, R136) -/

/-- The account once its residue is replaced and its balance charged. -/
def charged (rate served : Nat) (a : Account) : Account :=
  balanced (chargeOf rate served a.residue).1 { a with residue := (chargeOf rate served a.residue).2 }

/-- The account once it has accrued at a tally. -/
def accrued (tally : Nat) (a : Account) : Account :=
  match accrualOf a.latch tally with
  | none => a
  | some (rate, served, credit) => { charged rate served a with credited := min 65535 (a.credited + credit) }

/-- The accrual at a tally leaves the range of the balance while the flag is clear. -/
def accrualClips (tally : Nat) (a : Account) : Bool :=
  match accrualOf a.latch tally with
  | none => false
  | some (rate, served, _) => clips (chargeOf rate served a.residue).1 a

theorem accrued_number (tally : Nat) (a : Account) : (accrued tally a).number = a.number := by
  unfold accrued
  split
  · rfl
  · rfl

section
variable {s : State} {a : Account} (ha : findAccount a.number s.accounts = some a)
  (hrising : rising (s.accounts.map (·.number)))

include ha hrising in
theorem accrue_eq (tally : Nat) :
    accrue a.number tally s =
      if accrualClips tally a then
        overflowTaken a.number 0 (changeAccount a.number (fun _ => accrued tally a) s)
      else changeAccount a.number (fun _ => accrued tally a) s := by
  unfold accrue accrualClips accrued
  rw [ha]
  dsimp only
  cases accrualOf a.latch tally with
  | none =>
    refine Eq.trans ?_ (changeAccount_eq_put ha hrising (f := id) rfl)
    exact congrArg (fun accounts => { s with accounts := accounts })
      ((List.map_congr_left fun r _ => ite_self r).trans (List.map_id _)).symm
  | some found =>
    obtain ⟨rate, served, credit⟩ := found
    dsimp only
    generalize hr : ({ a with residue := (chargeOf rate served a.residue).2 } : Account) = b
    have number : b.number = a.number := hr ▸ rfl
    rw [changeAccount_eq_put ha hrising (g := fun _ => b) hr]
    have hb : findAccount b.number (changeAccount a.number (fun _ => b) s).accounts = some b := by
      rw [number]
      exact findAccount_put number ha
    have hb' : rising ((changeAccount a.number (fun _ => b) s).accounts.map (·.number)) := by
      rw [changeAccount_accounts, put_numbers number]
      exact hrising
    have update := balanceUpdate_eq hb hb' (chargeOf rate served a.residue).1 0
    have hclips : clips (chargeOf rate served a.residue).1 b = clips (chargeOf rate served a.residue).1 a := by rw [← hr]; rfl
    have merged : changeAccount a.number (fun r => { r with credited := min 65535 (r.credited + credit) })
        (changeAccount a.number (fun _ => balanced (chargeOf rate served a.residue).1 b)
          (changeAccount a.number (fun _ => b) s)) =
        changeAccount a.number (fun _ =>
          { charged rate served a with credited := min 65535 (a.credited + credit) }) s := by
      rw [changeAccount_changeAccount fun _ _ => number,
        changeAccount_changeAccount fun _ _ => (show (balanced (chargeOf rate served a.residue).1 b).number = _ from number),
        ← hr]
      rfl
    rw [number] at update
    rw [update, hclips]
    split
    · rw [← overflowTaken_changeAccount, merged]
    · exact merged

include ha hrising in
theorem accrue_accounts (tally : Nat) :
    (accrue a.number tally s).accounts = modifyAccount a.number (fun _ => accrued tally a) s.accounts := by
  rw [accrue_eq ha hrising]
  split
  · exact overflowTaken_accounts ..
  · rfl

end

/-! ### The law of charges and residues -/

/-- What an account owes, in fifteenths, over the tallies of a rate (R131). -/
def owedOver (rate : Nat) (tallies : List Nat) : Nat := (tallies.map fun t => rate * (15 - t)).sum

/-- The account once it has accrued at every tally without a clip. -/
def chargedOver (rate : Nat) (tallies : List Nat) (a : Account) : Account := { a with
  balance := a.balance + (((owedOver rate tallies + a.residue) / 15 : Nat) : Int)
  residue := (owedOver rate tallies + a.residue) % 15
  credited := min 65535 (a.credited + tallies.sum) }

/-- One accrual that does not clip. -/
theorem accrued_active {rate : Nat} {a : Account} (hlatch : a.latch = .active rate) (t : Nat)
    (hlow : -2000000000 ≤ a.balance)
    (hhigh : a.balance + (((rate * (15 - t) + a.residue) / 15 : Nat) : Int) ≤ 2000000000) :
    accrued t a = chargedOver rate [t] a := by
  have kept : saturate (a.balance + (((rate * (15 - t) + a.residue) / 15 : Nat) : Int)) =
      a.balance + (((rate * (15 - t) + a.residue) / 15 : Nat) : Int) := (saturate_eq_iff _).2 ⟨by omega, hhigh⟩
  rw [accrued, hlatch]
  simp only [accrualOf, charged, balanced, clips, chargeOf, kept, chargedOver, owedOver, List.map_cons, List.map_nil,
    List.sum_cons, List.sum_nil, Nat.add_zero, decide_true, Bool.not_true, Bool.false_and, Bool.or_false]

theorem chargedOver_cons (rate t : Nat) (tallies : List Nat) (a : Account) :
    chargedOver rate tallies (chargedOver rate [t] a) = chargedOver rate (t :: tallies) a := by
  simp only [chargedOver, owedOver, List.map_cons, List.map_nil, List.sum_cons, List.sum_nil, Nat.add_zero]
  generalize rate * (15 - t) = c
  generalize (tallies.map fun t => rate * (15 - t)).sum = rest
  congr 1 <;> omega

/-- The law of charges and residues: whole fifteenths go to the balance, and the residue is what is left. -/
theorem accounts_foldl_accrue {rate : Nat} (tallies : List Nat) {s : State} {a : Account}
    (ha : findAccount a.number s.accounts = some a) (hrising : rising (s.accounts.map (·.number)))
    (hlatch : a.latch = .active rate) (hcredited : a.credited ≤ 65535) (hlow : -2000000000 ≤ a.balance)
    (hresidue : a.residue ≤ 14)
    (hhigh : a.balance + (((owedOver rate tallies + a.residue) / 15 : Nat) : Int) ≤ 2000000000) :
    findAccount a.number (tallies.foldl (fun u t => accrue a.number t u) s).accounts =
      some (chargedOver rate tallies a) := by
  induction tallies generalizing s a with
  | nil =>
    rw [List.foldl_nil, ha]
    refine congrArg some ?_
    have whole : (owedOver rate [] + a.residue) / 15 = 0 := by simp only [owedOver, List.map_nil, List.sum_nil]; omega
    have rest : (owedOver rate [] + a.residue) % 15 = a.residue := by simp only [owedOver, List.map_nil, List.sum_nil]; omega
    simp [chargedOver, whole, rest, hcredited]
  | cons t tallies ih =>
    have first : accrued t a = chargedOver rate [t] a := by
      refine accrued_active hlatch t hlow ?_
      simp only [owedOver, List.map_cons, List.sum_cons] at hhigh
      omega
    have kept : (accrue a.number t s).accounts = modifyAccount a.number (fun _ => chargedOver rate [t] a) s.accounts := by
      rw [accrue_accounts ha hrising, first]
    have number : (chargedOver rate [t] a).number = a.number := rfl
    rw [List.foldl_cons, ← chargedOver_cons]
    refine ih (a := chargedOver rate [t] a) ?_ ?_ hlatch (Nat.min_le_left _ _) ?_ ?_ ?_
    · rw [kept]
      exact findAccount_put (a := a) number ha
    · rw [kept, put_numbers number]
      exact hrising
    all_goals simp only [chargedOver, owedOver, List.map_cons, List.map_nil, List.sum_cons, List.sum_nil] at hhigh ⊢
    · omega
    · omega
    · omega

/-- Settles O42: the update by its two cases, and the law of charges by induction on the tallies. -/
theorem chargesAndBalances : Obligations.ChargesAndBalances := by
  refine ⟨fun s a amount needed ha hrising => ?update, fun s a rate tallies => ?charges⟩
  case update =>
    intro sum balance put
    have hput (o : Bool) : changeAccount a.number (fun _ => { a with balance := balance, overflow := o }) s = put o :=
      changeAccount_eq_put ha hrising rfl
    refine ⟨fun h => ?kept, ?clipped⟩
    · have kept : clips amount a = false := by
        rw [← Bool.not_eq_true, clips_iff]
        rintro ⟨out, clear⟩
        exact h.elim out fun hset => by rw [hset] at clear; cases clear
      rw [balanceUpdate_eq ha hrising, kept, if_neg Bool.false_ne_true, ← hput, balanced, kept, Bool.or_false]
      rfl
    · intro h hclear written
      have clipped : clips amount a = true := clips_iff.2 ⟨h, hclear⟩
      rw [balanceUpdate_eq ha hrising, if_pos clipped, balanced, clipped, Bool.or_true]
      refine (congrArg (overflowTaken a.number needed) (hput true)).trans ?_
      have hwritten : written = if needed + 1 ≤ journalFree (put true).journal then
          plainWrite (put true).clock.time (.overflow a.number) (put true) else put true := by
        have free : journalFree (put true).journal = 1024 - s.journal.records.length - s.journal.reserved := rfl
        by_cases room : s.journal.records.length + s.journal.reserved + needed < 1024
        · rw [if_pos (by omega), plainWrite_of_free (by omega)]
          exact if_pos room
        · rw [if_neg (by omega)]
          exact if_neg room
      rw [hwritten]
      rfl
  case charges =>
    intro ha hrising hlatch hresidue hcredited hlow htallies owed hhigh
    exact accounts_foldl_accrue tallies ha hrising hlatch hcredited hlow hresidue hhigh

end Sys2Proof.Machine
end

section
/-! SUPPORT. A tally message taken whole: every account of the node accrued and latched anew, and the OVERFLOW records
of those that clip (R129 to R136). -/

namespace Sys2Proof.Machine

/-! ### OVERFLOW records one after the other -/

/-- The OVERFLOW records of several accounts, each with its conditions given. -/
def overflowsTaken (ks : List Nat) (s : State) : State := ks.foldl (fun u k => overflowTaken k 0 u) s

theorem overflowsTaken_append (ks ls : List Nat) (s : State) :
    overflowsTaken (ks ++ ls) s = overflowsTaken ls (overflowsTaken ks s) := List.foldl_append

/-- The accounts whose OVERFLOW records have room in the journal. -/
def recordedOf (j : Journal) (ks : List Nat) : List Nat := ks.take (1024 - (j.records.length + j.reserved))

/-- The journal once those records are written. -/
def overflowJournal (time : Nat) (j : Journal) (ks : List Nat) : Journal := { j with
  records := j.records ++ recordsFrom j.nextSequence time ((recordedOf j ks).map .overflow)
  nextSequence := nextSequence^[(recordedOf j ks).length] j.nextSequence
  high :=
    if recordedOf j ks = [] then j.high
    else decide (768 ≤ j.records.length + j.reserved + (recordedOf j ks).length) }

/-- The conditions given with those records. -/
def overflowsGiven (j : Journal) (ks : List Nat) : List (Nat × Bool) :=
  (List.range ks.length).flatMap fun i =>
    (if i < (recordedOf j ks).length then
      [(journalHighSource, decide (768 ≤ j.records.length + j.reserved + i + 1))]
    else []) ++ [(balanceOverflowSource, true)]

/-- The state once the records are written and the conditions given. -/
def overflowed (ks : List Nat) (s : State) : State := { s with
  meter := { s.meter with balanceOverflow := s.meter.balanceOverflow || !ks.isEmpty }
  journal := overflowJournal s.clock.time s.journal ks
  alarms := alarmsAfter s.clock.time (overflowsGiven s.journal ks) s.alarms }

/-- The journal once one OVERFLOW record is written. -/
def withOverflow (time : Nat) (j : Journal) (k : Nat) : Journal :=
  { appendRecord time (.overflow k) j with high := decide (768 ≤ j.records.length + j.reserved + 1) }

section
variable {j : Journal}

theorem recordedOf_full (full : ¬j.records.length + j.reserved < 1024) (ks : List Nat) : recordedOf j ks = [] := by
  rw [recordedOf, Nat.sub_eq_zero_of_le (by omega), List.take_zero]

theorem recordedOf_room (room : j.records.length + j.reserved < 1024) (time k : Nat) (ks : List Nat) :
    recordedOf j (k :: ks) = k :: recordedOf (withOverflow time j k) ks := by
  simp only [recordedOf, withOverflow, appendRecord, List.length_append, List.length_singleton]
  rw [show 1024 - (j.records.length + j.reserved) = 1024 - (j.records.length + 1 + j.reserved) + 1 by omega,
    List.take_succ_cons]

theorem overflowJournal_full (full : ¬j.records.length + j.reserved < 1024) (time : Nat) (ks : List Nat) :
    overflowJournal time j ks = j := by
  rw [overflowJournal, recordedOf_full full]
  simp [recordsFrom]

theorem overflowJournal_room (room : j.records.length + j.reserved < 1024) (time k : Nat) (ks : List Nat) :
    overflowJournal time j (k :: ks) = overflowJournal time (withOverflow time j k) ks := by
  rw [overflowJournal, recordedOf_room room time, overflowJournal]
  generalize recordedOf (withOverflow time j k) ks = rs
  simp only [withOverflow, appendRecord, List.map_cons, recordsFrom, List.append_assoc, List.singleton_append,
    List.length_cons, Function.iterate_succ_apply, List.length_append, reduceCtorEq, if_false]
  cases rs with
  | nil => simp
  | cons r rs => simp [Nat.add_assoc, Nat.add_comm, Nat.add_left_comm]

theorem overflowsGiven_cons (k : Nat) (ks : List Nat) (j' : Journal)
    (hused : j'.records.length + j'.reserved = j.records.length + j.reserved + if recordedOf j (k :: ks) = [] then 0 else 1)
    (hrecorded : recordedOf j (k :: ks) = [] ∧ recordedOf j' ks = [] ∨
      (recordedOf j (k :: ks)).length = (recordedOf j' ks).length + 1) :
    overflowsGiven j (k :: ks) = ((if recordedOf j (k :: ks) = [] then [] else
      [(journalHighSource, decide (768 ≤ j.records.length + j.reserved + 1))]) ++ [(balanceOverflowSource, true)]) ++
        overflowsGiven j' ks := by
  rw [overflowsGiven, List.length_cons, List.range_succ_eq_map, List.flatMap_cons, List.flatMap_map, overflowsGiven]
  refine congrArg₂ (· ++ ·) (congrArg (· ++ _) ?_) (List.flatMap_congr fun i _ => congrArg (· ++ _) ?_)
  · obtain ⟨hnone, -⟩ | hmore := hrecorded
    · rw [hnone]
      rfl
    · rw [if_pos (by omega), if_neg (by rintro h; rw [h] at hmore; cases hmore)]
  · obtain ⟨hnone, hnone'⟩ | hmore := hrecorded
    · rw [hnone, hnone']
      rfl
    · have some : recordedOf j (k :: ks) ≠ [] := by rintro h; rw [h] at hmore; cases hmore
      rw [if_neg some] at hused
      rw [hmore, hused]
      simp only [Nat.succ_eq_add_one, Nat.add_lt_add_iff_right]
      rw [show j.records.length + j.reserved + 1 + i + 1 = j.records.length + j.reserved + (i + 1) + 1 by omega]

end

theorem overflowTaken_full {s : State} (full : ¬s.journal.records.length + s.journal.reserved < 1024) (k : Nat) :
    overflowTaken k 0 s = { s with
      meter := { s.meter with balanceOverflow := true }
      alarms := alarmsGive s.clock.time balanceOverflowSource true s.alarms } := by
  unfold overflowTaken
  rw [if_neg (by unfold journalFree journalHeld; omega)]
  rfl

theorem overflowTaken_room {s : State} (room : s.journal.records.length + s.journal.reserved < 1024) (k : Nat) :
    overflowTaken k 0 s = { s with
      meter := { s.meter with balanceOverflow := true }
      journal := withOverflow s.clock.time s.journal k
      alarms := alarmsGive s.clock.time balanceOverflowSource true
        (alarmsGive s.clock.time journalHighSource
          (decide (768 ≤ s.journal.records.length + s.journal.reserved + 1)) s.alarms) } := by
  have high : journalHigh (appendRecord s.clock.time (.overflow k) s.journal) =
      decide (768 ≤ s.journal.records.length + s.journal.reserved + 1) := by
    unfold journalHigh journalHeld appendRecord
    rw [List.length_append, List.length_singleton, Nat.add_right_comm]
  have free : 1 ≤ journalFree s.journal := by unfold journalFree journalHeld; omega
  unfold overflowTaken
  rw [if_pos free, plainWrite_of_free free, putJournal, high]
  rfl

theorem overflowsTaken_eq (ks : List Nat) (s : State) : overflowsTaken ks s = overflowed ks s := by
  induction ks generalizing s with
  | nil => simp [overflowsTaken, overflowed, overflowJournal, overflowsGiven, recordedOf, recordsFrom]
  | cons k ks ih =>
    rw [overflowsTaken, List.foldl_cons]
    refine (ih _).trans ?_
    by_cases room : s.journal.records.length + s.journal.reserved < 1024
    · have recorded := recordedOf_room room s.clock.time k ks
      have given := overflowsGiven_cons (j := s.journal) k ks (withOverflow s.clock.time s.journal k)
        (by rw [recorded]; simp [withOverflow, appendRecord]; omega) (.inr (by rw [recorded]; rfl))
      rw [recorded, if_neg (List.cons_ne_nil _ _)] at given
      rw [overflowTaken_room room, overflowed, overflowed, overflowJournal_room room, given, alarmsAfter_append]
      simp
    · have given := overflowsGiven_cons (j := s.journal) k ks s.journal
        (by rw [recordedOf_full room]; rfl) (.inl ⟨recordedOf_full room _, recordedOf_full room _⟩)
      rw [recordedOf_full room, if_pos rfl] at given
      rw [overflowTaken_full room, overflowed, overflowed, overflowJournal_full room, overflowJournal_full room, given,
        alarmsAfter_append]
      simp

/-! ### One tally message (R129) -/

/-- The account once it has accrued at a tally and is latched anew from a tariff. -/
def metered (tally : Nat) (t : Tariff) (a : Account) : Account := { accrued tally a with latch := latchFor t a }

theorem latchFor_accrued (t : Tariff) (tally : Nat) (a : Account) : latchFor t (accrued tally a) = latchFor t a := by
  unfold accrued
  split
  · rfl
  · rfl

/-- An OVERFLOW record does not read the accounts. -/
theorem overflowTaken_accountsPut (k needed : Nat) (xs : List Account) (s : State) :
    overflowTaken k needed { s with accounts := xs } = { overflowTaken k needed s with accounts := xs } := by
  have written : plainWrite s.clock.time (.overflow k) { s with accounts := xs } =
      { plainWrite s.clock.time (.overflow k) s with accounts := xs } := by
    unfold plainWrite
    split
    · rfl
    · rfl
  unfold overflowTaken
  dsimp only
  rw [written]
  split
  · rfl
  · rfl

theorem overflowsTaken_accountsPut (ks : List Nat) (xs : List Account) (s : State) :
    overflowsTaken ks { s with accounts := xs } = { overflowsTaken ks s with accounts := xs } := by
  rw [overflowsTaken_eq, overflowsTaken_eq]
  rfl

theorem meterAccount_eq {s : State} {a : Account} (ha : findAccount a.number s.accounts = some a)
    (hrising : rising (s.accounts.map (·.number))) (tally : Nat) (t : Tariff) :
    meterAccount tally t a.number s =
      overflowsTaken (if accrualClips tally a then [a.number] else [])
        { s with accounts := modifyAccount a.number (metered tally t) s.accounts } := by
  have latched (u : State) (hu : u.accounts = modifyAccount a.number (fun _ => accrued tally a) s.accounts) :
      changeAccount a.number (fun r => { r with latch := latchFor t r }) u =
        { u with accounts := modifyAccount a.number (metered tally t) s.accounts } := by
    unfold changeAccount
    rw [hu, modifyAccount_modifyAccount fun _ _ => accrued_number tally a, latchFor_accrued]
    exact congrArg (fun accounts => { u with accounts := accounts })
      (modifyAccount_eq_put (f := fun _ => metered tally t a) hrising ha rfl)
  unfold meterAccount
  rw [latched _ (accrue_accounts ha hrising tally), accrue_eq ha hrising]
  split
  · exact (overflowTaken_accountsPut ..).symm
  · rfl

/-- Accounts metered one after the other: no accrual reads another's record. -/
theorem foldl_meterAccount (tally : Nat) (t : Tariff) (node : List Account) (s : State)
    (hrising : rising (s.accounts.map (·.number))) (distinct : (node.map (·.number)).Nodup)
    (held : ∀ a ∈ node, findAccount a.number s.accounts = some a) :
    (node.map (·.number)).foldl (fun u k => meterAccount tally t k u) s =
      overflowsTaken ((node.filter (accrualClips tally)).map (·.number)) { s with
        accounts := s.accounts.map fun x => if x.number ∈ node.map (·.number) then metered tally t x else x } := by
  induction node generalizing s with
  | nil => simp [overflowsTaken]
  | cons a rest ih =>
    rw [List.map_cons, List.nodup_cons] at distinct
    obtain ⟨absent, distinct⟩ := distinct
    have first := meterAccount_eq (held a (.head _)) hrising tally t
    have number (r : Account) : (metered tally t r).number = r.number := accrued_number tally r
    have accounts : (meterAccount tally t a.number s).accounts = modifyAccount a.number (metered tally t) s.accounts := by
      rw [first, overflowsTaken_accountsPut]
    have held' : ∀ b ∈ rest, findAccount b.number (meterAccount tally t a.number s).accounts = some b := by
      intro b hb
      have other : b.number ≠ a.number := fun h => absent (h ▸ List.mem_map_of_mem hb)
      rw [accounts, findAccount_modifyAccount _ _ _ number, held b (.tail _ hb), Option.map_some, if_neg other]
    have later : ((modifyAccount a.number (metered tally t) s.accounts).map fun x =>
          if x.number ∈ rest.map (·.number) then metered tally t x else x) =
        s.accounts.map fun x => if x.number ∈ a.number :: rest.map (·.number) then metered tally t x else x := by
      rw [modifyAccount, List.map_map]
      refine List.map_congr_left fun x _ => ?_
      by_cases hx : x.number = a.number
      · rw [Function.comp_apply, if_pos hx, number, hx, if_neg absent, if_pos (.head _)]
      · rw [Function.comp_apply, if_neg hx]
        exact if_congr (List.mem_cons.trans (or_iff_right hx)).symm rfl rfl
    have put (xs : List Account) : { meterAccount tally t a.number s with accounts := xs } =
        overflowsTaken (if accrualClips tally a then [a.number] else []) { s with accounts := xs } := by
      rw [first, overflowsTaken_accountsPut, overflowsTaken_accountsPut _ xs]
    rw [List.map_cons, List.foldl_cons, ih _ (by rw [accounts, modifyAccount_numbers _ _ number]; exact hrising) distinct
      held', accounts, later, put, ← overflowsTaken_append, List.filter_cons]
    split
    · rfl
    · rfl

/-! ### METER_TALLY_TAKE -/

theorem rateSum_eq (t : Tariff) (tiers : TierSet) :
    rateSum t tiers = (((List.range 16).filter fun k => tiers.getLsbD k).map fun k => vecGet t.tiers k 0).sum := by
  have run (ks : List Nat) (sum : Nat) :
      ks.foldl (fun sum k => if hasTier tiers k then sum + vecGet t.tiers k 0 else sum) sum =
        sum + ((ks.filter fun k => tiers.getLsbD k).map fun k => vecGet t.tiers k 0).sum := by
    induction ks generalizing sum with
    | nil => rfl
    | cons k ks ih =>
      rw [List.foldl_cons, ih, List.filter_cons]
      change (if tiers.getLsbD k then _ else _) + _ = _
      split
      · rw [List.map_cons, List.sum_cons, Nat.add_assoc]
      · rfl
  exact (run _ 0).trans (Nat.zero_add _)

/-- The account is of a node. -/
def ofNode (n : Nat) (s : State) (a : Account) : Bool := (findTap a.address s.taps).any fun r => r.node = n

theorem accountsOfNode_eq (s : State) (n : Nat) : accountsOfNode s n = (s.accounts.filter (ofNode n s)).map (·.number) := by
  refine congrArg (List.map _) (List.filter_congr fun a _ => ?_)
  rw [accountNode, ofNode]
  cases findTap a.address s.taps with
  | none => rfl
  | some r => simp

/-- A tally message taken: the accounts of its node metered, and the OVERFLOW records of those that clip. -/
theorem takeTally_eq (m : TallyMessage) {s : State} (hrising : rising (s.accounts.map (·.number))) :
    takeTally m s = overflowed
      ((s.accounts.filter fun a => ofNode m.node s a && accrualClips m.tally a).map (·.number))
      { fixBoundaryTariff (m.start + 900) s with
        accounts := s.accounts.map fun a =>
          if ofNode m.node s a then metered m.tally (heldTariff (fixBoundaryTariff (m.start + 900) s)) a else a } := by
  unfold takeTally
  dsimp only
  generalize hv : fixBoundaryTariff (m.start + 900) s = v
  have accounts : v.accounts = s.accounts := hv ▸ rfl
  have ofNodes : ofNode m.node v = ofNode m.node s := hv ▸ rfl
  rw [accountsOfNode_eq, ofNodes, accounts]
  have distinct : ((s.accounts.filter (ofNode m.node s)).map (·.number)).Nodup :=
    hrising.nodup.sublist (List.filter_sublist.map _)
  rw [foldl_meterAccount _ _ _ _ (accounts ▸ hrising) distinct fun a ha =>
    accounts ▸ findAccount_of_mem hrising.nodup (List.mem_of_mem_filter ha), overflowsTaken_eq, List.filter_filter, accounts]
  have mapped : (s.accounts.map fun x => if x.number ∈ (s.accounts.filter (ofNode m.node s)).map (·.number) then
      metered m.tally (heldTariff v) x else x) =
      s.accounts.map fun a => if ofNode m.node s a then metered m.tally (heldTariff v) a else a := by
    refine List.map_congr_left fun x hx => if_congr ?_ rfl rfl
    rw [List.mem_map]
    constructor
    · rintro ⟨a, ha, hn⟩
      rw [eq_of_number hrising (List.mem_of_mem_filter ha) hx hn.symm]
      exact (List.mem_filter.1 ha).2
    · exact fun h => ⟨x, List.mem_filter.2 ⟨hx, h⟩, rfl⟩
  rw [mapped]
  simp only [Bool.and_comm]

/-- What an account owes at a tally, in fifteenths. -/
def owedAt (tally : Nat) (a : Account) : Nat :=
  match a.latch with
  | .active rate => rate * (15 - tally) + a.residue
  | .hold rate => rate * 15 + a.residue
  | .cut => a.residue
  | .none => a.residue

/-- The account accrues. -/
def accrues (a : Account) : Bool := a.latch != .cut && a.latch != .none

/-- The minutes credited at a tally. -/
def creditAt (tally : Nat) (a : Account) : Nat :=
  match a.latch with
  | .active _ => tally
  | _ => 0

theorem accrualOf_idle {a : Account} (h : accrues a = false) (tally : Nat) : accrualOf a.latch tally = none := by
  unfold accrues at h
  cases hl : a.latch with
  | none => rfl
  | cut => rfl
  | active rate => rw [hl] at h; cases h
  | hold rate => rw [hl] at h; cases h

theorem accrualOf_accrues {a : Account} (h : accrues a = true) (tally : Nat) :
    ∃ rate served, accrualOf a.latch tally = some (rate, served, creditAt tally a) ∧
      rate * served + a.residue = owedAt tally a := by
  unfold accrues at h
  unfold creditAt owedAt
  cases hl : a.latch with
  | none => rw [hl] at h; cases h
  | cut => rw [hl] at h; cases h
  | active rate => exact ⟨rate, _, rfl, rfl⟩
  | hold rate => exact ⟨rate, _, rfl, rfl⟩

theorem accrualClips_eq (tally : Nat) (a : Account) :
    accrualClips tally a = (accrues a && clips ((owedAt tally a / 15 : Nat) : Int) a) := by
  cases h : accrues a with
  | false => rw [accrualClips, accrualOf_idle h, Bool.false_and]
  | true =>
    obtain ⟨rate, served, hof, howed⟩ := accrualOf_accrues h tally
    rw [accrualClips, hof, ← howed, Bool.true_and]
    rfl

theorem accrued_idle {a : Account} (h : accrues a = false) (tally : Nat) : accrued tally a = a := by
  rw [accrued, accrualOf_idle h]

theorem accrued_eq {a : Account} (h : accrues a = true) (tally : Nat) :
    accrued tally a = { a with
      balance := saturate (a.balance + ((owedAt tally a / 15 : Nat) : Int))
      residue := owedAt tally a % 15
      credited := min 65535 (a.credited + creditAt tally a)
      overflow := a.overflow || accrualClips tally a } := by
  obtain ⟨rate, served, hof, howed⟩ := accrualOf_accrues h tally
  rw [accrualClips_eq, h, Bool.true_and, accrued, hof, ← howed]
  rfl

/-- Settles O43: the accounts of the node metered each by itself, and the OVERFLOW records of those that clip. -/
theorem meterTallyTake : Obligations.MeterTallyTake := by
  intro s m rest hp hm hrising b held served owed accrues' sum clips' clipping used recorded
  have hrun : exec .meterTallyTake s = .next (takeTally m { s with due := { s.due with tallies := rest } }) := by
    change Host.Outcome.next (whenRunning meterTallyTakeStep s) = _
    rw [whenRunning_of_running hp, meterTallyTakeStep, hm]
  have hheld : (fixBoundaryTariff b { s with due := { s.due with tallies := rest } }).meter.boundaryTariff = held := by
    refine if_congr ?_ rfl rfl
    cases s.meter.boundaryTariff <;> simp
  obtain ⟨tariff, htariff⟩ : ∃ tariff, held.map (·.tariff) = some tariff := by
    by_cases h : ∀ x ∈ s.meter.boundaryTariff, x.start < b
    · exact ⟨_, congrArg (Option.map _) (if_pos h)⟩
    · obtain ⟨x, hx, -⟩ := not_forall₂.1 h
      exact ⟨x.tariff, (congrArg (Option.map _) ((if_neg h).trans hx)).trans rfl⟩
  have hhold : heldTariff (fixBoundaryTariff b { s with due := { s.due with tallies := rest } }) = tariff := by
    rw [heldTariff, hheld, htariff]
    rfl
  have hclips (a : Account) : accrualClips m.tally a = clips' a := by
    rw [accrualClips_eq, clips, ← Bool.and_assoc, decide_eq_decide.2 (saturate_eq_iff _)]
    rfl
  have hclipping : (s.accounts.filter fun a => ofNode m.node s a && accrualClips m.tally a) = clipping :=
    List.filter_congr fun a _ => congrArg (served a && ·) (hclips a)
  have hrecorded : recordedOf s.journal (clipping.map (·.number)) = recorded.map (·.number) := List.map_take.symm
  have hcount : (recordedOf s.journal (clipping.map (·.number))).length = recorded.length := by
    rw [hrecorded, List.length_map]
  have htaken := takeTally_eq m (s := { s with due := { s.due with tallies := rest } }) hrising
  rw [show (List.filter (fun a => ofNode m.node { s with due := { s.due with tallies := rest } } a &&
    accrualClips m.tally a) s.accounts) = clipping from hclipping, hhold] at htaken
  refine ⟨_, tariff, hrun.trans (congrArg _ htaken), htariff, ?meter, ?numbers, ?others, ?served, ?written, ?sequence, rfl,
    ?high, ?alarms, rfl, rfl⟩
  case meter =>
    change ({ boundaryTariff := _, balanceOverflow := _ || !(clipping.map (·.number)).isEmpty } : Meter) = _
    rw [hheld, List.isEmpty_map]
    rfl
  case numbers =>
    refine List.map_map.trans (List.map_congr_left fun a _ => ?_)
    rw [Function.comp_apply]
    split
    · exact accrued_number _ _
    · rfl
  case others => exact fun a ha h => List.mem_map.2 ⟨a, ha, if_neg h⟩
  case served =>
    intro a ha h
    refine ⟨metered m.tally tariff a, List.mem_map.2 ⟨a, ha, if_pos h⟩, ?_, ?_, fun hidle => ?_, fun haccrues => ?_⟩
    · unfold metered accrued
      split
      · rfl
      · rfl
    · change latchFor tariff a = _
      unfold latchFor
      cases a.state with
      | active => exact congrArg Latch.active (rateSum_eq _ _)
      | hold => rfl
      | cut => rfl
    · rw [metered, accrued_idle (Bool.not_eq_true _ ▸ hidle)]
      exact ⟨rfl, rfl, rfl, rfl⟩
    · rw [metered, accrued_eq haccrues, hclips]
      exact ⟨rfl, rfl, rfl, rfl⟩
  case written =>
    refine ⟨_, rfl, ?_, ?_⟩
    · refine (recordsFrom_contents _ _ _).trans ?_
      rw [List.map_map]
      exact (congrArg (List.map _) hrecorded).trans List.map_map
    · refine (recordsFrom_sequences _ _ _).trans ?_
      rw [List.length_map]
      exact congrArg (fun n => (List.range n).map fun i => nextSequence^[i] s.journal.nextSequence) hcount
  case sequence => exact congrArg (fun n => nextSequence^[n] s.journal.nextSequence) hcount
  case high =>
    refine if_congr ?_ rfl (congrArg (fun n => decide (768 ≤ used + n)) hcount)
    exact (congrArg (· = []) hrecorded).to_iff.trans List.map_eq_nil_iff
  case alarms =>
    change alarmsAfter s.clock.time (overflowsGiven s.journal (clipping.map (·.number))) s.alarms = _
    rw [overflowsGiven, hcount, List.length_map]

end Sys2Proof.Machine
end

section
/-! SUPPORT. The acceptance of a purchase, and the decisions on a plant purchase and on PURCHASE_ENTER (R150 to
R153). -/

namespace Sys2Proof.Machine

/-! ### The tests -/

theorem holdsEvent_iff {a : Account} {e : Nat} : holdsEvent a e = true ↔ ∃ b ∈ a.purchases, b.event = e := by
  simp only [holdsEvent, List.any_eq_true, decide_eq_true_eq]

theorem otherModel_iff (a : Account) (s : State) :
    (findTap a.address s.taps).any (·.model != .event) = true ↔
      (findTap a.address s.taps).any (·.model ≠ .event) = true := by
  cases findTap a.address s.taps with
  | none => exact Iff.rfl
  | some t => exact bne_iff_ne.trans decide_eq_true_iff.symm

theorem journalFree_lt_two {j : Journal} : journalFree j < 2 ↔ 1024 < j.records.length + j.reserved + 2 := by
  unfold journalFree journalHeld
  omega

/-! ### Acceptance (R150) -/

/-- With two free slots the record is written and the reservation taken. -/
theorem acceptPurchase_eq (a : Account) (e : EventRec) (origin : Origin) (counter : Option Nat) {s : State}
    (free : 2 ≤ journalFree s.journal) :
    let charged := balanceUpdate a.number e.price 2 s
    let recorded := putJournal (appendRecord s.clock.time (.purchase a.number e.id e.price origin) charged.journal) charged
    let reserved := putJournal { recorded.journal with reserved := recorded.journal.reserved + 1 } recorded
    acceptPurchase a e origin counter s =
      recompute a.address (changeEvent e.id (fun r => { r with holders := r.holders ++ [a.number] })
        (changeAccount a.number (fun r => { r with purchases := r.purchases ++
          [{ event := e.id, price := e.price, time := s.clock.time, origin := origin, counter := counter }] })
          reserved)) := by
  intro charged recorded reserved
  have room : 2 ≤ journalFree charged.journal := journalFree_balanceUpdate free
  have written : plainWrite s.clock.time (.purchase a.number e.id e.price origin) charged = recorded :=
    plainWrite_of_free (by omega) _ _
  have left : 1 ≤ journalFree recorded.journal := written ▸ journalFree_plainWrite room _ _
  have taken : takeReservation recorded = reserved := if_pos left
  unfold acceptPurchase
  dsimp only
  rw [written, taken]

/-! ### A plant purchase (R151) -/

/-- What becomes of a plant purchase with a verdict. -/
def decided (p : PlantPurchase) (s : State) (verdict : Verdict × Option (Account × EventRec)) : State :=
  returnAnswer p verdict.1 (match verdict.2 with
    | none => s
    | some (a, e) => acceptPurchase a e .plant (some p.counter) s)

theorem decidePurchase_eq (p : PlantPurchase) (s : State) : decidePurchase p s = decided p s (purchaseVerdict p s) := by
  unfold decidePurchase decided
  split
  · rename_i h
    rw [h]
  · rename_i h
    rw [h]

theorem exec_purchaseDecide {s : State} {p : PlantPurchase} {rest : List PlantPurchase} (hp : s.phase = .running)
    (h : s.due.purchases = p :: rest) : exec .purchaseDecide s = .next (decided p
      { s with due := { s.due with purchases := rest } }
      (purchaseVerdict p { s with due := { s.due with purchases := rest } })) := by
  change Host.Outcome.next (whenRunning purchaseDecideStep s) = _
  rw [whenRunning_of_running hp, purchaseDecideStep, h]
  exact congrArg _ (decidePurchase_eq _ _)

section
variable {p : PlantPurchase} {s : State}

theorem purchaseVerdict_noEvent (h : findEvent p.event s.events = none) :
    purchaseVerdict p s = (.refused .closed, none) := by
  rw [purchaseVerdict, h]

theorem purchaseVerdict_noAccount {e : EventRec} (h : findEvent p.event s.events = some e)
    (ha : ((boundAccount s p.address p.port).bind fun k => findAccount k s.accounts) = none) :
    purchaseVerdict p s = (.refused .notActive, none) := by
  simp only [purchaseVerdict, h, ha]

/-- The cases 3 to 9 of a purchase whose event and account are held. -/
theorem purchaseVerdict_held {e : EventRec} {a : Account} (h : findEvent p.event s.events = some e)
    (ha : ((boundAccount s p.address p.port).bind fun k => findAccount k s.accounts) = some a) :
    purchaseVerdict p s =
      if ∃ b ∈ a.purchases, b.event = p.event then (.accepted, none)
      else if e.state = .runningClosed then (.refused .closed, none)
      else if a.state ≠ .active then (.refused .notActive, none)
      else if (findTap a.address s.taps).any (·.model ≠ .event) = true then (.refused .notCapable, none)
      else if 2 ≤ a.purchases.length then (.refused .limit, none)
      else if 1024 < s.journal.records.length + s.journal.reserved + 2 then (.deferred, none)
      else (.accepted, some (a, e)) := by
  obtain ⟨-, hid⟩ := findEvent_some h
  simp only [purchaseVerdict, h, ha]
  exact if_congr (hid ▸ holdsEvent_iff) rfl (if_congr Iff.rfl rfl (if_congr bne_iff_ne rfl
    (if_congr (otherModel_iff a s) rfl (if_congr Iff.rfl rfl (if_congr journalFree_lt_two rfl rfl)))))

end

/-! ### PURCHASE_ENTER (R153) -/

section
variable {k e : Nat} {s : State}

theorem purchaseEnterStep_unset (h : s.clock.state = .unset) :
    purchaseEnterStep k e s = (s, refusal .timeUnset) := if_pos h

section
variable (hset : s.clock.state = .set)

include hset in
theorem purchaseEnterStep_outOfRange (h : ¬((1 ≤ k ∧ k ≤ 99999999) ∧ (1 ≤ e ∧ e ≤ 255))) :
    purchaseEnterStep k e s = (s, refusal .outOfRange) := by
  rw [purchaseEnterStep, if_neg (by rw [hset]; decide), if_pos]
  rw [← accountInRange_iff, ← within_iff] at h
  cases hk : accountInRange k
  · rfl
  · cases he : within 1 255 e
    · rfl
    · exact absurd ⟨hk, he⟩ h

variable (hk : 1 ≤ k ∧ k ≤ 99999999) (he : 1 ≤ e ∧ e ≤ 255)

include hset hk he in
theorem purchaseEnterStep_notFound (h : findAccount k s.accounts = none ∨ findEvent e s.events = none) :
    purchaseEnterStep k e s = (s, refusal .notFound) := by
  rw [purchaseEnterStep, if_neg (by rw [hset]; decide), accountInRange_iff.2 hk, within_iff.2 he, if_neg (by decide)]
  cases ha : findAccount k s.accounts with
  | none => rfl
  | some a => rw [h.resolve_left (by rw [ha]; exact nofun)]

include hset hk he in
/-- The checks 5 to 10 of a purchase whose account and event are held. -/
theorem purchaseEnterStep_held {a : Account} {ev : EventRec} (ha : findAccount k s.accounts = some a)
    (hev : findEvent e s.events = some ev) :
    purchaseEnterStep k e s =
      if ∃ b ∈ a.purchases, b.event = e then (s, refusal .existing)
      else if a.state ≠ .active ∨ ev.state = .runningClosed then (s, refusal .wrongState)
      else if (findTap a.address s.taps).any (·.model ≠ .event) = true then (s, refusal .notCapable)
      else if 2 ≤ a.purchases.length then (s, refusal .tableFull)
      else if 1024 < s.journal.records.length + s.journal.reserved + 2 then
        (s, { status := .journalFull, fields := byte2 (journalFree s.journal) })
      else (acceptPurchase a ev .host none s,
        replyOk (byte4 ev.price ++ byte4 (balanceUpdate k ev.price 2 s).journal.nextSequence)) := by
  rw [purchaseEnterStep, if_neg (by rw [hset]; decide), accountInRange_iff.2 hk, within_iff.2 he, if_neg (by decide), ha,
    hev]
  refine if_congr holdsEvent_iff rfl ?_
  rw [ite_or]
  exact if_congr bne_iff_ne rfl (if_congr Iff.rfl rfl
    (if_congr (otherModel_iff a s) rfl (if_congr Iff.rfl rfl (if_congr journalFree_lt_two rfl rfl))))

end

end

/-- Settles O46: the acceptance with its two slots, and the decisions in the order of their cases. -/
theorem purchasesAreDecided : Obligations.PurchasesAreDecided := by
  refine ⟨fun s a e origin counter _ _ room => ?accept, fun s p rest hp hdue => ?decide, fun tag k id s u => ?enter⟩
  case accept => exact acceptPurchase_eq a e origin counter (by unfold journalFree journalHeld; omega)
  case decide =>
    intro u answered bound
    have hrun : exec .purchaseDecide s = .next (decided p u (purchaseVerdict p u)) := exec_purchaseDecide hp hdue
    refine ⟨fun he => ?_, fun e he => ⟨fun hb => ?_, fun a hb => ?_⟩⟩
    · rw [hrun, purchaseVerdict_noEvent (s := u) he]
      rfl
    · rw [hrun, purchaseVerdict_noAccount (s := u) he hb]
      rfl
    · rw [hrun, purchaseVerdict_held (s := u) he hb]
      simp only [apply_ite (decided p _), apply_ite Host.Outcome.next]
      rfl
  case enter =>
    intro c h
    have hexec := exec_of_executes (owner := purchaseEnterStep k id) rfl h
    refine ⟨fun hunset => by rw [hexec, purchaseEnterStep_unset hunset], fun hset => ⟨fun hr => by
      rw [hexec, purchaseEnterStep_outOfRange hset hr], fun hk hk' hid hid' => ⟨fun hn => by
      rw [hexec, purchaseEnterStep_notFound hset ⟨hk, hk'⟩ ⟨hid, hid'⟩ hn], fun a e ha he => ?_⟩⟩⟩
    have held := purchaseEnterStep_held hset ⟨hk, hk'⟩ ⟨hid, hid'⟩ ha he
    have answer : exec c s = (fun r : State × Reply => replies c r.2 r.1) (purchaseEnterStep k id u) := hexec
    rw [answer, held]
    simp only [apply_ite fun r : State × Reply => replies c r.2 r.1]
    rfl

end Sys2Proof.Machine
end

section
/-! SUPPORT. What money steps make of the accounts, the journal, the Meter and the alarms, as a relation that composes
(R133, R134, R155, R166, R167, R170). -/

namespace Sys2Proof.Machine

/-! ### The relation -/

/-- The records written behind a journal that stood: the REFUND records are `refunds`, all others OVERFLOW records. -/
structure Recorded (refunds : List RecordBody) (now : Nat) (j k : Journal) (written : List JournalRec) : Prop where
  records : k.records = j.records ++ written
  refunds : (written.map (·.body)).filter isRefund = refunds
  sequences : written.map (·.sequence) = (List.range written.length).map fun i => nextSequence^[i] j.nextSequence
  next : k.nextSequence = nextSequence^[written.length] j.nextSequence
  bodies : ∀ r ∈ written, r.time = now ∧ (isRefund r.body = false → ∃ n, r.body = .overflow n)

theorem Recorded.nothing (now : Nat) {j k : Journal} (hrecords : k.records = j.records)
    (hnext : k.nextSequence = j.nextSequence) : Recorded [] now j k [] :=
  ⟨by rw [hrecords, List.append_nil], rfl, rfl, hnext, List.forall_mem_nil _⟩

theorem Recorded.append {refunds more : List RecordBody} {now : Nat} {i j k : Journal} {xs ys : List JournalRec}
    (h : Recorded refunds now i j xs) (l : Recorded more now j k ys) :
    Recorded (refunds ++ more) now i k (xs ++ ys) where
  records := by rw [l.records, h.records, List.append_assoc]
  refunds := by rw [List.map_append, List.filter_append, h.refunds, l.refunds]
  sequences := by
    rw [List.map_append, h.sequences, l.sequences, h.next, List.length_append, List.range_add, List.map_append,
      List.map_map]
    refine congrArg (_ ++ ·) (List.map_congr_left fun n _ => ?_)
    rw [Function.comp_apply, Nat.add_comm, Function.iterate_add_apply]
  next := by rw [l.next, h.next, List.length_append, Nat.add_comm, Function.iterate_add_apply]
  bodies := List.forall_mem_append.2 ⟨h.bodies, l.bodies⟩

/-- One record appended. -/
theorem Recorded.one {now : Nat} {body : RecordBody} {j k : Journal} (hrecords : k.records = (appendRecord now body j).records)
    (hnext : k.nextSequence = nextSequence j.nextSequence) (hbody : isRefund body = false → ∃ n, body = .overflow n) :
    Recorded ([body].filter isRefund) now j k [{ sequence := j.nextSequence, time := now, body := body }] :=
  ⟨hrecords, rfl, rfl, hnext, List.forall_mem_singleton.2 ⟨rfl, hbody⟩⟩

/-- The changes of condition given: JOURNAL_HIGH when it is judged, BALANCE_OVERFLOW present when a flag becomes set. -/
structure Given (judged clipped : Bool) (given : List (Nat × Bool)) : Prop where
  sources : ∀ x ∈ given, x.1 = journalHighSource ∨ x = (balanceOverflowSource, true)
  high : journalHighSource ∈ given.map (·.1) ↔ judged = true
  overflow : (balanceOverflowSource, true) ∈ given ↔ clipped = true

theorem Given.append {a b c d : Bool} {xs ys : List (Nat × Bool)} (h : Given a b xs) (k : Given c d ys) :
    Given (a || c) (b || d) (xs ++ ys) where
  sources := List.forall_mem_append.2 ⟨h.sources, k.sources⟩
  high := by rw [List.map_append, List.mem_append, h.high, k.high, Bool.or_eq_true]
  overflow := by rw [List.mem_append, h.overflow, k.overflow, Bool.or_eq_true]

/-- From `s` to `t` every account is changed by `f`, `used` reservations are used, the REFUND records `refunds` are
written, JOURNAL_HIGH is judged if `judged`, and a flag becomes set if `clipped`. -/
structure Moves (f : Account → Account) (used : Nat) (refunds : List RecordBody) (judged clipped : Bool) (s t : State) :
    Prop where
  clock : t.clock = s.clock
  accounts : t.accounts = s.accounts.map f
  reserved : t.journal.reserved + used = s.journal.reserved
  written : ∃ written, Recorded refunds s.clock.time s.journal t.journal written
  quiet : judged = false → t.journal = s.journal
  high : t.journal.high =
    if judged then decide (768 ≤ t.journal.records.length + t.journal.reserved) else s.journal.high
  meter : t.meter = { s.meter with balanceOverflow := s.meter.balanceOverflow || clipped }
  given : ∃ given, Given judged clipped given ∧ t.alarms = alarmsAfter s.clock.time given s.alarms
  highGiven : (alarmOf t.alarms journalHighSource).condition =
    if judged then t.journal.high else (alarmOf s.alarms journalHighSource).condition
  overflowGiven : (alarmOf t.alarms balanceOverflowSource).condition =
    ((alarmOf s.alarms balanceOverflowSource).condition || clipped)

theorem Moves.trans {f g : Account → Account} {m n : Nat} {rs qs : List RecordBody} {a b c d : Bool} {s t u : State}
    (h : Moves f m rs a b s t) (k : Moves g n qs c d t u) :
    Moves (fun x => g (f x)) (m + n) (rs ++ qs) (a || c) (b || d) s u where
  clock := k.clock.trans h.clock
  accounts := by rw [k.accounts, h.accounts, List.map_map]; rfl
  reserved := by have := h.reserved; have := k.reserved; omega
  written := by
    obtain ⟨xs, hx⟩ := h.written
    obtain ⟨ys, hy⟩ := k.written
    exact ⟨xs ++ ys, hx.append (h.clock ▸ hy)⟩
  quiet := fun hq => by
    obtain ⟨ha, hc⟩ := Bool.or_eq_false_iff.1 hq
    exact (k.quiet hc).trans (h.quiet ha)
  high := by
    cases c with
    | true => rw [k.high, Bool.or_true]; rfl
    | false => rw [k.quiet rfl, h.high, Bool.or_false]
  meter := by rw [k.meter, h.meter, Bool.or_assoc]
  given := by
    obtain ⟨xs, hx, hs⟩ := h.given
    obtain ⟨ys, hy, ht⟩ := k.given
    exact ⟨xs ++ ys, hx.append hy, by rw [ht, hs, h.clock, alarmsAfter_append]⟩
  highGiven := by
    cases c with
    | true => rw [k.highGiven, Bool.or_true]; rfl
    | false => rw [k.highGiven, if_neg Bool.false_ne_true, h.highGiven, k.quiet rfl, Bool.or_false]
  overflowGiven := by rw [k.overflowGiven, h.overflowGiven, Bool.or_assoc]

/-! ### The steps -/

theorem Given.nothing : Given false false [] where
  sources := List.forall_mem_nil _
  high := by simp
  overflow := by simp

/-- A step that changes the accounts at most. -/
theorem Moves.of_accounts {f : Account → Account} {s t : State} (hclock : t.clock = s.clock)
    (haccounts : t.accounts = s.accounts.map f) (hjournal : t.journal = s.journal) (hmeter : t.meter = s.meter)
    (halarms : t.alarms = s.alarms) : Moves f 0 [] false false s t where
  clock := hclock
  accounts := haccounts
  reserved := by rw [hjournal, Nat.add_zero]
  written := ⟨[], .nothing _ (by rw [hjournal]) (by rw [hjournal])⟩
  quiet _ := hjournal
  high := by rw [hjournal]; rfl
  meter := by rw [hmeter, Bool.or_false]
  given := ⟨[], .nothing, halarms⟩
  highGiven := by rw [halarms]; rfl
  overflowGiven := by rw [halarms, Bool.or_false]

theorem Moves.of_same {s t : State} (hclock : t.clock = s.clock) (haccounts : t.accounts = s.accounts)
    (hjournal : t.journal = s.journal) (hmeter : t.meter = s.meter) (halarms : t.alarms = s.alarms) :
    Moves id 0 [] false false s t :=
  .of_accounts hclock (haccounts.trans (List.map_id _).symm) hjournal hmeter halarms

theorem moves_changeAccount (k : Nat) (f : Account → Account) (s : State) :
    Moves (fun a => if a.number = k then f a else a) 0 [] false false s (changeAccount k f s) :=
  .of_accounts rfl rfl rfl rfl rfl

theorem given_overflow : Given false true [(balanceOverflowSource, true)] where
  sources := List.forall_mem_singleton.2 (.inr rfl)
  high := by decide
  overflow := by simp

theorem given_high (high : Bool) : Given true false [(journalHighSource, high)] where
  sources := List.forall_mem_singleton.2 (.inl rfl)
  high := by simp
  overflow := by simp [journalHighSource, balanceOverflowSource]

theorem moves_overflowFull (s : State) : Moves id 0 [] false true s { s with
    meter := { s.meter with balanceOverflow := true }
    alarms := alarmsGive s.clock.time balanceOverflowSource true s.alarms } where
  clock := rfl
  accounts := (List.map_id _).symm
  reserved := rfl
  written := ⟨[], .nothing _ rfl rfl⟩
  quiet _ := rfl
  high := rfl
  meter := by rw [Bool.or_true]
  given := ⟨_, given_overflow, rfl⟩
  highGiven := by
    rw [condition_alarmsGive _ _ _ _ _ (by decide), if_neg (by decide)]
    rfl
  overflowGiven := by
    rw [condition_alarmsGive _ _ _ _ _ (by decide), if_pos rfl, Bool.or_true]

/-- The journal changed, judged, with one REFUND or OVERFLOW record or none, and JOURNAL_HIGH given. -/
theorem moves_putJournal {used : Nat} {refunds : List RecordBody} {j : Journal} {s : State}
    (hreserved : j.reserved + used = s.journal.reserved)
    (hwritten : ∃ written, Recorded refunds s.clock.time s.journal j written) :
    Moves id used refunds true false s (putJournal j s) where
  clock := rfl
  accounts := (List.map_id _).symm
  reserved := hreserved
  written := by
    obtain ⟨written, h⟩ := hwritten
    exact ⟨written, ⟨h.records, h.refunds, h.sequences, h.next, h.bodies⟩⟩
  quiet h := nomatch h
  high := rfl
  meter := by rw [Bool.or_false]; rfl
  given := ⟨_, given_high (journalHigh j), rfl⟩
  highGiven := by
    rw [putJournal_alarms, condition_alarmsGive _ _ _ _ _ (by decide), if_pos rfl]
    rfl
  overflowGiven := by
    rw [putJournal_alarms, condition_alarmsGive _ _ _ _ _ (by decide), if_neg (by decide), Bool.or_false]

theorem moves_release {s : State} (h : 1 ≤ s.journal.reserved) :
    Moves id 1 [] true false s (releaseReservation s) := by
  rw [releaseReservation, if_pos h]
  exact moves_putJournal (Nat.sub_add_cancel h) ⟨[], .nothing _ rfl rfl⟩

theorem moves_convert {s : State} (h : 1 ≤ s.journal.reserved) (k e price : Nat) (cause : RefundCause) :
    Moves id 1 [.refund k e price cause] true false s
      (convertReservation s.clock.time (.refund k e price cause) s) := by
  rw [convertReservation, if_pos h]
  exact moves_putJournal (Nat.sub_add_cancel h)
    ⟨_, .one (body := .refund k e price cause) rfl rfl fun h : true = false => nomatch h⟩

/-- An OVERFLOW record, if there is room for it, and BALANCE_OVERFLOW given. -/
theorem moves_overflowTaken (k : Nat) (s : State) : ∃ judged, Moves id 0 [] judged true s (overflowTaken k 0 s) := by
  by_cases room : s.journal.records.length + s.journal.reserved < 1024
  · refine ⟨true, ?_⟩
    have free : 1 ≤ journalFree s.journal := by unfold journalFree journalHeld; omega
    have written : Moves id 0 [] true false s (plainWrite s.clock.time (.overflow k) s) := by
      rw [plainWrite_of_free free]
      exact moves_putJournal rfl ⟨_, .one rfl rfl fun _ => ⟨k, rfl⟩⟩
    have given := moves_overflowFull (plainWrite s.clock.time (.overflow k) s)
    unfold overflowTaken
    rw [if_pos free]
    exact written.trans given
  · refine ⟨false, ?_⟩
    rw [overflowTaken_full room]
    exact moves_overflowFull s

/-- A refund: the balance updated, and the record written on its reservation. -/
theorem moves_refund {s : State} {a : Account} (ha : findAccount a.number s.accounts = some a)
    (hrising : rising (s.accounts.map (·.number))) (hreserved : 1 ≤ s.journal.reserved) (e price : Nat)
    (cause : RefundCause) :
    Moves (fun x => if x.number = a.number then balanced (-(price : Int)) a else x) 1
      [.refund a.number e price cause] true (clips (-(price : Int)) a) s (refund a.number e price cause s) := by
  unfold refund
  dsimp only
  rw [balanceUpdate_eq ha hrising]
  have changed := moves_changeAccount a.number (fun _ => balanced (-(price : Int)) a) s
  by_cases hclips : clips (-(price : Int)) a = true
  · rw [if_pos hclips, hclips]
    obtain ⟨judged, taken⟩ := moves_overflowTaken a.number (changeAccount a.number (fun _ => balanced (-(price : Int)) a) s)
    have both := changed.trans taken
    have standing := both.reserved
    have converted := moves_convert (s := overflowTaken a.number 0
      (changeAccount a.number (fun _ => balanced (-(price : Int)) a) s)) (by omega) a.number e price cause
    have all := both.trans converted
    rw [Bool.or_true] at all
    exact all
  · rw [if_neg hclips, Bool.not_eq_true] at *
    rw [hclips]
    exact changed.trans (moves_convert (s := changeAccount a.number (fun _ => balanced (-(price : Int)) a) s) hreserved _ _ _ _)

end Sys2Proof.Machine
end

section
/-! SUPPORT. What recomputations make of the taps, as a relation that composes: the taps named are up to date, and every
other tap stands (R93, R94, R148, R155). -/

namespace Sys2Proof.Machine

/-! ### The relation -/

/-- The tap's desired setting and its place in the command queue are as a recomputation makes them. -/
def upToDate (s : State) (r : TapRec) : Prop :=
  r.switching.desired = deriveSetting s r ∧
    (r.address ∈ s.commandQueue ↔ confirms r.switching.confirmed r.switching.desired = false)

/-- From `s` to `t` the taps named have been made up to date, and all others stand with the settings they derive. -/
structure Hands (named : Nat → Prop) (s t : State) : Prop where
  bare : t.taps.map bareTap = s.taps.map bareTap
  derived : ∀ r ∈ t.taps, named r.address → r.state ≠ .removing → upToDate t r
  others : ∀ r ∈ s.taps, ¬named r.address →
    r ∈ t.taps ∧ (r.address ∈ t.commandQueue ↔ r.address ∈ s.commandQueue)
  stands : ∀ r ∈ s.taps, ¬named r.address → deriveSetting t r = deriveSetting s r

theorem addresses_of_bare {xs ys : List TapRec} (h : xs.map bareTap = ys.map bareTap) :
    xs.map (·.address) = ys.map (·.address) := by
  have haddress := congrArg (List.map (·.address)) h
  rw [List.map_map, List.map_map] at haddress
  exact haddress

theorem bare_exists {xs ys : List TapRec} (h : xs.map bareTap = ys.map bareTap) {r : TapRec} (hr : r ∈ xs) :
    ∃ q ∈ ys, bareTap q = bareTap r :=
  List.mem_map.1 (h ▸ List.mem_map_of_mem hr)

theorem Hands.congr {m n : Nat → Prop} {s t : State} (h : Hands m s t) (hmn : ∀ a, m a ↔ n a) : Hands n s t := by
  obtain rfl : m = n := funext fun a => propext (hmn a)
  exact h

theorem Hands.trans {m n : Nat → Prop} {s t u : State} (hrising : rising (s.taps.map (·.address))) (h : Hands m s t)
    (k : Hands n t u) : Hands (fun a => m a ∨ n a) s u where
  bare := k.bare.trans h.bare
  derived r hr hnamed hlive := by
    by_cases hn : n r.address
    · exact k.derived r hr hn hlive
    obtain ⟨q, hq, hbare⟩ := bare_exists k.bare hr
    have haddress : q.address = r.address := (congrArg TapRec.address hbare :)
    obtain ⟨hqu, hqueue⟩ := k.others q hq (haddress ▸ hn)
    have hu : rising (u.taps.map (·.address)) := by rwa [addresses_of_bare k.bare, addresses_of_bare h.bare]
    obtain rfl := eq_of_address hu hr hqu haddress
    obtain ⟨hdesired, hin⟩ := h.derived q hq (hnamed.resolve_right hn) hlive
    exact ⟨hdesired.trans (k.stands q hq hn).symm, hqueue.trans hin⟩
  others r hr hnamed := by
    obtain ⟨hm, hn⟩ := not_or.1 hnamed
    obtain ⟨hrt, hqueue⟩ := h.others r hr hm
    obtain ⟨hru, hqueue'⟩ := k.others r hrt hn
    exact ⟨hru, hqueue'.trans hqueue⟩
  stands r hr hnamed := by
    obtain ⟨hm, hn⟩ := not_or.1 hnamed
    exact (k.stands r (h.others r hr hm).1 hn).trans (h.stands r hr hm)

/-- A step that leaves the taps, the queue and the settings that the taps derive. -/
theorem Hands.of_derived {s t : State} (htaps : t.taps = s.taps) (hqueue : t.commandQueue = s.commandQueue)
    (hderive : ∀ r ∈ s.taps, deriveSetting t r = deriveSetting s r) : Hands (fun _ => False) s t where
  bare := by rw [htaps]
  derived _ _ h := h.elim
  others r hr _ := ⟨htaps ▸ hr, by rw [hqueue]⟩
  stands r hr _ := hderive r hr

/-! ### What a derivation reads (R90, R91) -/

/-- A derivation reads the settings of the accounts bound to the tap's ports. -/
theorem deriveSetting_congr {s t : State} {r : TapRec}
    (h : ∀ i, i < 4 → ∀ k, vecGet r.ports i none = some k →
      portFor t.events t.lineup.active r.model r.stale (findAccount k t.accounts) =
        portFor s.events s.lineup.active r.model r.stale (findAccount k s.accounts)) :
    deriveSetting t r = deriveSetting s r := by
  refine Vector.ext fun i hi => ?_
  rw [← vecGet_of_lt _ i portOff hi, ← vecGet_of_lt _ i portOff hi]
  unfold deriveSetting
  rw [vecGet_vecMap _ _ _ none _ hi, vecGet_vecMap _ _ _ none _ hi]
  cases hk : vecGet r.ports i none with
  | none => rfl
  | some k => exact h i hi k hk

theorem deriveSetting_of_same {s t : State} (hevents : t.events = s.events) (hlineup : t.lineup = s.lineup)
    (haccounts : t.accounts = s.accounts) (r : TapRec) : deriveSetting t r = deriveSetting s r := by
  unfold deriveSetting
  rw [hevents, hlineup, haccounts]

/-- A change of one account is read by the taps at its address alone. -/
theorem deriveSetting_other {s t : State} (hbound : boundSound s) (hevents : t.events = s.events)
    (hlineup : t.lineup = s.lineup) {a : Account} (ha : a ∈ s.accounts)
    (hrest : ∀ k, k ≠ a.number → findAccount k t.accounts = findAccount k s.accounts) {r : TapRec} (hr : r ∈ s.taps)
    (hne : r.address ≠ a.address) : deriveSetting t r = deriveSetting s r := by
  obtain ⟨hnumbers, -, -, hnamed, -⟩ := hbound
  refine deriveSetting_congr fun i hi k hk => ?_
  obtain ⟨b, hb, hkey⟩ := hnamed r hr (i + 1) ⟨by omega, by omega⟩ k hk
  simp only [bindingKey, Prod.mk.injEq] at hkey
  obtain ⟨hnumber, haddress, -⟩ := hkey
  have hother : k ≠ a.number := fun h => hne (by rw [← haddress, eq_of_number hnumbers ha hb (hnumber.trans h)])
  rw [hevents, hlineup, hrest k hother]

/-- A derivation reads the grants of purchases whose events are held. -/
theorem portFor_congr {events held : List EventRec} {active : Bank} {model : TapModel} {stale : Bool}
    {account : Option Account}
    (h : ∀ a, account = some a → ∀ p ∈ a.purchases, grantOf events active p = grantOf held active p) :
    portFor events active model stale account = portFor held active model stale account := by
  unfold portFor
  cases account with
  | none => rfl
  | some a =>
    dsimp only
    rw [List.filterMap_congr (h a rfl)]

theorem deriveSetting_freeEvent {id : Nat} {s : State} (h : ∀ a ∈ s.accounts, ∀ p ∈ a.purchases, p.event ≠ id)
    (r : TapRec) : deriveSetting (freeEvent id s) r = deriveSetting s r := by
  refine deriveSetting_congr fun i hi k hk => portFor_congr fun a ha p hp => ?_
  have hne := h a (findAccount_some ha).1 p hp
  have held : findEvent p.event (s.events.filter (·.id != id)) = findEvent p.event s.events := by
    unfold findEvent
    rw [List.find?_filter]
    refine List.find?_congr fun e _ => ?_
    by_cases he : e.id = p.event
    · simp [he, hne]
    · simp [he]
  unfold grantOf
  rw [freeEvent_events, held]

theorem deriveSetting_changeEvent {id : Nat} {f : EventRec → EventRec}
    (hf : ∀ e, (f e).id = e.id ∧ (f e).channel = e.channel) (s : State) (r : TapRec) :
    deriveSetting (changeEvent id f s) r = deriveSetting s r := by
  refine deriveSetting_congr fun i hi k hk => portFor_congr fun a _ p _ => ?_
  unfold grantOf
  rw [changeEvent_events]
  rw [findEvent_modifyEvent _ _ _ fun e => (hf e).1]
  cases findEvent p.event s.events with
  | none => rfl
  | some e =>
    rw [Option.map_some, Option.bind_some, Option.bind_some]
    split
    · rw [(hf e).2]
    · rfl

/-! ### Recomputations -/

theorem mem_requeue_self {a : Nat} {agrees : Bool} {queue : List Nat} : a ∈ requeue a agrees queue ↔ agrees = false := by
  unfold requeue
  cases agrees with
  | true => simp
  | false =>
    rw [if_neg Bool.false_ne_true]
    split
    · simpa
    · simp

theorem mem_requeue_other {a b : Nat} (h : b ≠ a) (agrees : Bool) (queue : List Nat) :
    b ∈ requeue a agrees queue ↔ b ∈ queue := by
  unfold requeue
  split
  · simp [h]
  · split
    · rfl
    · simp [h]

theorem hands_recompute (a : Nat) {s : State} (hrising : rising (s.taps.map (·.address))) :
    Hands (· = a) s (recompute a s) := by
  have quiet := changes_recompute a s
  have stands (r : TapRec) : deriveSetting (recompute a s) r = deriveSetting s r :=
    deriveSetting_of_same (quiet.same .events) (quiet.same .lineup) (quiet.same .accounts) r
  by_cases hlive : ∃ t, findTap a s.taps = some t ∧ t.state ≠ .removing
  · obtain ⟨t, ht, hlive⟩ := hlive
    obtain ⟨hmem, rfl⟩ := findTap_some ht
    have hrec := recompute_eq_requeue ht hlive hrising
    have htaps := congrArg State.taps hrec
    have hqueue := congrArg State.commandQueue hrec
    dsimp only at htaps hqueue
    refine ⟨?_, fun r hr hra _ => ?_, fun r hr hra => ?_, fun r _ _ => stands r⟩
    · rw [htaps, modifyTap, List.map_map]
      refine List.map_congr_left fun r hr => ?_
      rw [Function.comp_apply]
      split
      · rename_i hra
        rw [eq_of_address hrising hmem hr hra]
        rfl
      · rfl
    · obtain ⟨q, hq, hrq⟩ := List.mem_map.1 (htaps ▸ hr)
      obtain rfl : recomputedTap s t (s.commandQueue.contains t.address) = r := by
        rw [← hrq]
        refine (if_pos ?_).symm
        by_contra hne
        rw [if_neg hne] at hrq
        exact hne (hrq ▸ hra)
      refine ⟨(stands _).symm, ?_⟩
      rw [hqueue]
      exact mem_requeue_self
    · rw [htaps, hqueue]
      exact ⟨List.mem_map.2 ⟨r, hr, if_neg hra⟩, mem_requeue_other hra _ _⟩
  · have idle : recompute a s = s := by
      cases ht : findTap a s.taps with
      | none => exact recompute_absent ht
      | some t =>
        refine recompute_removing ht ?_
        by_contra h
        exact hlive ⟨t, ht, h⟩
    rw [idle]
    refine ⟨rfl, fun r hr hra h => ?_, fun r hr _ => ⟨hr, Iff.rfl⟩, fun _ _ _ => rfl⟩
    exact absurd ⟨r, hra ▸ findTap_of_mem hrising hr, h⟩ hlive

/-- A recomputation behind a change that only the taps at its address read. -/
theorem hands_recompute_behind {a : Nat} {s t : State} (hrising : rising (s.taps.map (·.address)))
    (htaps : t.taps = s.taps) (hqueue : t.commandQueue = s.commandQueue)
    (hderive : ∀ r ∈ s.taps, r.address ≠ a → deriveSetting t r = deriveSetting s r) :
    Hands (· = a) s (recompute a t) := by
  obtain ⟨bare, derived, others, stands⟩ := hands_recompute a (s := t) (htaps ▸ hrising)
  rw [htaps] at bare others stands
  rw [hqueue] at others
  exact ⟨bare, derived, others, fun r hr hra => (stands r hr hra).trans (hderive r hr hra)⟩

/-- The addresses of the taps of the accounts listed. -/
def tapOfHolder (accounts : List Account) (holders : List Nat) (address : Nat) : Prop :=
  ∃ k ∈ holders, ∃ a, findAccount k accounts = some a ∧ a.address = address

theorem tapOfHolder_cons {accounts : List Account} {k : Nat} {holders : List Nat} {address : Nat} :
    tapOfHolder accounts (k :: holders) address ↔
      (∃ a, findAccount k accounts = some a ∧ a.address = address) ∨ tapOfHolder accounts holders address := by
  simp only [tapOfHolder, List.exists_mem_cons_iff]

theorem hands_handHolders (holders : List Nat) {s : State} (hrising : rising (s.taps.map (·.address))) :
    Hands (tapOfHolder s.accounts holders) s (handHolders holders s) := by
  induction holders generalizing s with
  | nil => exact (Hands.of_derived rfl rfl fun _ _ => rfl).congr fun a => by simp [tapOfHolder]
  | cons k holders ih =>
    unfold handHolders at ih ⊢
    rw [List.foldl_cons]
    cases ha : findAccount k s.accounts with
    | none =>
      refine (ih hrising).congr fun address => tapOfHolder_cons.trans ?_ |>.symm
      rw [ha]
      simp
    | some a =>
      have first := hands_recompute a.address hrising
      have haccounts : (recompute a.address s).accounts = s.accounts := (changes_recompute a.address s).same .accounts
      have later := ih (s := recompute a.address s) (by rwa [addresses_of_bare first.bare])
      rw [haccounts] at later
      refine (first.trans hrising later).congr fun address => ?_
      rw [tapOfHolder_cons, ha]
      simp [eq_comm]

end Sys2Proof.Machine
end

section
/-! SUPPORT. One event ended: its holders one after the other, each with its refund or release, its purchase dropped and
its tap recomputed, and the event freed (R155, R157). -/

namespace Sys2Proof.Machine

/-! ### Purchases that end -/

/-- A purchase that ends: its event and holder, the price charged, and whether a refund is owed. -/
structure Ending where
  id : Nat
  holder : Nat
  price : Nat
  owed : Bool

/-- The account once a purchase has ended. -/
def endPurchase (x : Ending) (a : Account) : Account :=
  if a.number = x.holder then
    { (if x.owed then balanced (-(x.price : Int)) a else a) with purchases := a.purchases.filter (·.event != x.id) }
  else a

/-- The account once several purchases have ended. -/
def endPurchases (xs : List Ending) (a : Account) : Account := xs.foldl (fun b x => endPurchase x b) a

/-- The REFUND record of a purchase that ends. -/
def refundBody (cause : RefundCause) (x : Ending) : Option RecordBody :=
  if x.owed then some (.refund x.holder x.id x.price cause) else none

/-- A flag becomes set among the accounts. -/
def clipsAny (xs : List Ending) (accounts : List Account) : Bool :=
  accounts.any fun a => !a.overflow && (endPurchases xs a).overflow

/-- From `s` to `t` the purchases listed end. -/
def Ends (cause : RefundCause) (xs : List Ending) (s t : State) : Prop :=
  Moves (endPurchases xs) xs.length (xs.filterMap (refundBody cause)) (!xs.isEmpty) (clipsAny xs s.accounts) s t

theorem endPurchase_other {x : Ending} {a : Account} (h : a.number ≠ x.holder) : endPurchase x a = a := if_neg h

theorem endPurchase_binding (x : Ending) (a : Account) : bindingKey (endPurchase x a) = bindingKey a := by
  unfold endPurchase
  split
  · split
    · rfl
    · rfl
  · rfl

theorem endPurchases_binding (xs : List Ending) (a : Account) : bindingKey (endPurchases xs a) = bindingKey a := by
  induction xs generalizing a with
  | nil => rfl
  | cons x xs ih => exact (ih _).trans (endPurchase_binding x a)

theorem endPurchases_number (xs : List Ending) (a : Account) : (endPurchases xs a).number = a.number :=
  congrArg (·.1) (endPurchases_binding xs a)

theorem endPurchases_address (xs : List Ending) (a : Account) : (endPurchases xs a).address = a.address :=
  congrArg (·.2.1) (endPurchases_binding xs a)

theorem endPurchases_append (xs ys : List Ending) (a : Account) :
    endPurchases (xs ++ ys) a = endPurchases ys (endPurchases xs a) := List.foldl_append

theorem endPurchase_overflow (x : Ending) (a : Account) :
    (endPurchase x a).overflow = (a.overflow || (decide (a.number = x.holder) && (x.owed && clips (-(x.price : Int)) a))) := by
  unfold endPurchase
  by_cases hn : a.number = x.holder
  · rw [if_pos hn]
    cases x.owed <;> simp [hn, balanced]
  · simp [hn]

theorem overflow_endPurchases {xs : List Ending} {a : Account} (h : a.overflow = true) :
    (endPurchases xs a).overflow = true := by
  induction xs generalizing a with
  | nil => exact h
  | cons x xs ih => exact ih (by rw [endPurchase_overflow, h, Bool.true_or])

theorem clipsAny_append (xs ys : List Ending) (accounts : List Account) :
    clipsAny (xs ++ ys) accounts = (clipsAny xs accounts || clipsAny ys (accounts.map (endPurchases xs))) := by
  unfold clipsAny
  rw [List.any_map, Bool.eq_iff_iff, Bool.or_eq_true]
  simp only [List.any_eq_true, endPurchases_append, Function.comp_apply]
  rw [← exists_or]
  refine exists_congr fun a => ?_
  rw [← and_or_left]
  refine and_congr_right fun _ => ?_
  have later := overflow_endPurchases (xs := ys) (a := endPurchases xs a)
  have first := overflow_endPurchases (xs := xs) (a := a)
  cases hx : (endPurchases xs a).overflow with
  | true => simp [later hx]
  | false =>
    have clear : a.overflow = false := Bool.eq_false_iff.2 fun h => Bool.eq_false_iff.1 hx (first h)
    simp [clear]

theorem findAccount_map {f : Account → Account} (hf : ∀ a, (f a).number = a.number) (k : Nat) (accounts : List Account) :
    findAccount k (accounts.map f) = (findAccount k accounts).map f := by
  unfold findAccount
  rw [List.find?_map]
  refine congrArg (Option.map f) (List.find?_congr fun a _ => ?_)
  rw [Function.comp_apply, hf]

theorem Moves.congr {f g : Account → Account} {n : Nat} {rs : List RecordBody} {b c : Bool} {s t : State}
    (h : Moves f n rs b c s t) (hfg : ∀ a ∈ s.accounts, f a = g a) : Moves g n rs b c s t :=
  { h with accounts := h.accounts.trans (List.map_congr_left hfg) }

theorem Ends.trans {cause : RefundCause} {xs ys : List Ending} {s t u : State} (h : Ends cause xs s t)
    (k : Ends cause ys t u) : Ends cause (xs ++ ys) s u := by
  have both := Moves.trans h k
  rw [h.accounts, ← clipsAny_append, ← List.filterMap_append, ← List.length_append] at both
  have ends : (!(xs ++ ys).isEmpty) = (!xs.isEmpty || !ys.isEmpty) := by cases xs <;> rfl
  unfold Ends
  rw [ends]
  exact both.congr fun a _ => (endPurchases_append xs ys a).symm

theorem clipsAny_nil (accounts : List Account) : clipsAny [] accounts = false := by
  simp [clipsAny, endPurchases]

/-- A step in which no purchase ends and the money stands. -/
theorem Ends.of_same {cause : RefundCause} {s t : State} (hclock : t.clock = s.clock) (haccounts : t.accounts = s.accounts)
    (hjournal : t.journal = s.journal) (hmeter : t.meter = s.meter) (halarms : t.alarms = s.alarms) :
    Ends cause [] s t := by
  unfold Ends
  rw [clipsAny_nil]
  exact Moves.of_same hclock haccounts hjournal hmeter halarms

/-! ### One holder -/

/-- The state before the holder's tap is recomputed. -/
def purchaseEnded (a : Account) (e price : Nat) (owed : Bool) (cause : RefundCause) (s : State) : State :=
  changeAccount a.number (fun r => { r with purchases := r.purchases.filter (·.event != e) })
    (if owed then refund a.number e price cause s else releaseReservation s)

section
variable {s : State} {a : Account} (ha : findAccount a.number s.accounts = some a)
  (hrising : rising (s.accounts.map (·.number)))

include ha hrising in
theorem clipsAny_one (x : Ending) (hx : x.holder = a.number) :
    clipsAny [x] s.accounts = (x.owed && clips (-(x.price : Int)) a) := by
  rw [Bool.eq_iff_iff, clipsAny, List.any_eq_true]
  constructor
  · rintro ⟨b, hb, hclip⟩
    change (!b.overflow && (endPurchase x b).overflow) = true at hclip
    rw [endPurchase_overflow] at hclip
    by_cases hn : b.number = x.holder
    · obtain rfl := eq_of_number hrising (findAccount_some ha).1 hb (hn.trans hx)
      revert hclip
      cases b.overflow <;> simp
    · revert hclip
      cases b.overflow <;> simp [hn]
  · intro h
    refine ⟨a, (findAccount_some ha).1, ?_⟩
    change (!a.overflow && (endPurchase x a).overflow) = true
    rw [endPurchase_overflow, h, hx]
    rw [Bool.and_eq_true, clips_iff] at h
    simp [h.2.2]

include ha hrising in
theorem ends_purchaseEnded (hreserved : 1 ≤ s.journal.reserved) (e price : Nat) (owed : Bool) (cause : RefundCause) :
    Ends cause [⟨e, a.number, price, owed⟩] s (purchaseEnded a e price owed cause s) := by
  unfold Ends
  rw [clipsAny_one ha hrising _ rfl]
  have only (y : Account) (hy : y ∈ s.accounts) (hn : y.number = a.number) : y = a :=
    eq_of_number hrising (findAccount_some ha).1 hy hn
  cases owed with
  | true =>
    have refunded := (moves_refund ha hrising hreserved e price cause).trans
      (moves_changeAccount a.number (fun r => { r with purchases := r.purchases.filter (·.event != e) }) _)
    simp only [Bool.or_false] at refunded
    refine refunded.congr fun y hy => ?_
    by_cases hn : y.number = a.number
    · rw [only y hy hn]
      simp [endPurchases, endPurchase, balanced]
    · simp [endPurchases, endPurchase, hn]
  | false =>
    have released := (moves_release hreserved).trans
      (moves_changeAccount a.number (fun r => { r with purchases := r.purchases.filter (·.event != e) }) _)
    refine released.congr fun y hy => ?_
    by_cases hn : y.number = a.number
    · simp [endPurchases, endPurchase, hn]
    · simp [endPurchases, endPurchase, hn]

theorem changes_purchaseEnded (a : Account) (e price : Nat) (owed : Bool) (cause : RefundCause) (s : State) :
    Changes moneyBlocks s (purchaseEnded a e price owed cause s) := by
  unfold purchaseEnded
  refine Changes.trans ?_ (changes_changeAccount _ _ _).mono
  split
  · exact (changes_refund _ _ _ _ _).mono
  · exact (changes_releaseReservation _).mono

include ha in
theorem hands_dropped (hbound : boundSound s) (hreserved : 1 ≤ s.journal.reserved) (e price : Nat) (owed : Bool)
    (cause : RefundCause) :
    Hands (· = a.address) s (recompute a.address (purchaseEnded a e price owed cause s)) := by
  obtain ⟨hnumbers, haddresses, -⟩ := id hbound
  have quiet := changes_purchaseEnded a e price owed cause s
  refine hands_recompute_behind haddresses (quiet.same .taps) (quiet.same .commandQueue) fun r hr hne => ?_
  refine deriveSetting_other hbound (quiet.same .events) (quiet.same .lineup) (findAccount_some ha).1 (fun k hk => ?_) hr hne
  rw [(ends_purchaseEnded ha hnumbers hreserved e price owed cause).accounts, findAccount_map (endPurchases_number _)]
  cases hb : findAccount k s.accounts with
  | none => rfl
  | some b => exact congrArg some (endPurchase_other ((findAccount_some hb).2.symm ▸ hk))

end

/-! ### All holders -/

/-- The purchases of an event that end for the holders listed. -/
def endingsOf (owed : Account → Bool) (accounts : List Account) (id : Nat) (holders : List Nat) : List Ending :=
  holders.filterMap fun k =>
    (findAccount k accounts).bind fun a => (purchaseOf a id).map fun p => ⟨id, k, p.price, owed a⟩

/-- One holder's end as settlement and cancellation do it, from any state whose taps stand but for their settings. -/
def endsBy (owed : Account → Bool) (cause : RefundCause) (id : Nat) (taps : List TapRec) (f : Nat → State → State) : Prop :=
  ∀ s a p, s.taps.map bareTap = taps.map bareTap → findAccount a.number s.accounts = some a → purchaseOf a id = some p →
    f a.number s = recompute a.address (purchaseEnded a id p.price (owed a) cause s)

theorem endingsOf_cons {owed : Account → Bool} {accounts : List Account} {id : Nat} {a : Account} {p : OpenPurchase}
    (ha : findAccount a.number accounts = some a) (hp : purchaseOf a id = some p) (holders : List Nat) :
    endingsOf owed accounts id (a.number :: holders) = ⟨id, a.number, p.price, owed a⟩ :: endingsOf owed accounts id holders := by
  unfold endingsOf
  rw [List.filterMap_cons, ha, Option.bind_some, hp]
  rfl

/-- The end of one purchase is read by its holder alone. -/
theorem endingsOf_other {owed : Account → Bool} {accounts : List Account} {id : Nat} {x : Ending} {holders : List Nat}
    (h : x.holder ∉ holders) :
    endingsOf owed (accounts.map (endPurchases [x])) id holders = endingsOf owed accounts id holders := by
  refine List.filterMap_congr fun k hk => ?_
  rw [findAccount_map (endPurchases_number _)]
  cases hb : findAccount k accounts with
  | none => rfl
  | some b =>
    have hne : b.number ≠ x.holder := fun hn => h (hn ▸ (findAccount_some hb).2 ▸ hk)
    rw [Option.map_some, show endPurchases [x] b = b from endPurchase_other hne]

theorem reserved_of_exactBut {id k : Nat} {rest : List Nat} {s : State} (h : exactBut id (k :: rest) s)
    (hid : ∃ hs, (id, hs) ∈ tableOf s) : 1 ≤ s.journal.reserved := by
  obtain ⟨a, p, ha, hp⟩ := exactBut_holder h hid
  obtain ⟨-, hreserved⟩ := h
  have hin : (a.number, a.purchases) ∈ listsOf s := mem_listsOf.2 ⟨a, (findAccount_some ha).1, rfl⟩
  have hle : a.purchases.length ≤ purchaseCount (listsOf s) :=
    List.single_le_sum (fun _ _ => Nat.zero_le _) _ (List.mem_map.2 ⟨_, hin, rfl⟩)
  have hpos : 0 < a.purchases.length := List.length_pos_of_mem (List.mem_of_find?_eq_some hp)
  omega

theorem nodup_of_exactBut {id : Nat} {holders : List Nat} {s : State} (h : exactBut id holders s)
    (hid : ∃ hs, (id, hs) ∈ tableOf s) : holders.Nodup := by
  obtain ⟨⟨-, -, -, hheld⟩, -⟩ := h
  obtain ⟨hs, he⟩ := hid
  exact (hheld _ (mem_modifyKey.2 (.inr ⟨hs, he, rfl⟩))).1

/-- The state while an event's holders end, from a state whose taps were `taps`. -/
structure EndsFrom (id : Nat) (holders : List Nat) (taps : List TapRec) (s : State) : Prop where
  exact : exactBut id holders s
  held : ∃ hs, (id, hs) ∈ tableOf s
  bound : boundSound s
  bare : s.taps.map bareTap = taps.map bareTap

section
variable {owed : Account → Bool} {cause : RefundCause} {e : EventRec} {taps : List TapRec} {f : Nat → State → State}
  (hends : endsHolder e f) (hf : endsBy owed cause e.id taps f)

include hends hf in
/-- The end of one holder. -/
theorem ends_holder {k : Nat} {rest : List Nat} {s : State} (h : EndsFrom e.id (k :: rest) taps s) :
    (∃ a p, findAccount a.number s.accounts = some a ∧ a.number = k ∧ purchaseOf a e.id = some p ∧
      Ends cause [⟨e.id, k, p.price, owed a⟩] s (f k s) ∧ Hands (· = a.address) s (f k s)) ∧
      (f k s).events = s.events ∧ EndsFrom e.id rest taps (f k s) := by
  obtain ⟨hexact, hheld, hbound, hbare⟩ := h
  obtain ⟨a, p, ha, hp⟩ := exactBut_holder hexact hheld
  obtain ⟨-, rfl⟩ := findAccount_some ha
  have hreserved := reserved_of_exactBut hexact hheld
  obtain ⟨hrest, htable⟩ := exactBut_ends hends hexact hheld
  have hstep := hf s a p hbare ha hp
  have ended := ends_purchaseEnded ha hbound.1 hreserved e.id p.price (owed a) cause
  have hands := hands_dropped ha hbound hreserved e.id p.price (owed a) cause
  have money := changes_purchaseEnded a e.id p.price (owed a) cause s
  rw [hstep] at hrest htable ⊢
  have quiet := changes_recompute a.address (purchaseEnded a e.id p.price (owed a) cause s)
  have whole : Changes (moneyBlocks ++ tapBlocks) s (recompute a.address (purchaseEnded a e.id p.price (owed a) cause s)) :=
    Changes.trans money.mono quiet.mono
  have ends := ended.trans (Ends.of_same (cause := cause) (quiet.same .clock) (quiet.same .accounts) (quiet.same .journal)
    (quiet.same .meter) (quiet.same .alarms))
  have units : SameUnits s (recompute a.address (purchaseEnded a e.id p.price (owed a) cause s)) := by
    refine .trans ⟨?_, ?_, ?_, ?_⟩ (sameUnits_recompute _ _)
    · rw [money.same .taps]
      exact forall₂_refl tapAgrees_refl _
    · rw [money.same .transponders]
    · rw [money.same .sched]
    · rw [ended.accounts, List.map_map]
      exact List.map_congr_left fun b _ => endPurchases_binding _ b
  exact ⟨⟨a, p, ha, rfl, hp, ends, hands⟩, whole.same .events, hrest, htable ▸ hheld, boundSound_of_same units hbound,
    hands.bare.trans hbare⟩

include hends hf in
/-- The holders of an event end one after the other. -/
theorem ends_holders {holders : List Nat} {s : State} (h : EndsFrom e.id holders taps s) :
    (Ends cause (endingsOf owed s.accounts e.id holders) s (holders.foldl (fun u k => f k u) s) ∧
      Hands (tapOfHolder s.accounts holders) s (holders.foldl (fun u k => f k u) s)) ∧
      (holders.foldl (fun u k => f k u) s).events = s.events ∧
      EndsFrom e.id [] taps (holders.foldl (fun u k => f k u) s) := by
  induction holders generalizing s with
  | nil =>
    exact ⟨⟨.of_same rfl rfl rfl rfl rfl, (Hands.of_derived rfl rfl fun _ _ => rfl).congr fun a => by simp [tapOfHolder]⟩,
      rfl, h⟩
  | cons k rest ih =>
    have fresh := (List.nodup_cons.1 (nodup_of_exactBut h.exact h.held)).1
    have haddresses := h.bound.2.1
    obtain ⟨⟨a, p, ha, rfl, hp, ends, hands⟩, hevents, hrest⟩ := ends_holder hends hf h
    obtain ⟨⟨later, handed⟩, hstand, hlast⟩ := ih hrest
    rw [ends.accounts] at later handed
    rw [endingsOf_other (by exact fresh)] at later
    rw [List.foldl_cons, endingsOf_cons ha hp]
    refine ⟨⟨ends.trans later, (hands.trans haddresses handed).congr fun address => ?_⟩, hstand.trans hevents, hlast⟩
    rw [tapOfHolder_cons, ha]
    refine or_congr ⟨fun h => ⟨a, rfl, h.symm⟩, ?_⟩ ?_
    · rintro ⟨b, hb, haddress⟩
      rw [← haddress, Option.some.inj hb]
    · unfold tapOfHolder
      refine exists_congr fun j => and_congr_right fun hj => ?_
      rw [findAccount_map (endPurchases_number _)]
      cases findAccount j s.accounts with
      | none => rfl
      | some b => simp [endPurchases_address]

end

/-! ### The event -/

theorem endsFrom_event {s : State} {e : EventRec} (he : e ∈ s.events) (hr : reservationsSound s) (hb : boundSound s) :
    EndsFrom e.id e.holders s.taps s := by
  obtain ⟨hmatch, hreserved⟩ := reservationsSound_iff.1 hr
  have hin : (e.id, e.holders) ∈ tableOf s := mem_tableOf.2 ⟨e, he, rfl⟩
  have standing : modifyKey e.id (fun _ => e.holders) (tableOf s) = tableOf s := by
    unfold modifyKey
    conv_rhs => rw [← List.map_id (tableOf s)]
    refine List.map_congr_left fun x hx => ?_
    obtain ⟨n, hs⟩ := x
    split
    · rename_i hn
      dsimp only at hn
      subst hn
      rw [eq_of_key hmatch.2.1 hin hx]
      rfl
    · rfl
  exact ⟨⟨by rwa [standing], hreserved⟩, ⟨_, hin⟩, hb, rfl⟩

/-- With no holder left, no account holds a purchase of the event. -/
theorem no_purchase_of_exactBut {id : Nat} {s : State} (h : exactBut id [] s) :
    ∀ a ∈ s.accounts, ∀ p ∈ a.purchases, p.event ≠ id := by
  obtain ⟨⟨-, -, hbought, -⟩, -⟩ := h
  intro a ha p hp hid
  obtain ⟨y, hy, hye, hya⟩ := (hbought _ (mem_listsOf.2 ⟨a, ha, rfl⟩)).2 p hp
  obtain ⟨-, hne⟩ | ⟨v, -, rfl⟩ := mem_modifyKey.1 hy
  · exact hne (hye.trans hid)
  · cases hya

/-- An event on record ends for all its holders and is freed. -/
theorem ends_event {s : State} {e : EventRec} {owed : Account → Bool} {cause : RefundCause} {f : Nat → State → State}
    (hends : endsHolder e f) (hf : endsBy owed cause e.id s.taps f) (he : e ∈ s.events) (hr : reservationsSound s)
    (hb : boundSound s) :
    (Ends cause (endingsOf owed s.accounts e.id e.holders) s (freeEvent e.id (e.holders.foldl (fun u k => f k u) s)) ∧
      Hands (tapOfHolder s.accounts e.holders) s (freeEvent e.id (e.holders.foldl (fun u k => f k u) s))) ∧
      (freeEvent e.id (e.holders.foldl (fun u k => f k u) s)).events = s.events.filter (·.id != e.id) := by
  obtain ⟨⟨ends, hands⟩, hevents, hlast⟩ := ends_holders hends hf (endsFrom_event he hr hb)
  generalize e.holders.foldl (fun u k => f k u) s = u at ends hands hevents hlast ⊢
  have freed : Hands (fun _ => False) u (freeEvent e.id u) :=
    .of_derived rfl rfl fun r _ => deriveSetting_freeEvent (no_purchase_of_exactBut hlast.exact) r
  have both := ends.trans (Ends.of_same (cause := cause) (t := freeEvent e.id u) rfl rfl rfl rfl rfl)
  rw [List.append_nil] at both
  exact ⟨⟨both, (hands.trans hb.2.1 freed).congr fun _ => iff_of_eq (or_false _)⟩, by rw [freeEvent_events, hevents]⟩

end Sys2Proof.Machine
end

section
/-! SUPPORT. Events that end, one after the other, in the terms of the statement: the money of each account, the REFUND
records, the reservations and the frame (R155, R157). -/

namespace Sys2Proof.Machine

/-! ### The money of one account -/

/-- What the end of one event makes of an account's balance and flag. -/
def refundStep (owed : EventRec → Account → Bool) (a : Account) (money : Int × Bool) (e : EventRec) : Int × Bool :=
  match purchaseOf a e.id with
  | some p =>
    if owed e a then
      (max (-2000000000) (min 2000000000 (money.1 - p.price)),
        money.2 || decide (money.1 - p.price < -2000000000) || decide (2000000000 < money.1 - p.price))
    else money
  | none => money

theorem refundedMoney_append (owed : EventRec → Account → Bool) (es : List EventRec) (e : EventRec) (a : Account) :
    refundedMoney owed (es ++ [e]) a = refundStep owed a (refundedMoney owed es a) e := by
  unfold refundedMoney
  rw [List.foldl_append]
  rfl

/-- The account with its money and its purchases replaced. -/
def withMoney (a : Account) (purchases : List OpenPurchase) (money : Int × Bool) : Account :=
  { a with purchases := purchases, balance := money.1, overflow := money.2 }

theorem balanced_eq (price : Nat) (b : Account) : balanced (-(price : Int)) b = { b with
    balance := max (-2000000000) (min 2000000000 (b.balance - price))
    overflow := b.overflow || decide (b.balance - price < -2000000000) || decide (2000000000 < b.balance - price) } := by
  have hflag : (b.overflow || clips (-(price : Int)) b) =
      (b.overflow || decide (b.balance - price < -2000000000) || decide (2000000000 < b.balance - price)) := by
    rw [Bool.eq_iff_iff, Bool.or_eq_true, clips_iff, Bool.or_eq_true, Bool.or_eq_true, decide_eq_true_eq,
      decide_eq_true_eq]
    cases b.overflow with
    | true => simp
    | false =>
      simp only [Bool.false_eq_true, false_or, and_true]
      omega
  rw [balanced, hflag]
  rfl

section
variable {owed : Account → Bool} {accounts : List Account} {id : Nat}

/-- The endings of one event touch an account once at most. -/
theorem endPurchases_event {holders : List Nat} (hnodup : holders.Nodup) {a b : Account}
    (ha : findAccount b.number accounts = some a) :
    endPurchases (endingsOf owed accounts id holders) b =
      if b.number ∈ holders then
        match purchaseOf a id with
        | some p => endPurchase ⟨id, b.number, p.price, owed a⟩ b
        | none => b
      else b := by
  induction holders generalizing b with
  | nil => rfl
  | cons k rest ih =>
    obtain ⟨fresh, hrest⟩ := List.nodup_cons.1 hnodup
    by_cases hk : k = b.number
    · subst hk
      rw [if_pos (.head _)]
      cases hp : purchaseOf a id with
      | none =>
        have skipped : endingsOf owed accounts id (b.number :: rest) = endingsOf owed accounts id rest := by
          unfold endingsOf
          rw [List.filterMap_cons, ha, Option.bind_some, hp]
          rfl
        rw [skipped, ih hrest ha, if_neg fresh]
      | some p =>
        have first : endingsOf owed accounts id (b.number :: rest) =
            ⟨id, b.number, p.price, owed a⟩ :: endingsOf owed accounts id rest := by
          unfold endingsOf
          rw [List.filterMap_cons, ha, Option.bind_some, hp]
          rfl
        have number : (endPurchase ⟨id, b.number, p.price, owed a⟩ b).number = b.number := congrArg (·.1) (endPurchase_binding _ b)
        rw [first]
        refine (ih hrest (b := endPurchase ⟨id, b.number, p.price, owed a⟩ b)
          (by rw [number]; exact ha)).trans ?_
        rw [number, if_neg fresh]
    · have skipped : endPurchases (endingsOf owed accounts id (k :: rest)) b =
          endPurchases (endingsOf owed accounts id rest) b := by
        unfold endingsOf
        rw [List.filterMap_cons]
        split
        · rfl
        · rename_i x hx
          obtain ⟨c, -, hx⟩ := Option.bind_eq_some_iff.1 hx
          obtain ⟨p, -, rfl⟩ := Option.map_eq_some_iff.1 hx
          exact congrArg (endPurchases _) (endPurchase_other (Ne.symm hk))
      rw [skipped, ih hrest ha]
      refine if_congr ?_ rfl rfl
      rw [List.mem_cons, or_iff_right (Ne.symm hk)]

end

/-- The endings of several events. -/
def endingsOfAll (owed : EventRec → Account → Bool) (accounts : List Account) (ended : List EventRec) : List Ending :=
  ended.flatMap fun e => endingsOf (owed e) accounts e.id e.holders

/-- Events whose holders are as their table holds them. -/
def onRecord (s : State) (ended : List EventRec) : Prop := ∀ e ∈ ended, (e.id, e.holders) ∈ tableOf s

section
variable {s : State} (hs : holdersMatch (listsOf s) (tableOf s)) {owed : EventRec → Account → Bool}

include hs in
theorem holder_of_purchase {e : EventRec} (he : (e.id, e.holders) ∈ tableOf s) {a : Account} (ha : a ∈ s.accounts)
    {p : OpenPurchase} (hp : purchaseOf a e.id = some p) : a.number ∈ e.holders := by
  obtain ⟨-, htable, hbought, -⟩ := hs
  have hpe : p.event = e.id := of_decide_eq_true (List.find?_some hp :)
  obtain ⟨y, hy, hye, hya⟩ := (hbought _ (mem_listsOf.2 ⟨a, ha, rfl⟩)).2 p (List.mem_of_find?_eq_some hp)
  obtain ⟨n, hs⟩ := y
  dsimp only at hye hya
  rw [hye, hpe] at hy
  rwa [eq_of_key htable hy he] at hya

include hs in
theorem purchase_of_holder {e : EventRec} (he : (e.id, e.holders) ∈ tableOf s) {k : Nat} (hk : k ∈ e.holders) :
    ∃ a p, findAccount k s.accounts = some a ∧ purchaseOf a e.id = some p := by
  obtain ⟨hlists, -, -, hheld⟩ := hs
  obtain ⟨b, hb, hbk, p, hp, hpe⟩ := (hheld _ he).2 k hk
  obtain ⟨a, ha, rfl⟩ := mem_listsOf.1 hb
  have hnumbers : rising (s.accounts.map (·.number)) := by
    unfold listsOf at hlists
    rwa [List.map_map] at hlists
  obtain ⟨q, hq⟩ := Option.isSome_iff_exists.1
    (List.find?_isSome (p := fun q : OpenPurchase => decide (q.event = e.id)).2 ⟨p, hp, decide_eq_true hpe⟩)
  exact ⟨a, q, hbk ▸ findAccount_of_mem hnumbers.nodup ha, hq⟩

include hs in
/-- The money and the purchases of an account once the events have ended. -/
theorem endPurchases_all {ended : List EventRec} (hrec : onRecord s ended) {a : Account} (ha : a ∈ s.accounts) :
    endPurchases (endingsOfAll owed s.accounts ended) a =
      withMoney a (a.purchases.filter fun p => !(ended.map (·.id)).contains p.event) (refundedMoney owed ended a) := by
  have hnumbers : rising (s.accounts.map (·.number)) := by
    have := hs.1
    unfold listsOf at this
    rwa [List.map_map] at this
  have hfind := findAccount_of_mem hnumbers.nodup ha
  induction ended using List.reverseRecOn with
  | nil => simp [endingsOfAll, endPurchases, withMoney, refundedMoney]
  | append_singleton es e ih =>
    obtain ⟨hes, hlast⟩ := List.forall_mem_append.1 hrec
    have he := hlast e (.head _)
    have both : endingsOfAll owed s.accounts (es ++ [e]) =
        endingsOfAll owed s.accounts es ++ endingsOf (owed e) s.accounts e.id e.holders := by
      unfold endingsOfAll
      rw [List.flatMap_append, List.flatMap_singleton]
    have left : (a.purchases.filter fun p => !((es ++ [e]).map (·.id)).contains p.event) =
        (a.purchases.filter fun p => !(es.map (·.id)).contains p.event).filter (·.event != e.id) := by
      rw [List.filter_filter]
      refine List.filter_congr fun p _ => ?_
      have last : [e.id].contains p.event = (p.event == e.id) := by
        rw [List.contains_cons, List.contains_nil, Bool.or_false]
      rw [List.map_append, List.map_singleton, List.contains_append, Bool.not_or, Bool.and_comm, last]
      rfl
    rw [both, endPurchases_append, ih hes, refundedMoney_append, left,
      endPurchases_event (hs.2.2.2 _ he).1 (a := a) (b := withMoney a _ _) hfind]
    have sub : ∀ p ∈ a.purchases.filter fun p => !(es.map (·.id)).contains p.event, p ∈ a.purchases :=
      fun p hp => List.mem_of_mem_filter hp
    generalize (a.purchases.filter fun p => !(es.map (·.id)).contains p.event) = ps at sub ⊢
    unfold refundStep
    cases hp : purchaseOf a e.id with
    | none =>
      have kept : ps.filter (·.event != e.id) = ps := List.filter_eq_self.2 fun p hmem =>
        bne_iff_ne.2 fun h => List.find?_eq_none.1 hp p (sub p hmem) (decide_eq_true h)
      rw [kept]
      exact ite_self _
    | some p =>
      refine (if_pos (holder_of_purchase hs he ha hp)).trans ?_
      dsimp only
      rw [endPurchase, if_pos rfl]
      cases owed e a with
      | true => rw [if_pos rfl, if_pos rfl, balanced_eq]; rfl
      | false => rfl

include hs in
theorem endingsOf_length {e : EventRec} (he : (e.id, e.holders) ∈ tableOf s) :
    (endingsOf (owed e) s.accounts e.id e.holders).length = e.holders.length := by
  unfold endingsOf
  have each : ∀ k ∈ e.holders, ((findAccount k s.accounts).bind fun a =>
      (purchaseOf a e.id).map fun p => (⟨e.id, k, p.price, owed e a⟩ : Ending)).isSome = true := by
    intro k hk
    obtain ⟨a, p, ha, hp⟩ := purchase_of_holder hs he hk
    rw [ha, Option.bind_some, hp]
    rfl
  rw [List.length_filterMap_eq_countP]
  exact List.countP_eq_length.2 each

include hs in
theorem endingsOfAll_length {ended : List EventRec} (hrec : onRecord s ended) :
    (endingsOfAll owed s.accounts ended).length = (ended.map (·.holders.length)).sum := by
  unfold endingsOfAll
  rw [List.length_flatMap]
  exact congrArg List.sum (List.map_congr_left fun e he => endingsOf_length hs (hrec e he))

include hs in
theorem endingsOfAll_isEmpty {ended : List EventRec} (hrec : onRecord s ended) :
    (!(endingsOfAll owed s.accounts ended).isEmpty) = ended.any fun e => !e.holders.isEmpty := by
  have hlength := endingsOfAll_length (owed := owed) hs hrec
  rw [Bool.eq_iff_iff, List.any_eq_true, Bool.not_eq_true', ← Bool.not_eq_true, List.isEmpty_iff_length_eq_zero, hlength,
    List.sum_eq_zero_iff]
  simp only [List.mem_map, forall_exists_index, and_imp, forall_apply_eq_imp_iff₂, not_forall, Bool.not_eq_true',
    ← Bool.not_eq_true, List.isEmpty_iff_length_eq_zero, exists_prop]

end

/-- The REFUND records of the endings are those of the statement. -/
theorem refunds_endingsOfAll (cause : RefundCause) (owed : EventRec → Account → Bool) (accounts : List Account)
    (ended : List EventRec) :
    (endingsOfAll owed accounts ended).filterMap (refundBody cause) = refundsOf cause owed accounts ended := by
  unfold endingsOfAll refundsOf endingsOf
  rw [List.filterMap_flatMap]
  refine List.flatMap_congr fun e _ => ?_
  rw [List.filterMap_filterMap]
  refine List.filterMap_congr fun k _ => ?_
  cases ha : findAccount k accounts with
  | none => rfl
  | some a =>
    rw [Option.bind_some, Option.bind_some]
    cases hp : purchaseOf a e.id with
    | none => rfl
    | some p => rfl

/-- From `s` to `t` all stands that the ending of events does not name. -/
def endsFrame (s t : State) : Prop :=
  { t with
    accounts := s.accounts, journal := s.journal, taps := s.taps, commandQueue := s.commandQueue, events := s.events,
    meter := s.meter, alarms := s.alarms, sample := s.sample, due := s.due } = s

/-- The endings and the recomputations of events on record, in the terms of the statement. -/
theorem endsEvents_of {s t : State} {cause : RefundCause} {owed : EventRec → Account → Bool}
    {ended handed : List EventRec} (hr : reservationsSound s) (hrec : onRecord s ended)
    (ends : Ends cause (endingsOfAll owed s.accounts ended) s t)
    (hands : Hands (fun a => ∃ e ∈ handed, tapOfHolder s.accounts e.holders a) s t) (frame : endsFrame s t) :
    endsEvents cause owed ended handed s t := by
  have hs := (reservationsSound_iff.1 hr).1
  have money : ∀ a ∈ s.accounts, endPurchases (endingsOfAll owed s.accounts ended) a = _ :=
    fun a ha => endPurchases_all hs hrec ha
  have hempty := endingsOfAll_isEmpty (owed := owed) hs hrec
  have hflag : clipsAny (endingsOfAll owed s.accounts ended) s.accounts =
      s.accounts.any fun a => !a.overflow && (refundedMoney owed ended a).2 := by
    rw [clipsAny, Bool.eq_iff_iff, List.any_eq_true, List.any_eq_true]
    refine exists_congr fun a => and_congr_right fun ha => ?_
    rw [money a ha]
    rfl
  unfold Ends at ends
  rw [hempty, hflag, refunds_endingsOfAll, endingsOfAll_length hs hrec] at ends
  obtain ⟨given, hgiven, halarms⟩ := ends.given
  have hsettings := alarmsAfter_settings s.clock.time given s.alarms
  have hconditions : ∀ i, i < 224 → (alarmOf t.alarms i).condition = (alarmOf s.alarms i).condition := fun i hi => by
    rw [halarms]
    refine condition_alarmsAfter_other _ _ (by omega) _ _ fun x hx h => ?_
    obtain hx | rfl := hgiven.sources x hx
    · rw [hx] at h
      unfold journalHighSource at h
      omega
    · unfold balanceOverflowSource at h
      omega
  rw [← halarms] at hsettings
  obtain ⟨written, hwritten⟩ := ends.written
  refine ⟨?_, fun a ha => ?_, ends.reserved, ⟨written, hwritten.records, hwritten.refunds, hwritten.sequences, hwritten.next,
    hwritten.bodies⟩, ends.high, ends.meter, ⟨given, halarms, hgiven.sources, hgiven.high, hgiven.overflow⟩,
    ends.highGiven, ends.overflowGiven, hconditions, fun i _ => ⟨hsettings.level i, hsettings.kind i⟩, hsettings.express,
    hsettings.composites, hands.bare, fun e he a ha hk r hrt hra hlive => ?_, fun r hrs hother => ?_, frame⟩
  · rw [ends.accounts, List.map_map]
    exact List.map_congr_left fun a _ => endPurchases_number _ a
  · rw [ends.accounts]
    exact List.mem_map.2 ⟨a, ha, money a ha⟩
  · have hnumbers : rising (s.accounts.map (·.number)) := hr.1.1
    exact hands.derived r hrt ⟨e, he, a.number, hk, a, findAccount_of_mem hnumbers.nodup ha, hra.symm⟩ hlive
  · refine hands.others r hrs ?_
    rintro ⟨e, he, k, hk, a, ha, hra⟩
    obtain ⟨hmem, rfl⟩ := findAccount_some ha
    exact hother e he a hmem hk hra

end Sys2Proof.Machine
end

section
/-! SUPPORT. Minute ends, restarts and cancellations: the events advance and end one after the other (R147 to R149, R155,
R157, R160). -/

namespace Sys2Proof.Machine

/-! ### One event that advances -/

/-- A change of an event's record that keeps its id, channel and holders. -/
def saleStands (f : EventRec → EventRec) : Prop :=
  ∀ e, (f e).id = e.id ∧ (f e).channel = e.channel ∧ (f e).holders = e.holders

theorem saleStands_comp {f g : EventRec → EventRec} (hf : saleStands f) (hg : saleStands g) :
    saleStands fun e => g (f e) := fun e => by
  obtain ⟨hid, hchannel, hholders⟩ := hf e
  obtain ⟨gid, gchannel, gholders⟩ := hg (f e)
  exact ⟨gid.trans hid, gchannel.trans hchannel, gholders.trans hholders⟩

/-- From `s` to `t` the event is changed by `f`, and its holders' taps are recomputed if `moved`. -/
structure Advances (moved : Prop) (e : EventRec) (f : EventRec → EventRec) (s t : State) : Prop where
  ends : Ends .settled [] s t
  hands : Hands (fun a => moved ∧ tapOfHolder s.accounts e.holders a) s t
  events : t.events = modifyEvent e.id f s.events

theorem Ends.accounts_of_nil {cause : RefundCause} {s t : State} (h : Ends cause [] s t) : t.accounts = s.accounts :=
  (Moves.accounts h).trans (List.map_id _)

theorem modifyEvent_modifyEvent {id : Nat} {f g : EventRec → EventRec} (hf : saleStands f) (events : List EventRec) :
    modifyEvent id g (modifyEvent id f events) = modifyEvent id (fun e => g (f e)) events := by
  unfold modifyEvent
  rw [List.map_map]
  refine List.map_congr_left fun e _ => ?_
  by_cases h : e.id = id
  · simp [h, (hf e).1]
  · simp [h]

theorem Advances.trans {m n : Prop} {e : EventRec} {f g : EventRec → EventRec} {s t u : State} (hf : saleStands f)
    (hrising : rising (s.taps.map (·.address))) (h : Advances m e f s t) (k : Advances n (f e) g t u) :
    Advances (m ∨ n) e (fun x => g (f x)) s u where
  ends := h.ends.trans k.ends
  hands := by
    have later := k.hands
    rw [h.ends.accounts_of_nil, (hf e).2.2] at later
    exact (h.hands.trans hrising later).congr fun a => or_and_right.symm
  events := by
    rw [k.events, h.events, (hf e).1, modifyEvent_modifyEvent hf]

theorem advances_changeEvent {f : EventRec → EventRec} (hf : saleStands f) (e : EventRec) (s : State) :
    Advances False e f s (changeEvent e.id f s) where
  ends := .of_same rfl rfl rfl rfl rfl
  hands := by
    have stood : Hands (fun _ => False) s (changeEvent e.id f s) :=
      .of_derived rfl rfl fun r _ => deriveSetting_changeEvent (fun x => ⟨(hf x).1, (hf x).2.1⟩) s r
    exact stood.congr fun _ => by rw [false_and]
  events := rfl

theorem advances_advanceEvent {f : EventRec → EventRec} (hf : saleStands f) {e : EventRec} {s : State}
    (he : findEvent e.id s.events = some e) (hrising : rising (s.taps.map (·.address))) :
    Advances ((f e).state ≠ e.state) e f s (advanceEvent e.id f s) := by
  obtain ⟨ends, hands, events⟩ := advances_changeEvent hf e s
  unfold advanceEvent
  rw [he]
  dsimp only
  by_cases hstate : (f e).state = e.state
  · rw [if_pos hstate]
    exact ⟨ends, hands.congr fun _ => by simp [hstate], events⟩
  · rw [if_neg hstate]
    have quiet := changes_handHolders e.holders (changeEvent e.id f s)
    refine ⟨ends.trans (Ends.of_same (quiet.same .clock) (quiet.same .accounts) (quiet.same .journal) (quiet.same .meter)
      (quiet.same .alarms)), ?_, (quiet.same .events).trans events⟩
    refine (hands.trans hrising (hands_handHolders e.holders (s := changeEvent e.id f s) hrising)).congr fun a => ?_
    simp [hstate]

theorem Advances.found {m : Prop} {e : EventRec} {f : EventRec → EventRec} {s t : State} (hf : saleStands f)
    (h : Advances m e f s t) (he : findEvent e.id s.events = some e) : findEvent e.id t.events = some (f e) := by
  rw [h.events, findEvent_modifyEvent _ _ _ fun x => (hf x).1, he]
  exact congrArg some (if_pos rfl)

/-- An event that has advanced advances again. -/
theorem Advances.advance {m : Prop} {e : EventRec} {f g : EventRec → EventRec} {s t : State} (hf : saleStands f)
    (hg : saleStands g) (he : findEvent e.id s.events = some e) (hrising : rising (s.taps.map (·.address)))
    (h : Advances m e f s t) :
    Advances (m ∨ (g (f e)).state ≠ (f e).state) e (fun x => g (f x)) s (advanceEvent e.id g t) := by
  have hfound := h.found hf he
  have hid := (hf e).1
  have next := advances_advanceEvent hg (e := f e) (s := t) (by rw [hid]; exact hfound)
    (by rw [addresses_of_bare h.hands.bare]; exact hrising)
  rw [hid] at next
  exact h.trans hf hrising next

/-! ### What settlement and cancellation owe -/

theorem node_of_bare {xs ys : List TapRec} (h : xs.map bareTap = ys.map bareTap) (a : Nat) :
    (findTap a xs).map (·.node) = (findTap a ys).map (·.node) := by
  have find (zs : List TapRec) : (findTap a zs).map (·.node) = (findTap a (zs.map bareTap)).map (·.node) := by
    unfold findTap
    rw [List.find?_map, Option.map_map]
    rfl
  rw [find, h, ← find]

theorem settlementOwes_of_bare {s t : State} (h : t.taps.map bareTap = s.taps.map bareTap) :
    settlementOwes t = settlementOwes s := by
  funext e a
  have minutes (u : State) : minutesFor u e a =
      (((findTap a.address u.taps).map (·.node)).map fun n => vecGet e.counters (n - 1) 0).getD 0 := by
    rw [minutesFor, Option.map_map]
    rfl
  rw [settlementOwes, settlementOwes, minutes, minutes, node_of_bare h]

theorem settleHolder_endsBy (e : EventRec) (s : State) :
    endsBy (settlementOwes s e) .settled e.id s.taps (settleHolder e) := by
  intro u a p htaps ha hp
  have minutes : ((accountNode u a).map fun n => vecGet e.counters (n - 1) 0).getD 0 = minutesFor s e a := by
    unfold accountNode minutesFor
    rw [node_of_bare htaps, Option.map_map]
    rfl
  unfold settleHolder
  rw [ha]
  dsimp only
  rw [hp]
  dsimp only
  rw [minutes]
  unfold dropPurchase purchaseEnded settlementOwes
  simp only [decide_eq_true_eq]

theorem cancelHolder_endsBy (e : EventRec) (taps : List TapRec) :
    endsBy (fun _ => true) .cancelled e.id taps (cancelHolder e) := by
  intro u a p htaps ha hp
  unfold cancelHolder
  rw [ha]
  dsimp only
  rw [hp]
  rfl

/-! ### One event taken -/

/-- What is kept from event to event. -/
structure RunFrom (s t : State) : Prop where
  reservations : reservationsSound t
  bound : boundSound t
  bare : t.taps.map bareTap = s.taps.map bareTap
  lineup : t.lineup = s.lineup
  sample : t.sample = s.sample

/-- From `s` to `t` the event is changed by `after`; if it ends it is settled and freed, and if it moves or ends its
holders' taps are recomputed. -/
structure EventTaken (cause : RefundCause) (owed : EventRec → Account → Bool) (after : EventRec → EventRec) (finished : Bool)
    (moves : Prop) (e : EventRec) (s t : State) : Prop where
  ends : Ends cause (if finished then endingsOf (owed (after e)) s.accounts e.id e.holders else []) s t
  hands : Hands (fun a => moves ∧ tapOfHolder s.accounts e.holders a) s t
  events : t.events = if finished then s.events.filter (·.id != e.id) else modifyEvent e.id after s.events
  reservations : reservationsSound t
  changes : Changes eventBlocks s t

theorem plain_of_bare {xs ys : List TapRec} (h : xs.map bareTap = ys.map bareTap) :
    xs.map plainTap = ys.map plainTap := by
  have hplain := congrArg (List.map plainTap) h
  rw [List.map_map, List.map_map] at hplain
  exact hplain

theorem boundSound_of_ends {cause : RefundCause} {xs : List Ending} {n : Nat → Prop} {s t : State} (h : boundSound s)
    (ends : Ends cause xs s t) (hands : Hands n s t) (hc : Changes eventBlocks s t) : boundSound t := by
  refine boundSound_of_same ⟨agrees_of_plain (plain_of_bare hands.bare), ?_, ?_, ?_⟩ h
  · rw [hc.same .transponders]
  · rw [hc.same .sched]
  · rw [Moves.accounts ends, List.map_map]
    exact List.map_congr_left fun a _ => endPurchases_binding xs a

theorem RunFrom.step {cause : RefundCause} {owed : EventRec → Account → Bool} {after : EventRec → EventRec}
    {finished : Bool} {moves : Prop} {e : EventRec} {s t u : State} (h : RunFrom s t)
    (k : EventTaken cause owed after finished moves e t u) :
    RunFrom s u where
  reservations := k.reservations
  bound := boundSound_of_ends h.bound k.ends k.hands k.changes
  bare := k.hands.bare.trans h.bare
  lineup := (k.changes.same .lineup).trans h.lineup
  sample := (k.changes.same .sample).trans h.sample

theorem findEvent_of_mem {events : List EventRec} (hnodup : (events.map (·.id)).Nodup) {e : EventRec} (he : e ∈ events) :
    findEvent e.id events = some e := by
  obtain ⟨x, hx⟩ := Option.isSome_iff_exists.1
    (List.find?_isSome (p := fun r : EventRec => decide (r.id = e.id)).2 ⟨e, he, decide_eq_true rfl⟩)
  have hid : x.id = e.id := of_decide_eq_true (List.find?_some hx :)
  obtain rfl := List.inj_on_of_nodup_map hnodup (List.mem_of_find?_eq_some hx) he hid
  exact hx

theorem filter_modifyEvent {f : EventRec → EventRec} (hf : saleStands f) (id : Nat) (events : List EventRec) :
    (modifyEvent id f events).filter (·.id != id) = events.filter (·.id != id) := by
  unfold modifyEvent
  induction events with
  | nil => rfl
  | cons e es ih =>
    rw [List.map_cons, List.filter_cons, List.filter_cons, ih]
    by_cases h : e.id = id
    · simp [h, (hf e).1]
    · simp [h]

theorem modifyEvent_append (id : Nat) (f : EventRec → EventRec) (xs ys : List EventRec) :
    modifyEvent id f (xs ++ ys) = modifyEvent id f xs ++ modifyEvent id f ys := List.map_append

/-- An event that has advanced is settled if its end is reached. -/
theorem eventTaken_settleAt {after : EventRec → EventRec} (hf : saleStands after) {moved : Prop} {e : EventRec}
    {s t : State} (htime : endTime (after e) = endTime e) (h : Advances moved e after s t)
    (he : findEvent e.id s.events = some e) (hbound : boundSound s) (hr : reservationsSound t) (hc : Changes eventBlocks s t)
    (time : Nat) :
    EventTaken .settled (settlementOwes s) after (decide (endTime e ≤ time)) (moved ∨ endTime e ≤ time) e s
      (settleAt time e.id t) := by
  have hfind := h.found hf he
  have hbound' := boundSound_of_ends hbound h.ends h.hands hc
  obtain ⟨hid, -, hholders⟩ := hf e
  unfold settleAt
  rw [hfind]
  dsimp only
  rw [htime]
  by_cases hend : endTime e ≤ time
  · rw [if_pos hend]
    obtain ⟨hmem, -⟩ := findEvent_some hfind
    obtain ⟨⟨ends, hands⟩, events⟩ := ends_event (settleHolder_ends (after e)) (settleHolder_endsBy (after e) t) hmem hr hbound'
    have howed := settlementOwes_of_bare h.hands.bare
    rw [howed, h.ends.accounts_of_nil] at ends
    rw [h.ends.accounts_of_nil] at hands
    have sound := reservationsSound_ended (settleHolder_ends (after e)) hmem hr
    have quiet := hc.trans (changes_settle (after e) t)
    unfold settle at quiet ⊢
    rw [hid, hholders] at ends hands events sound quiet ⊢
    refine ⟨?_, ?_, ?_, sound, quiet⟩
    · rw [decide_eq_true hend, if_pos rfl]
      exact h.ends.trans ends
    · refine (h.hands.trans hbound.2.1 hands).congr fun a => ?_
      simp [hend]
    · rw [decide_eq_true hend, if_pos rfl]
      refine events.trans ?_
      rw [h.events]
      exact filter_modifyEvent hf _ _
  · rw [if_neg hend]
    refine ⟨?_, h.hands.congr fun a => by simp [hend], ?_, hr, hc⟩
    · rw [decide_eq_false hend]
      exact h.ends
    · rw [decide_eq_false hend]
      exact h.events

/-! ### Every held event -/

/-- Purchases of other events do not bear on an event's endings. -/
theorem endingsOf_events {owed : Account → Bool} (howed : ∀ a b, a.address = b.address → owed a = owed b) {id : Nat}
    {xs : List Ending} (h : ∀ x ∈ xs, x.id ≠ id) (accounts : List Account) (holders : List Nat) :
    endingsOf owed (accounts.map (endPurchases xs)) id holders = endingsOf owed accounts id holders := by
  have purchase (a : Account) : purchaseOf (endPurchases xs a) id = purchaseOf a id := by
    induction xs generalizing a with
    | nil => rfl
    | cons x xs ih =>
      refine (ih (fun y hy => h y (.tail _ hy)) (endPurchase x a)).trans ?_
      unfold purchaseOf endPurchase
      split
      · dsimp only
        rw [List.find?_filter]
        refine List.find?_congr fun p _ => ?_
        have hne := h x (.head _)
        by_cases hp : p.event = id
        · simp [hp, Ne.symm hne]
        · simp [hp]
      · rfl
  refine List.filterMap_congr fun k _ => ?_
  rw [findAccount_map (endPurchases_number _)]
  cases findAccount k accounts with
  | none => rfl
  | some a =>
    rw [Option.map_some, Option.bind_some, Option.bind_some, purchase, howed _ a (endPurchases_address xs a)]

theorem tapOfHolder_ends {xs : List Ending} {accounts : List Account} {holders : List Nat} {a : Nat} :
    tapOfHolder (accounts.map (endPurchases xs)) holders a ↔ tapOfHolder accounts holders a := by
  unfold tapOfHolder
  refine exists_congr fun k => and_congr_right fun _ => ?_
  rw [findAccount_map (endPurchases_number _)]
  cases findAccount k accounts with
  | none => rfl
  | some b => simp [endPurchases_address]

section
variable {cause : RefundCause} {owed : EventRec → Account → Bool} {after : EventRec → EventRec}
  {finished : EventRec → Bool} {moves : EventRec → Prop} {s : State}

variable (cause owed after finished moves s) in
/-- The events of one list are taken, those of the other not yet. -/
structure RunState (done rest : List EventRec) (t : State) : Prop where
  standing : RunFrom s t
  ends : Ends cause (endingsOfAll owed s.accounts ((done.filter finished).map after)) s t
  hands : Hands (fun a => ∃ e ∈ done, moves e ∧ tapOfHolder s.accounts e.holders a) s t
  events : t.events = (done.filter fun e => !finished e).map after ++ rest
  changes : Changes eventBlocks s t

variable (hafter : saleStands after) (howed : ∀ e a b, a.address = b.address → owed e a = owed e b)

theorem mem_endingsOfAll {ended : List EventRec} {accounts : List Account} {x : Ending}
    (hx : x ∈ endingsOfAll owed accounts ended) : ∃ e ∈ ended, x.id = e.id := by
  obtain ⟨e, he, hx⟩ := List.mem_flatMap.1 hx
  obtain ⟨k, -, hx⟩ := List.mem_filterMap.1 hx
  obtain ⟨a, -, hx⟩ := Option.bind_eq_some_iff.1 hx
  obtain ⟨p, -, rfl⟩ := Option.map_eq_some_iff.1 hx
  exact ⟨e, he, rfl⟩

include hafter howed in
theorem RunState.next {done rest : List EventRec} {e : EventRec} {t u : State} (hrising : rising (s.taps.map (·.address)))
    (fresh : ∀ x ∈ done, x.id ≠ e.id) (later : ∀ x ∈ rest, x.id ≠ e.id)
    (h : RunState cause owed after finished moves s done (e :: rest) t)
    (k : EventTaken cause owed after (finished e) (moves e) e t u) :
    RunState cause owed after finished moves s (done ++ [e]) rest u := by
  obtain ⟨standing, ends, hands, events, changes⟩ := h
  have endings : (if finished e then endingsOf (owed (after e)) t.accounts e.id e.holders else []) =
      endingsOfAll owed s.accounts (([e].filter finished).map after) := by
    rw [Moves.accounts ends, endingsOf_events (howed (after e)) fun x hx => ?_]
    · cases hend : finished e with
      | true => simp [hend, endingsOfAll, (hafter e).1, (hafter e).2.2]
      | false => simp [hend, endingsOfAll]
    · obtain ⟨d, hd, hid⟩ := mem_endingsOfAll hx
      obtain ⟨c, hc, rfl⟩ := List.mem_map.1 hd
      rw [hid, (hafter c).1]
      exact fresh c (List.mem_of_mem_filter hc)
  refine ⟨standing.step k, ?_, ?_, ?_, changes.trans k.changes⟩
  · have both := ends.trans k.ends
    rw [endings] at both
    rw [List.filter_append, List.map_append]
    unfold endingsOfAll at *
    rwa [List.flatMap_append]
  · refine (hands.trans hrising k.hands).congr fun a => ?_
    rw [Moves.accounts ends, tapOfHolder_ends]
    simp only [List.mem_append, List.mem_singleton, or_and_right, exists_or, exists_eq_left]
  · have others : ((done.filter fun x => !finished x).map after).filter (·.id != e.id) =
        (done.filter fun x => !finished x).map after := by
      refine List.filter_eq_self.2 fun x hx => ?_
      obtain ⟨d, hd, rfl⟩ := List.mem_map.1 hx
      rw [(hafter d).1]
      exact bne_iff_ne.2 (fresh d (List.mem_of_mem_filter hd))
    have untouched : modifyEvent e.id after ((done.filter fun x => !finished x).map after) =
        (done.filter fun x => !finished x).map after := by
      refine (List.map_congr_left fun x hx => if_neg ?_).trans (List.map_id' _)
      obtain ⟨d, hd, rfl⟩ := List.mem_map.1 hx
      rw [(hafter d).1]
      exact fresh d (List.mem_of_mem_filter hd)
    have behind : modifyEvent e.id after (e :: rest) = after e :: rest := by
      refine congrArg₂ List.cons (if_pos rfl) ?_
      exact (List.map_congr_left fun x hx => if_neg (later x hx)).trans (List.map_id' _)
    have behind' : (e :: rest).filter (·.id != e.id) = rest := by
      rw [List.filter_cons_of_neg (by simp)]
      exact List.filter_eq_self.2 fun x hx => bne_iff_ne.2 (later x hx)
    rw [k.events, events, List.filter_append, others, behind', modifyEvent_append, untouched, behind]
    cases hend : finished e with
    | true => simp [hend]
    | false => simp [hend]

include hafter howed in
/-- The held events taken one after the other, in ascending order of id. -/
theorem runState_all {g : Nat → State → State} (hbound : boundSound s)
    (step : ∀ e t, RunFrom s t → findEvent e.id t.events = some e →
      EventTaken cause owed after (finished e) (moves e) e t (g e.id t))
    {done rest : List EventRec} (hnodup : ((done ++ rest).map (·.id)).Nodup) {t : State}
    (h : RunState cause owed after finished moves s done rest t) :
    RunState cause owed after finished moves s (done ++ rest) [] ((rest.map (·.id)).foldl (fun u id => g id u) t) := by
  induction rest generalizing done t with
  | nil => rwa [List.append_nil]
  | cons e rest ih =>
    have hids : ((e :: rest).map (·.id)).Nodup := (List.map_append ▸ hnodup : (done.map _ ++ _).Nodup).of_append_right
    have fresh : ∀ x ∈ done, x.id ≠ e.id := by
      rw [List.map_append, List.nodup_append] at hnodup
      exact fun x hx => hnodup.2.2 _ (List.mem_map_of_mem hx) _ (.head _)
    have later : ∀ x ∈ rest, x.id ≠ e.id := fun x hx hid =>
      (List.nodup_cons.1 hids).1 (List.mem_map.2 ⟨x, hx, hid⟩)
    have hfind : findEvent e.id t.events = some e := by
      have hrising : rising (t.events.map (·.id)) := h.standing.reservations.1.2.1
      refine findEvent_of_mem hrising.nodup ?_
      rw [h.events]
      exact List.mem_append_right _ (.head _)
    have next := h.next hafter howed hbound.2.1 fresh later (step e t h.standing hfind)
    rw [List.map_cons, List.foldl_cons]
    have all := ih (by rwa [List.append_assoc]) next
    rwa [List.append_assoc] at all

include hafter howed in
theorem events_taken {g : Nat → State → State} (hr : reservationsSound s) (hbound : boundSound s)
    (step : ∀ e t, RunFrom s t → findEvent e.id t.events = some e →
      EventTaken cause owed after (finished e) (moves e) e t (g e.id t)) :
    RunState cause owed after finished moves s s.events [] ((s.events.map (·.id)).foldl (fun u id => g id u) s) := by
  have hrising : rising (s.events.map (·.id)) := hr.1.2.1
  refine runState_all hafter howed hbound step (done := []) hrising.nodup ⟨⟨hr, hbound, rfl, rfl, rfl⟩, ?_, ?_, rfl, .refl s⟩
  · exact .of_same rfl rfl rfl rfl rfl
  · exact (Hands.of_derived rfl rfl fun _ _ => rfl).congr fun a => by simp

end

end Sys2Proof.Machine
end

section
/-! SUPPORT. O47: minute ends, the step at a restart and EVENT_CANCEL (R147 to R149, R155, R157, R160). -/

namespace Sys2Proof.Machine

/-! ### From a taken delivery -/

/-- The same endings, counted from a state with the same money. -/
theorem Ends.from {cause : RefundCause} {xs : List Ending} {s u t : State} (hclock : u.clock = s.clock)
    (haccounts : u.accounts = s.accounts) (hjournal : u.journal = s.journal) (hmeter : u.meter = s.meter)
    (halarms : u.alarms = s.alarms) (h : Ends cause xs u t) : Ends cause xs s t := by
  have start : Ends cause [] s u := .of_same hclock haccounts hjournal hmeter halarms
  exact start.trans h

theorem Hands.from {n : Nat → Prop} {s u t : State} (hrising : rising (s.taps.map (·.address))) (htaps : u.taps = s.taps)
    (hqueue : u.commandQueue = s.commandQueue) (hevents : u.events = s.events) (hlineup : u.lineup = s.lineup)
    (haccounts : u.accounts = s.accounts) (h : Hands n u t) : Hands n s t := by
  have start : Hands (fun _ => False) s u :=
    .of_derived htaps hqueue fun r _ => deriveSetting_of_same hevents hlineup haccounts r
  exact (start.trans hrising h).congr fun _ => iff_of_eq (false_or _)

theorem endsFrame_of_changes {s t : State}
    (h : Changes (.sample :: .minuteEnds :: .deliveries :: .purchases :: eventBlocks) s t) : endsFrame s t := by
  have hphase := h.same .phase
  have hstore := h.same .storeValid
  have hlow := h.same .backupLow
  have hreset := h.same .lastReset
  have hclock := h.same .clock
  have hlineup := h.same .lineup
  have hcarrier := h.same .carrier
  have htransponders := h.same .transponders
  have hsched := h.same .sched
  have hnodes := h.same .nodes
  have hinputs := h.same .inputs
  have hlink := h.same .link
  have hfree := h.same .freeCount
  have hpending := h.same .pending
  cases s
  cases t
  simp only [Block.same] at *
  subst_vars
  rfl

/-! ### How an event advances -/

theorem saleStands_countMinute (l : Lineup) (sample : MinuteSample) (t : Nat) : saleStands (countMinute l sample t) := by
  intro e
  unfold countMinute raiseCounters
  split
  · exact ⟨rfl, rfl, rfl⟩
  · exact ⟨rfl, rfl, rfl⟩

theorem saleStands_advanceOpen (t : Nat) : saleStands (advanceOpen t) := by
  intro e
  unfold advanceOpen
  split
  · exact ⟨rfl, rfl, rfl⟩
  · exact ⟨rfl, rfl, rfl⟩

theorem saleStands_advanceClosed (t : Nat) : saleStands (advanceClosed t) := by
  intro e
  unfold advanceClosed
  split
  · exact ⟨rfl, rfl, rfl⟩
  · exact ⟨rfl, rfl, rfl⟩

/-- An event's times are its start and its durations. -/
theorem endTime_advanced (t : Nat) (e : EventRec) : endTime (advanceClosed t (advanceOpen t e)) = endTime e := by
  unfold advanceClosed advanceOpen
  split
  · split
    · rfl
    · rfl
  · split
    · rfl
    · rfl

theorem advanceOpen_eq (t : Nat) (e : EventRec) : advanceOpen t e =
    { e with state := if e.state = .onSale ∧ e.start ≤ t then EventState.runningOpen else e.state } := by
  unfold advanceOpen
  by_cases h : e.state = .onSale ∧ e.start ≤ t
  · rw [if_pos (by simpa using h), if_pos h]
  · rw [if_neg (by simpa using h), if_neg h]

theorem advanceClosed_eq (t : Nat) (e : EventRec) : advanceClosed t e =
    { e with state := if e.state = .runningOpen ∧ closeTime e ≤ t then EventState.runningClosed else e.state } := by
  unfold advanceClosed
  by_cases h : e.state = .runningOpen ∧ closeTime e ≤ t
  · rw [if_pos (by simpa using h), if_pos h]
  · rw [if_neg (by simpa using h), if_neg h]

/-- An event at a minute end, before its settlement (R148, R149). -/
def atMinute (l : Lineup) (sample : MinuteSample) (t : Nat) (e : EventRec) : EventRec :=
  advanceClosed t (advanceOpen t (countMinute l sample t e))

theorem saleStands_atMinute (l : Lineup) (sample : MinuteSample) (t : Nat) : saleStands (atMinute l sample t) :=
  saleStands_comp (f := fun e => advanceOpen t (countMinute l sample t e))
    (saleStands_comp (saleStands_countMinute l sample t) (saleStands_advanceOpen t)) (saleStands_advanceClosed t)

theorem countMinute_state (l : Lineup) (sample : MinuteSample) (t : Nat) (e : EventRec) :
    (countMinute l sample t e).state = e.state := by
  unfold countMinute
  split
  · rfl
  · rfl

theorem endTime_atMinute (l : Lineup) (sample : MinuteSample) (t : Nat) (e : EventRec) :
    endTime (atMinute l sample t e) = endTime e := by
  refine (endTime_advanced t _).trans ?_
  unfold countMinute
  split
  · rfl
  · rfl

/-- The state moves when either step of the advance moves it. -/
theorem moved_iff (t : Nat) (e : EventRec) :
    ((advanceOpen t e).state ≠ e.state ∨ (advanceClosed t (advanceOpen t e)).state ≠ (advanceOpen t e).state) ↔
      (advanceClosed t (advanceOpen t e)).state ≠ e.state := by
  rw [advanceClosed_eq, advanceOpen_eq]
  dsimp only
  by_cases hopen : e.state = .onSale ∧ e.start ≤ t
  · rw [if_pos hopen, hopen.1]
    split
    · simp
    · simp
  · rw [if_neg hopen]
    simp

/-! ### Minute ends -/

/-- One event at a minute end. -/
theorem eventTaken_minute {s t : State} (time : Nat) {e : EventRec} (h : RunFrom s t) (he : findEvent e.id t.events = some e) :
    EventTaken .settled (settlementOwes s) (atMinute s.lineup s.sample time) (decide (endTime e ≤ time))
      ((atMinute s.lineup s.sample time e).state ≠ e.state ∨ endTime e ≤ time) e t (eventAtMinute time e.id t) := by
  obtain ⟨hr, hbound, hbare, hlineup, hsample⟩ := h
  have haddresses := hbound.2.1
  have count := saleStands_countMinute t.lineup t.sample time
  have opened := saleStands_comp count (saleStands_advanceOpen time)
  have advanced := ((advances_changeEvent count e t).advance count (saleStands_advanceOpen time) he haddresses).advance
    opened (saleStands_advanceClosed time) he haddresses
  have table := reservationsSound_keptByTable
  have sound := table.advanceEvent (id := e.id) (advanceClosed_standing time) (table.advanceEvent (id := e.id)
    (advanceOpen_standing time) (table.count e.id _ t (countMinute_standing t.lineup t.sample time) hr))
  have quiet : Changes eventBlocks t (advanceEvent e.id (advanceClosed time) (advanceEvent e.id (advanceOpen time)
      (changeEvent e.id (countMinute t.lineup t.sample time) t))) :=
    (Changes.trans (changes_changeEvent _ _ _).mono (changes_advanceEvent _ _ _)).trans (changes_advanceEvent _ _ _)
  have taken := eventTaken_settleAt (after := atMinute t.lineup t.sample time) (saleStands_atMinute _ _ _)
    (endTime_atMinute _ _ _ e) advanced he hbound sound quiet time
  obtain ⟨ends, hands, events, reservations, -⟩ := taken
  rw [settlementOwes_of_bare hbare] at ends
  have moved := moved_iff time (countMinute t.lineup t.sample time e)
  rw [countMinute_state] at moved
  rw [← hlineup, ← hsample]
  refine ⟨ends, hands.congr fun a => and_congr_left fun _ => or_congr_left ?_, events, reservations,
    changes_eventAtMinute time e.id t⟩
  rw [false_or, countMinute_state]
  exact moved

/-! ### The statement's account of a run -/

theorem due_of_changes {s t : State} (h : Changes eventBlocks s t) : t.due = s.due := by
  obtain ⟨hmonitor, hevents⟩ := h.same .minuteEnds
  have hpurchases : t.due.purchases = s.due.purchases := h.same .purchases
  obtain ⟨hboundaries, htallies, hrestart, hgap⟩ := h.same .deliveries
  revert hmonitor hevents hpurchases hboundaries htallies hrestart hgap
  cases t.due
  cases s.due
  simp only [Deliveries.mk.injEq]
  exact fun hmonitor hevents hpurchases hboundaries htallies hrestart hgap =>
    ⟨hmonitor, hevents, hboundaries, htallies, hpurchases, hrestart, hgap⟩

theorem boundSound_of_taken {s u : State} (h : Changes [.sample, .minuteEnds, .deliveries] s u) (hb : boundSound s) :
    boundSound u := by
  refine boundSound_of_same ⟨?_, ?_, ?_, ?_⟩ hb
  · rw [h.same .taps]
    exact forall₂_refl tapAgrees_refl _
  · rw [h.same .transponders]
  · rw [h.same .sched]
  · rw [h.same .accounts]

/-- The endings and recomputations of all held events, from a state that differs in what is still to be taken. -/
theorem endsEvents_of_run {cause : RefundCause} {owed : EventRec → Account → Bool} {after : EventRec → EventRec}
    {finished : EventRec → Bool} {moves : EventRec → Prop} {s u t : State} {kept ended handed : List EventRec}
    (hafter : saleStands after) (hr : reservationsSound s) (hb : bindingsSound s)
    (taken : Changes [.sample, .minuteEnds, .deliveries] s u)
    (run : RunState cause owed after finished moves u u.events [] t)
    (hkept : kept = s.events.filter fun e => !finished e) (hended : ended = s.events.filter finished)
    (hhanded : ∀ e, e ∈ handed ↔ e ∈ s.events ∧ moves e) :
    t.events = kept.map after ∧ endsEvents cause owed (ended.map after) handed s t := by
  obtain ⟨-, ends, hands, events, changes⟩ := run
  have hevents := taken.same .events
  have haccounts := taken.same .accounts
  simp only [Block.same] at hevents haccounts
  rw [hevents, haccounts] at ends
  rw [hevents, haccounts] at hands
  rw [hevents, List.append_nil] at events
  subst hkept hended
  refine ⟨events, endsEvents_of hr (fun x hx => ?_)
    (ends.from (taken.same .clock) haccounts (taken.same .journal) (taken.same .meter) (taken.same .alarms))
    ((hands.from hb.2.1 (taken.same .taps) (taken.same .commandQueue) hevents (taken.same .lineup) haccounts).congr
      fun a => ?_) (endsFrame_of_changes (Changes.trans taken.mono changes.mono))⟩
  · obtain ⟨e, he, rfl⟩ := List.mem_map.1 hx
    obtain ⟨hid, -, hholders⟩ := hafter e
    rw [hid, hholders]
    exact mem_tableOf.2 ⟨e, List.mem_of_mem_filter he, rfl⟩
  · refine exists_congr fun e => ?_
    rw [hhanded, and_assoc]

/-! ### Minute ends in the statement -/

theorem isDark_iff (l : Lineup) (sample : MinuteSample) (e : EventRec) :
    isDark l sample e = true ↔ ∃ source ∈ sourceOf e.channel l.active, source ∈ sample.inputs := by
  unfold isDark
  simp [Option.any_eq_true]

/-- The counters of a running event at a minute end, node by node (R149). -/
theorem countMinute_eq (l : Lineup) (sample : MinuteSample) (t : Nat) (e : EventRec) :
    countMinute l sample t e =
      if e.state ≠ .onSale ∧ t ≤ endTime e then
        { e with counters := vecMapIdx (fun i v =>
          if (∃ source ∈ sourceOf e.channel l.active, source ∈ sample.inputs) ∨ i + 1 ∈ sample.nodes then
            min e.duration (v + 1)
          else v) e.counters }
      else e := by
  have counters : raiseCounters (fun n => isDark l sample e || sample.nodes.contains n) 1 e =
      { e with counters := vecMapIdx (fun i v =>
          if (∃ source ∈ sourceOf e.channel l.active, source ∈ sample.inputs) ∨ i + 1 ∈ sample.nodes then
            min e.duration (v + 1)
          else v) e.counters } := by
    unfold raiseCounters
    congr 2
    funext i v
    refine if_congr ?_ rfl rfl
    rw [Bool.or_eq_true, isDark_iff, List.contains_iff_mem]
  unfold countMinute
  rw [counters]
  by_cases h : e.state ≠ .onSale ∧ t ≤ endTime e
  · rw [if_pos (by simpa using h), if_pos h]
  · rw [if_neg (by simpa using h), if_neg h]

theorem advanced_eq (t : Nat) (e : EventRec) : advanceClosed t (advanceOpen t e) = { e with
    state := if (if e.state = .onSale ∧ e.start ≤ t then EventState.runningOpen else e.state) = .runningOpen ∧
      closeTime e ≤ t then .runningClosed
      else if e.state = .onSale ∧ e.start ≤ t then EventState.runningOpen else e.state } := by
  rw [advanceClosed_eq, advanceOpen_eq]
  rfl

theorem atMinute_eq (l : Lineup) (sample : MinuteSample) (t : Nat) (e : EventRec) :
    atMinute l sample t e = { countMinute l sample t e with
      state := if (if e.state = .onSale ∧ e.start ≤ t then EventState.runningOpen else e.state) = .runningOpen ∧
        closeTime e ≤ t then .runningClosed
        else if e.state = .onSale ∧ e.start ≤ t then EventState.runningOpen else e.state } := by
  rw [atMinute, advanced_eq]
  unfold countMinute
  split
  · rfl
  · rfl

theorem fixedSample (t : Nat) (s : State) : (fixSample t s).sample =
    if ∀ held ∈ s.sample.minute, held < t then {
      minute := some t,
      nodes := (upTo 32).filter fun n => (nodeOf s n).state = .outage,
      inputs := (upTo 64).filter fun i => (inputOf s i).debounced = .lost }
    else s.sample :=
  if_congr (by simp [Option.all_eq_true]) rfl rfl

theorem settlementOwes_address (s : State) (e : EventRec) (a b : Account) (h : a.address = b.address) :
    settlementOwes s e a = settlementOwes s e b := by
  unfold settlementOwes minutesFor
  rw [h]

theorem not_ended (time : Nat) (events : List EventRec) :
    (events.filter fun e => decide (time < endTime e)) = events.filter fun e => !decide (endTime e ≤ time) := by
  refine List.filter_congr fun e _ => ?_
  rw [← decide_not, decide_eq_decide, Nat.not_le]

/-- A minute end taken by the Event Table (R147 to R149, R155). -/
theorem eventMinuteEnd_ends {s : State} {m : MinuteEnd} {rest : List MinuteEnd} (hm : s.due.eventEnds = m :: rest)
    (hr : reservationsSound s) (hb : bindingsSound s) {handed : List EventRec}
    (hhanded : ∀ e, e ∈ handed ↔ e ∈ s.events ∧
      ((atMinute s.lineup (fixSample m.time s).sample m.time e).state ≠ e.state ∨ endTime e ≤ m.time)) :
    (eventMinuteEndStep s).sample = (fixSample m.time s).sample ∧
    (eventMinuteEndStep s).due = { s.due with eventEnds := rest } ∧
    (eventMinuteEndStep s).events = (s.events.filter fun e => m.time < endTime e).map
      (atMinute s.lineup (fixSample m.time s).sample m.time) ∧
    endsEvents .settled (settlementOwes s)
      ((s.events.filter fun e => endTime e ≤ m.time).map (atMinute s.lineup (fixSample m.time s).sample m.time))
      handed s (eventMinuteEndStep s) := by
  have htaken : Changes [.sample, .minuteEnds, .deliveries] s
      (fixSample m.time { s with due := { s.due with eventEnds := rest } }) := .of_put rfl
  have run := events_taken (s := fixSample m.time { s with due := { s.due with eventEnds := rest } })
    (saleStands_atMinute _ _ m.time) (settlementOwes_address _) (reservationsSound_of_same (s := s) ⟨rfl, rfl, rfl, rfl⟩ hr)
    (boundSound_of_taken htaken (bindingsSound_iff.1 hb))
    fun e t h he => eventTaken_minute m.time h he
  have step : eventMinuteEndStep s =
      takeEventMinute m.time { s with due := { s.due with eventEnds := rest } } := by
    rw [eventMinuteEndStep, hm]
  rw [step]
  obtain ⟨events, ends⟩ := endsEvents_of_run (handed := handed) (saleStands_atMinute _ _ m.time) hr hb htaken run
    (not_ended m.time s.events) rfl hhanded
  exact ⟨run.changes.same .sample, due_of_changes run.changes, events, ends⟩

/-! ### The step at a restart (R160) -/

theorem vecMapIdx_const {α β : Type} {n : Nat} (f : α → β) (v : Vector α n) :
    vecMapIdx (fun _ x => f x) v = vecMap f v := by
  have entries : v.toList.zipIdx.map (fun x => f x.1) = v.toList.map f := by
    conv => rhs; rw [← List.zipIdx_map_fst 0 v.toList, List.map_map]
    rfl
  unfold vecMapIdx vecMap
  exact Vector.toArray_inj.1 (congrArg List.toArray entries)

/-- An event at a restart: the credit, and the advance. -/
def atRestart (down up : Nat) (e : EventRec) : EventRec :=
  advanceClosed up (advanceOpen up (raiseCounters (fun _ => true) (downtimeMinutes down up e) e))

theorem atRestart_eq (down up : Nat) (e : EventRec) : atRestart down up e = { e with
    counters := vecMap (fun v => min e.duration (v + (min up (endTime e) - max down e.start + 59) / 60)) e.counters,
    state := if (if e.state = .onSale ∧ e.start ≤ up then EventState.runningOpen else e.state) = .runningOpen ∧
      closeTime e ≤ up then .runningClosed
      else if e.state = .onSale ∧ e.start ≤ up then EventState.runningOpen else e.state } := by
  have counters : raiseCounters (fun _ => true) (downtimeMinutes down up e) e = { e with
      counters := vecMap (fun v => min e.duration (v + (min up (endTime e) - max down e.start + 59) / 60)) e.counters } := by
    unfold raiseCounters
    rw [← vecMapIdx_const]
    rfl
  rw [atRestart, counters, advanced_eq]
  rfl

theorem saleStands_atRestart (down up : Nat) : saleStands (atRestart down up) :=
  saleStands_comp (f := fun e => advanceOpen up (raiseCounters (fun _ => true) (downtimeMinutes down up e) e))
    (saleStands_comp (fun _ => ⟨rfl, rfl, rfl⟩) (saleStands_advanceOpen up)) (saleStands_advanceClosed up)

/-- One event at a restart. -/
theorem eventTaken_restart {s t : State} (down up : Nat) {e : EventRec} (h : RunFrom s t)
    (he : findEvent e.id t.events = some e) :
    EventTaken .settled (settlementOwes s) (atRestart down up) (decide (endTime e ≤ up)) (endTime e ≤ up) e t
      (eventAtRestart down up e.id t) := by
  obtain ⟨hr, hbound, hbare, -, -⟩ := h
  have sale := saleStands_atRestart down up
  have sound : reservationsSound (changeEvent e.id (atRestart down up) t) :=
    reservationsSound_of_same (sameHolders_changeEvent (fun x => ⟨(sale x).1, (sale x).2.2⟩) t) hr
  obtain ⟨ends, hands, events, reservations, -⟩ := eventTaken_settleAt sale (endTime_advanced up _)
    (advances_changeEvent sale e t) he hbound sound (changes_changeEvent _ _ _).mono up
  rw [settlementOwes_of_bare hbare] at ends
  exact ⟨ends, hands.congr fun a => by rw [false_or], events, reservations, changes_eventAtRestart down up e.id t⟩

theorem restartEventStep_ends {s : State} {down up : Nat} (howed : s.due.restartStep = true)
    (hdown : s.clock.resetTime = some down) (hup : s.clock.restartTime = some up) (hr : reservationsSound s)
    (hb : bindingsSound s) :
    (restartEventStepStep s).sample = s.sample ∧ (restartEventStepStep s).due = { s.due with restartStep := false } ∧
    (restartEventStepStep s).events = (s.events.filter fun e => up < endTime e).map (atRestart down up) ∧
    endsEvents .settled (settlementOwes s) ((s.events.filter fun e => endTime e ≤ up).map (atRestart down up))
      (s.events.filter fun e => endTime e ≤ up) s (restartEventStepStep s) := by
  have htaken : Changes [.sample, .minuteEnds, .deliveries] s { s with due := { s.due with restartStep := false } } :=
    .of_put rfl
  have run := events_taken (s := { s with due := { s.due with restartStep := false } }) (saleStands_atRestart down up)
    (settlementOwes_address _) (reservationsSound_of_same (s := s) ⟨rfl, rfl, rfl, rfl⟩ hr)
    (boundSound_of_taken htaken (bindingsSound_iff.1 hb)) fun e t h he => eventTaken_restart down up h he
  have step : restartEventStepStep s =
      (s.events.map (·.id)).foldl (fun v id => eventAtRestart down up id v)
        { s with due := { s.due with restartStep := false } } := by
    rw [restartEventStepStep, if_pos howed]
    dsimp only
    rw [hdown, hup]
  rw [step]
  obtain ⟨events, ends⟩ := endsEvents_of_run (handed := s.events.filter fun e => endTime e ≤ up)
    (saleStands_atRestart down up) hr hb htaken run (not_ended up s.events) rfl fun e => by simp
  exact ⟨run.changes.same .sample, due_of_changes run.changes, events, ends⟩

/-! ### Cancellation (R157) -/

theorem eventCancel_ends {s : State} {e : EventRec} (he : findEvent e.id s.events = some e) (hr : reservationsSound s)
    (hb : bindingsSound s) :
    (freeEvent e.id (e.holders.foldl (fun u k => cancelHolder e k u) s)).events = s.events.filter (·.id != e.id) ∧
    endsEvents .cancelled (fun _ _ => true) [e] [e] s
      (freeEvent e.id (e.holders.foldl (fun u k => cancelHolder e k u) s)) := by
  obtain ⟨hmem, -⟩ := findEvent_some he
  obtain ⟨⟨ends, hands⟩, events⟩ :=
    ends_event (cancelHolder_ends e) (cancelHolder_endsBy e s.taps) hmem hr (bindingsSound_iff.1 hb)
  refine ⟨events, endsEvents_of hr (fun x hx => ?_) ?_ (hands.congr fun a => by simp) (endsFrame_of_changes ?_)⟩
  · rw [List.mem_singleton.1 hx]
    exact mem_tableOf.2 ⟨e, hmem, rfl⟩
  · rwa [endingsOfAll, List.flatMap_singleton]
  · exact Changes.mono
      (Changes.trans (.foldl (fun u k => changes_cancelHolder e k u) e.holders s) (changes_freeEvent e.id _).mono :
        Changes eventBlocks s _)

/-- Settles O47, by the run of the events in ascending order, each taken as settlement or cancellation ends it. -/
theorem eventsAdvanceAndEnd : Obligations.EventsAdvanceAndEnd := by
  refine ⟨fun s m rest hp hm hr hb => ?_, fun s down up hp howed hdown hup hr hb => ?_, fun tag id s u => ?_⟩
  · intro sample counted after
    have hsample : (fixSample m.time s).sample = sample := fixedSample m.time s
    have hafter : atMinute s.lineup (fixSample m.time s).sample m.time = after := by
      funext e
      rw [atMinute_eq, hsample]
      exact congrArg (fun r : EventRec => { r with state := (after e).state }) (countMinute_eq s.lineup sample m.time e)
    obtain ⟨hfixed, hdue, hevents, hends⟩ := eventMinuteEnd_ends hm hr hb
      (handed := s.events.filter fun e => (after e).state ≠ e.state ∨ endTime e ≤ m.time)
      fun e => by rw [hafter, List.mem_filter, decide_eq_true_eq]
    rw [hafter] at hevents hends
    exact ⟨_, congrArg Host.Outcome.next (whenRunning_of_running hp), hfixed.trans hsample, hdue, hevents, hends⟩
  · intro credit after
    have hafter : atRestart down up = after := funext fun e => atRestart_eq down up e
    obtain ⟨hsample, hdue, hevents, hends⟩ := restartEventStep_ends howed hdown hup hr hb
    rw [hafter] at hevents hends
    exact ⟨_, congrArg Host.Outcome.next (whenRunning_of_running hp), hsample, hdue, hevents, hends⟩
  · intro c h
    have hexec := exec_of_executes (c := c) (owner := eventCancelStep id) rfl h
    refine ⟨fun hid => ?_, fun hlow hhigh => ⟨fun hnone => ?_, fun e he hr hb => ?_⟩⟩
    · rw [hexec, eventCancelStep, if_pos (by simpa [within, imp_iff_not_or] using hid)]
    all_goals rw [eventCancelStep, if_neg (by simp [within, hlow, hhigh])] at hexec
    · rw [hexec, hnone]
    · obtain ⟨-, rfl⟩ := findEvent_some he
      rw [he] at hexec
      obtain ⟨hevents, hends⟩ := eventCancel_ends he hr hb
      have quiet : Changes eventBlocks u (freeEvent e.id (e.holders.foldl (fun u k => cancelHolder e k u) u)) :=
        Changes.trans (.foldl (fun u k => changes_cancelHolder e k u) e.holders u) (changes_freeEvent e.id _).mono
      refine ⟨_, hexec, quiet.same .sample, due_of_changes quiet, hevents.trans ?_, hends⟩
      exact List.filter_congr fun x _ => by rw [bne, decide_not, beq_eq_decide]

end Sys2Proof.Machine
end

end
